-- ==== Sys2Proof/Word.lean ====
section
/-!
DEFINITION. The word and byte types of the device, and their plainest arithmetic: the sign bit, sign extension,
joining and splitting of little-endian words (00_scope.md: all multi-byte values are little-endian).
-/

namespace Sys2Proof

/-- A 32-bit word: every register of the part and every general register of an engine (00_scope.md). -/
abbrev Word := BitVec 32

/-- One byte of a memory. -/
abbrev Byte := BitVec 8

/-- A 64-bit value: a device time, a host address, a doubleword of a stream. -/
abbrev Dword := BitVec 64

namespace Word

/-- The word a Boolean reads as: 1 or 0. -/
def ofBool (b : Bool) : Word := if b then 1#32 else 0#32

/-- The word of a natural number, modulo 2^32. -/
def ofNat (n : Nat) : Word := BitVec.ofNat 32 n

/-- The four bytes of a word, least significant first. -/
def bytes (w : Word) : List Byte :=
  [w.extractLsb' 0 8, w.extractLsb' 8 8, w.extractLsb' 16 8, w.extractLsb' 24 8]

/-- The number that a list of bytes spells, least significant byte first. -/
def natOfBytes : List Byte → Nat
  | [] => 0
  | b :: bs => b.toNat + 256 * natOfBytes bs

/-- The low `n` bytes of a number, least significant first. -/
def bytesOfNat : Nat → Nat → List Byte
  | 0, _ => []
  | n + 1, v => BitVec.ofNat 8 v :: bytesOfNat n (v / 256)

end Word

end Sys2Proof
end

