-- ==== Sys2Proof/Machine/Types.lean ====
section
/-!
DEFINITION. The names that operands and state share: the numbers of regions, engines, lanes and ports, initiators
and their identifiers (02, table Initiator IDs), addresses of the device map (R32), statuses and kinds of packets.
-/

namespace Sys2Proof

abbrev RegionId := Fin 64
abbrev EngineId := Fin 256
abbrev VaultId := Fin 64
abbrev SlotId := Fin 8
abbrev LaneId := Fin 48
abbrev PortId := Fin 12
abbrev SerialId := Fin 16
abbrev BankId := Fin 10
abbrev MacId := Fin 2
abbrev ChanId := Fin 2
abbrev RingId := Fin 4
abbrev QueueId := Fin 16
abbrev DmaId := Fin 4
/-- A general or floating-point register number of an engine. -/
abbrev GReg := Fin 32

/-- The initiators of the part (02, table Initiator IDs). -/
inductive Who
  | engine (e : EngineId)
  | host
  | steward
  | debugger
  | fabric (r : RegionId)
  | dma (v : VaultId) (c : DmaId)
  | remote (p : PortId)
  | loader
deriving DecidableEq, Repr

/-- The initiator ID of R42's table. The loader has none there; it never reaches a register page (R33). -/
def Who.id : Who → Nat
  | .engine e => e.val
  | .host => 0x100
  | .steward => 0x101
  | .debugger => 0x102
  | .fabric r => 0x140 + r.val
  | .dma v c => 0x200 + 4 * v.val + c.val
  | .remote p => 0x300 + p.val
  | .loader => 0x3FF

/-- Completion statuses (10, table Completion status). -/
inductive Status
  | ok | busErr | poison | domainOff | routeFault | loading | timeout | busyTest | busy | scFail
deriving DecidableEq, Repr

/-- The code of a status. -/
def Status.code : Status → Nat
  | .ok => 0 | .busErr => 1 | .poison => 2 | .domainOff => 3 | .routeFault => 4 | .loading => 5 | .timeout => 6
  | .busyTest => 7 | .busy => 8 | .scFail => 9

/-- An error that a check finds in a pool codeword: its element (R56), the codeword, the bits of its 288 that are wrong (R58). -/
structure PoolError where
  element : Fin 36864
  codeword : Fin 4
  bits : List (Fin 288)
deriving DecidableEq, Repr

/-- One write of a block RAM port: rows `row` to `row` + k - 1, nine bits each, the lowest in the low bits of the data (R70, R130). -/
structure BramWrite where
  bram : Fin 96
  port : Fin 2
  row : Nat
  k : Nat
  data : Nat
deriving DecidableEq, Repr

/-- What the check of a vault's chunk finds when it is read (R167). -/
inductive Found
  | clean
  | corrected (symbol : Nat)
  | uncorrectable
deriving DecidableEq, Repr

/-- The faults of an instruction fetch (R199, R214, R233). -/
inductive FetchFault | window | bus | data
deriving DecidableEq, Repr

/-- What a channel's checks of a line find (R325, R328): good, good at the second read, failed twice, a counter block
of a tree level failed. -/
inductive ExtFound
  | good
  | retried
  | bad
  | counter (level : Fin 3)
deriving DecidableEq, Repr

/-- What the checks of one line find where it is read: its two chunks in the memory tier (of the thermos and flash the
first counts), its line in external memory, the lines of its page that a re-encryption finds bad (R327). -/
structure LineFound where
  c0 : Found := .clean
  c1 : Found := .clean
  ext : ExtFound := .good
  bad : List (Fin 64) := []
deriving DecidableEq, Repr

/-- A fetch's read of its entry's header line: the region, and what the checks find (R110, R167). -/
structure HeaderRead where
  region : RegionId
  found : LineFound := {}
deriving DecidableEq, Repr

/-- The end of a fetch: its duration in CFG_CLK cycles, and the chunks that its reads corrected, as offset in the entry and symbol (R110,
R167). -/
structure FetchEnd where
  cycles : Word
  fixed : List (Nat × Nat) := []
deriving DecidableEq, Repr

/-- The line that a remap entry moves into its spare line, and what the checks find when it is read (R178). -/
structure SpareCopy where
  line : Fin 1048576
  found : LineFound := {}
deriving DecidableEq, Repr

/-- A write of VLT_REMAP that ends an entry: the entry, the spare slot and line written, and what the checks find when the line is copied
back (R179). -/
structure RemapOff where
  sel : Fin 8
  slot : Fin 64
  line : Fin 1048576
  found : LineFound := {}
deriving DecidableEq, Repr

/-- The kinds of request a fabric makes (10, NQ_KIND). -/
inductive FabKind | read | write | pwrite | msg | msgp
deriving DecidableEq, Repr

/-- The packet kind of a fabric request (10, table Packet kinds). -/
def FabKind.code : FabKind → Nat
  | .read => 0 | .write => 1 | .pwrite => 2 | .msg => 3 | .msgp => 4

/-- A request of a fabric as it stands on the NQ signals (R251). -/
structure FabReq where
  kind : FabKind
  cls : Fin 4
  tag : Fin 32
  dev : Nat
  addr : Nat
  be : Nat
  word : Word
  data : List Byte
deriving DecidableEq, Repr

/-- What adaptation arrives at: CTLE code, DFE taps 1 to 5, LN_CDR, and the first eye scan. -/
structure Adapted where
  ctle : Fin 16
  taps : BitVec 40
  cdr : Word
  width : Nat
  height : Nat
deriving DecidableEq, Repr

/-- A numbered Guleg frame (R278): REQ 1, RSP 2, KEY 5, LOAD 6, EVENT 7, with the fields of its header. `word` is the
message word of a MSG or MSGP, for which the header names no place (notes/assumptions/31.md). -/
structure Frame where
  ftype : Nat
  cls : Nat := 0
  etag : Nat := 0
  stage : Bool := false
  hops : Nat := 0
  ports : Nat := 0
  dst : Nat := 0
  src : Nat := 0
  kind : Nat := 0
  addr : Nat := 0
  status : Nat := 0
  poison : Bool := false
  dbg : Bool := false
  init : Nat := 0
  be : Nat := 0
  word : Word := 0
  data : List Byte := []
deriving DecidableEq, Repr

/-- What a receiver finds of a frame (R281, R296): good with its link sequence number, a failed CRC, a failed
authentication. -/
inductive Received
  | good (lseq : Nat)
  | crc
  | auth
deriving DecidableEq, Repr

/-- The acknowledgement in a frame's lack field: the sequence acknowledged, and whether it is a nak. -/
structure Ack where
  seq : Nat
  nak : Bool
deriving DecidableEq, Repr

/-- What the checker self-test of start-up step 6 finds to have failed (R414): vault decoders, C-tier pool checkers of
regions, TCM decoders of engines, a scrub-engine store at its second test, the thermos code, the crypto tests. -/
structure Checkers where
  vaults : BitVec 64
  pools : BitVec 64
  engines : BitVec 256
  scrub : Bool
  thermos : Bool
  crypto : Bool
deriving DecidableEq, Repr

/-- How a step of start-up ends (R411): the boot ROM's own tests; KROOT locked in time with REFCLK present; the first trim;
calibration, with the items whose restored value meets its threshold, the sentinel's worst residual in LSB, the worst
residual of the I/O banks; the fill; the checkers; the boot image; external memory, with the channels whose restored
array was kept. `ms` are the milliseconds that the step took. -/
inductive StepEnd
  | bootRom (katOk : Bool)
  | pll (locked : Bool)
  | trim
  | calibrated (keep : BitVec 4) (sentinel io : Byte) (ms : BitVec 16)
  | filled
  | checked (x : Checkers)
  | image (ms : BitVec 16)
  | extMem (keep : BitVec 2) (ms : BitVec 16)
deriving DecidableEq, Repr

/-- A PCIe configuration request (R253, R254): a read of a doubleword, a write of Bus Master Enable, a write of Device
Control 2 with its timeout value and disable. -/
inductive CfgReq
  | read (dword : Fin 1024)
  | busMaster (on : Bool)
  | timeout (code : Fin 16) (disable : Bool)
deriving DecidableEq, Repr

/-- How a self-test ends (R474, R476, R483 to R485, R487, R490): the first failure as ST_RLOC shows it, if any; its duration;
of a region test the measured signatures by depth (2, 4, 8: L0, L1, riser), the slots with bits in an uncorrectable chunk of
the save area and whether such a chunk held flip-flops or FIFO pointers; of an engine test the uncorrectable words found
(true for data memory); of a lane test the errored bits; of a recalibration the quality figure. -/
structure TestEnd where
  fail : Option (BitVec 28) := none
  us : Word := 0
  sigs : Vector (Vector Dword 3) 3 := Vector.replicate 3 (Vector.replicate 3 0)
  badSlots : List SlotId := []
  badCore : Bool := false
  words : List (Bool × Fin 16384) := []
  errors : Word := 0
  quality : Word := 0
deriving DecidableEq, Repr

/-! ### KE32 instructions (09) -/

/-- Integer register operations, major 0x00. -/
inductive AluOp
  | add | sub | and | or | xor | shl | shr | sar | lt | ltu | mul | mulhs | mulhu | div | divu | rem | remu
deriving DecidableEq, Repr

/-- Immediate operations, majors 0x08 to 0x0D. -/
inductive ImmOp | addi | andi | ori | xori | lti | ltiu
deriving DecidableEq, Repr

/-- Shifts by an immediate, major 0x0E. -/
inductive ShiftOp | shli | shri | sari
deriving DecidableEq, Repr

/-- Floating-point operations of two operands, major 0x01. -/
inductive Fp2Op
  | fadd | fsub | fmul | fdiv | fmin | fmax | fcsgn | fnsgn | fxsgn | fceq | fclt | fcle | fcun
deriving DecidableEq, Repr

/-- Floating-point operations of one operand, major 0x01. -/
inductive Fp1Op | fsqrt | ftoi | ftou | itof | utof | fmvg | fmvf | fkind
deriving DecidableEq, Repr

/-- Loads, majors 0x10 to 0x15. -/
inductive LoadOp | lb | lbu | lh | lhu | lw | lwf
deriving DecidableEq, Repr

/-- Stores, majors 0x18 to 0x1B. -/
inductive StoreOp | sb | sh | sw | swf
deriving DecidableEq, Repr

/-- Conditional branches, majors 0x20 to 0x25. -/
inductive BranchOp | beq | bne | blt | bge | bltu | bgeu
deriving DecidableEq, Repr

/-- Control registers (R219). -/
inductive CReg
  | estat | ecause | epc | eaddr | evbase | ctxid | fstat
  | winA (x : Fin 16)
  | winB (x : Fin 16)
deriving DecidableEq, Repr

/-- System instructions with no operand, major 0x30. -/
inductive Sys0Op | sync | isync | iinv | sys | brk | tret | idle
deriving DecidableEq, Repr

/-- Data-cache maintenance, major 0x30. -/
inductive CacheOp | dwb | dinv | dwbi
deriving DecidableEq, Repr

/-- A KE32 instruction. -/
inductive K32
  | alu (op : AluOp) (rd rs1 rs2 : GReg)
  | imm (op : ImmOp) (rd rs1 : GReg) (v : BitVec 16)
  | shift (op : ShiftOp) (rd rs1 : GReg) (amt : Fin 32)
  | lui (rd : GReg) (v : BitVec 16)
  | fp2 (op : Fp2Op) (rd rs1 rs2 : GReg)
  | fp1 (op : Fp1Op) (rd rs1 : GReg)
  | load (op : LoadOp) (rd rs1 : GReg) (off : BitVec 16)
  | store (op : StoreOp) (rs2 rs1 : GReg) (off : BitVec 16)
  | lrw (rd rs1 : GReg)
  | scw (rd rs1 rs2 : GReg)
  | branch (op : BranchOp) (rs1 rs2 : GReg) (off : BitVec 16)
  | jal (off : BitVec 26)
  | j (off : BitVec 26)
  | jalr (rd rs1 : GReg) (v : BitVec 16)
  | mfcr (rd : GReg) (cr : CReg)
  | mtcr (cr : CReg) (rs1 : GReg)
  | mtcrm (cr : CReg) (rs1 gm : GReg)
  | sys0 (op : Sys0Op)
  | cache (op : CacheOp) (rs1 : GReg)
deriving DecidableEq, Repr

end Sys2Proof
end

