-- ==== Sys2Proof/Syntax.lean ====
section
/-!
DEFINITION. The commands of the block: one constructor per row of the command table, in its order, with the operands that its
meaning takes. The table gives its rows no operands; they are the model's reading of what each row needs: which instance it
names, what an initiator writes, and what happens outside the digital block that the command brings with it (what a check
finds, what arrives on a pin). The docstring of a constructor gives its row and its rules; the docstring of its meaning says what
its operands are.
-/

namespace Sys2Proof


inductive Instr
  /-- REGISTER_WRITE (R8, R35, R38, R40 to R47). -/
  | registerWrite (who : Who) (off : BitVec 22) (vs : List Word) (fs : List LineFound)
  /-- RC_READ (R8). -/
  | rcRead (who : Who) (p : Fin 1024) (w : Fin 1024)
  /-- LO_READ_LATCH (R509). -/
  | loReadLatch (who : Who) (p : Fin 1024) (w : Fin 1024) (wide : Bool)
  /-- PG_LOCK_WRITE (R41, R42, R45). -/
  | pgLockWrite (who : Who) (p : Fin 1024) (key : BitVec 16)
  /-- HALF_UNLOCK_TIMEOUT (R42). -/
  | halfUnlockTimeout (p : Fin 1024)
  /-- UNLOCK_EXPIRY (R41). -/
  | unlockExpiry (p : Fin 1024)
  /-- PG_GATE_WRITE (R40, R43 to R45). -/
  | pgGateWrite (who : Who) (p : Fin 1024) (v : Word)
  /-- BLOCK_INIT_DONE (R40). -/
  | blockInitDone (p : Fin 1024)
  /-- EV_PEND_CLEAR (R44, R49). -/
  | evPendClear (who : Who) (p : Fin 1024) (v : Word)
  /-- EV_MASK_WRITE (R44, R50, R53). -/
  | evMaskWrite (who : Who) (p : Fin 1024) (v : Word)
  /-- WITHHELD_DELIVERY (R52). -/
  | withheldDelivery
  /-- ROUTE_ENTRY_WRITE (R51, R53, R54). -/
  | routeEntryWrite (who : Who) (src : Fin 660) (v : Word)
  /-- EVT_FORCE (R44, R53). -/
  | evtForce (who : Who) (k : Fin 4) (src : BitVec 10)
  /-- RISER_CONTENTION (R82, R84). -/
  | riserContention (r : RegionId) (riser : Nat)
  /-- RISER_CUT_RELEASE (R83). -/
  | riserCutRelease (r : RegionId)
  /-- RESET_TREE_ASSERT (R88, R89). -/
  | resetTreeAssert (tree : Fin 2)
  /-- RESET_TREE_RELEASE (R88). -/
  | resetTreeRelease (tree : Fin 2)
  /-- CTX_REQ (R95, R99, R100). -/
  | ctxReq (r : RegionId) (slot : SlotId)
  /-- CTXSEL_WRITE (R95). -/
  | ctxselWrite (r : RegionId) (slot : SlotId)
  /-- SWITCH_CAPTURE (R94, R95, R99, R100). -/
  | switchCapture (r : RegionId)
  /-- SWITCH_CHECK (R94, R96, R97, R99, R105, R124). -/
  | switchCheck (r : RegionId) (err : Option PoolError)
  /-- SWITCH_TAKE_EFFECT (R94, R64, R71, R75, R136). -/
  | switchTakeEffect (r : RegionId)
  /-- SCHED_ARM (R102). -/
  | schedArm (r : RegionId) (slot : SlotId)
  /-- SCHED_DISARM (R102). -/
  | schedDisarm (r : RegionId) (slot : SlotId)
  /-- SCHED_CAPTURE (R101, R103). -/
  | schedCapture (r : RegionId)
  /-- STOP_SWITCH_CAPTURE (R26, R27, R106). -/
  | stopSwitchCapture
  /-- HAMPER_RESIZE (R107). -/
  | hamperResize (who : Who) (r : RegionId) (size : Fin 16)
  /-- HAMPER_GROWTH_DONE (R107). -/
  | hamperGrowthDone (r : RegionId)
  /-- FETCH_START (R109). -/
  | fetchStart (r : RegionId) (entry : Fin 256) (slot : SlotId)
  /-- FETCH_HEADER_CHECK (R110). -/
  | fetchHeaderCheck (rd : HeaderRead)
  /-- FETCH_DONE (R110, R111). -/
  | fetchDone (r : RegionId) (done : FetchEnd)
  /-- FETCH_READ_UNCORR (R113). -/
  | fetchReadUncorr (r : RegionId) (off : Nat)
  /-- SCRUB_CODEWORD_CHECK (R112, R115, R116, R117). -/
  | scrubCodewordCheck (r : RegionId) (element : Fin 36864) (codeword : Fin 4) (bits : List (Fin 288)) (fetchWrote : Bool)
  /-- FAULT_HOLD_RELEASE (R117). -/
  | faultHoldRelease (r : RegionId)
  /-- SPEC_OPEN (R121 to R124). -/
  | specOpen (r : RegionId) (pred : SlotId)
  /-- SPECCTL_OPEN (R122 to R124, R139). -/
  | specctlOpen (who : Who) (r : RegionId) (pred : SlotId)
  /-- SPEC_OPENING_EDGE (R123, R126, R127). -/
  | specOpeningEdge (r : RegionId)
  /-- SPEC_COMMIT (R122, R135). -/
  | specCommit (r : RegionId)
  /-- SPECCTL_COMMIT (R122, R135, R139). -/
  | specctlCommit (r : RegionId)
  /-- SPEC_ABORT (R122, R135, R136). -/
  | specAbort (r : RegionId) (corr : SlotId) (withCommit : Bool)
  /-- SPECCTL_ABORT (R122, R136, R139). -/
  | specctlAbort (r : RegionId) (corr : SlotId)
  /-- SPEC_WINDOW_FULL (R133). -/
  | specWindowFull (r : RegionId)
  /-- SPEC_STALL_TIMEOUT (R134). -/
  | specStallTimeout (r : RegionId)
  /-- LOAD (R269, R147). -/
  | load (q : QueueId) (cid : BitVec 16) (data : Option (List Byte))
  /-- IMAGE_VERIFIED (R147, R23, R510). -/
  | imageVerified
  /-- SECTION_RECEIVED (R148, R149, R152, R153, R160). -/
  | sectionReceived
  /-- LOAD_RESET_ASSERT (R154). -/
  | loadResetAssert (r : RegionId)
  /-- SECTION_WRITTEN (R153, R154, R158, R188). -/
  | sectionWritten
  /-- REGION_RELEASE (R155). -/
  | regionRelease (r : RegionId)
  /-- IMAGE_END (R155, R159, R190). -/
  | imageEnd
  /-- CHAIN_STREAM (R151). -/
  | chainStream
  /-- CHAIN_FORWARD (R151). -/
  | chainForward
  /-- BORDERPOL_WRITE (R157). -/
  | borderpolWrite (r : RegionId) (v : BitVec 16)
  /-- VP_REQUEST (R164, R165, R28, R131). -/
  | vpRequest (r : RegionId) (line : Fin 1048576) (write : Bool) (tag : Fin 32) (be : Nat) (data : List Byte)
  /-- VP_RESPONSE (R164 to R168, R177). -/
  | vpResponse (r : RegionId) (tag : Fin 32) (f0 f1 : Found)
  /-- VAULT_ACCESS (R163, R167, R168, R175 to R177). -/
  | vaultAccess (v : VaultId) (f : LineFound)
  /-- VAULT_FILL_DONE (R170). -/
  | vaultFillDone (v : VaultId)
  /-- SCRUB_READ_DUE (R173, R174). -/
  | scrubReadDue (v : VaultId) (f0 f1 : Found)
  /-- LOG_FREE (R175). -/
  | logFree (v : VaultId) (sel : Fin 16)
  /-- REMAP_WRITE (R178, R179). -/
  | remapWrite (who : Who) (v : VaultId) (sel : Fin 8) (slot : Fin 64) (copy : SpareCopy)
  /-- REMAP_END (R179). -/
  | remapEnd (who : Who) (v : VaultId) (off : RemapOff)
  /-- DMA_TAIL_WRITE (R180). -/
  | dmaTailWrite (v : VaultId) (c : DmaId) (tail : Fin 64)
  /-- DMA_RUN (R180, R182). -/
  | dmaRun (v : VaultId) (c : DmaId) (run : Bool)
  /-- DMA_RESUME (R182). -/
  | dmaResume (v : VaultId) (c : DmaId)
  /-- DMA_DESCRIPTOR_FETCH (R171, R172, R180, R185). -/
  | dmaDescriptorFetch (v : VaultId) (c : DmaId) (fs : List LineFound)
  /-- DMA_DESCRIPTOR_DONE (R180, R181). -/
  | dmaDescriptorDone (v : VaultId) (c : DmaId) (src dst own : List LineFound)
  /-- DMA_HALT (R182). -/
  | dmaHalt (v : VaultId) (c : DmaId) (own : List LineFound)
  /-- ENGINE_PARK (R189). -/
  | enginePark (e : EngineId)
  /-- ENGINE_PARKED (R189). -/
  | engineParked (e : EngineId)
  /-- ENGINE_RUN (R190, R52). -/
  | engineRun (e : EngineId)
  /-- LINE_FILL_RETURN (R194, R195, R177). -/
  | lineFillReturn (e : EngineId) (pre : Option (BitVec 30)) (f : LineFound)
  /-- STORE_ERROR (R206). -/
  | storeError (e : EngineId)
  /-- INTERRUPT_TAKE (R211, R213, R232, R233). -/
  | interruptTake (e : EngineId)
  /-- NMI_TAKE (R212, R232). -/
  | nmiTake (e : EngineId)
  /-- IRQ_SET (R211). -/
  | irqSet (e : EngineId) (bits : BitVec 16)
  /-- IRQ_CLEAR (R211). -/
  | irqClear (e : EngineId) (bits : BitVec 16)
  /-- WDT_KICK (R215). -/
  | wdtKick (e : EngineId) (key : BitVec 16)
  /-- WDT_ENABLE (R215). -/
  | wdtEnable (who : Who) (e : EngineId)
  /-- WDT_EXPIRY (R215, R216). -/
  | wdtExpiry (e : EngineId)
  /-- WINDOW_WRITE (R197, R198, R200). -/
  | windowWrite (e : EngineId) (b : Bool) (v : Word)
  /-- SPD_POP (R208, R132, R210). -/
  | spdPop (r : RegionId) (k : Fin 32)
  /-- SPU_PUSH (R208, R132, R87, R210). -/
  | spuPush (r : RegionId) (k : Fin 32) (w : Word)
  /-- ADD (R221). -/
  | add (e : EngineId) (rd rs1 rs2 : GReg)
  /-- SUB (R221). -/
  | sub (e : EngineId) (rd rs1 rs2 : GReg)
  /-- AND (R221). -/
  | and (e : EngineId) (rd rs1 rs2 : GReg)
  /-- OR (R221). -/
  | or (e : EngineId) (rd rs1 rs2 : GReg)
  /-- XOR (R221). -/
  | xor (e : EngineId) (rd rs1 rs2 : GReg)
  /-- SHL (R221). -/
  | shl (e : EngineId) (rd rs1 rs2 : GReg)
  /-- SHR (R221). -/
  | shr (e : EngineId) (rd rs1 rs2 : GReg)
  /-- SAR (R221). -/
  | sar (e : EngineId) (rd rs1 rs2 : GReg)
  /-- LT (R221). -/
  | lt (e : EngineId) (rd rs1 rs2 : GReg)
  /-- LTU (R221). -/
  | ltu (e : EngineId) (rd rs1 rs2 : GReg)
  /-- MUL (R221). -/
  | mul (e : EngineId) (rd rs1 rs2 : GReg)
  /-- MULHS (R221). -/
  | mulhs (e : EngineId) (rd rs1 rs2 : GReg)
  /-- MULHU (R221). -/
  | mulhu (e : EngineId) (rd rs1 rs2 : GReg)
  /-- DIV (R221, R222). -/
  | div (e : EngineId) (rd rs1 rs2 : GReg)
  /-- DIVU (R221, R222). -/
  | divu (e : EngineId) (rd rs1 rs2 : GReg)
  /-- REM (R221, R222). -/
  | rem (e : EngineId) (rd rs1 rs2 : GReg)
  /-- REMU (R221, R222). -/
  | remu (e : EngineId) (rd rs1 rs2 : GReg)
  /-- ADDI (R223). -/
  | addi (e : EngineId) (rd rs1 : GReg) (v : BitVec 16)
  /-- ANDI (R223). -/
  | andi (e : EngineId) (rd rs1 : GReg) (v : BitVec 16)
  /-- ORI (R223). -/
  | ori (e : EngineId) (rd rs1 : GReg) (v : BitVec 16)
  /-- XORI (R223). -/
  | xori (e : EngineId) (rd rs1 : GReg) (v : BitVec 16)
  /-- LTI (R223). -/
  | lti (e : EngineId) (rd rs1 : GReg) (v : BitVec 16)
  /-- LTIU (R223). -/
  | ltiu (e : EngineId) (rd rs1 : GReg) (v : BitVec 16)
  /-- SHLI (R223). -/
  | shli (e : EngineId) (rd rs1 : GReg) (n : Fin 32)
  /-- SHRI (R223). -/
  | shri (e : EngineId) (rd rs1 : GReg) (n : Fin 32)
  /-- SARI (R223). -/
  | sari (e : EngineId) (rd rs1 : GReg) (n : Fin 32)
  /-- LUI (R223). -/
  | lui (e : EngineId) (rd : GReg) (v : BitVec 16)
  /-- FADD (R224, R225). -/
  | fadd (e : EngineId) (rd rs1 rs2 : GReg)
  /-- FSUB (R224, R225). -/
  | fsub (e : EngineId) (rd rs1 rs2 : GReg)
  /-- FMUL (R224, R225). -/
  | fmul (e : EngineId) (rd rs1 rs2 : GReg)
  /-- FDIV (R224, R225). -/
  | fdiv (e : EngineId) (rd rs1 rs2 : GReg)
  /-- FSQRT (R224, R225). -/
  | fsqrt (e : EngineId) (rd rs1 : GReg)
  /-- FMIN (R224, R225). -/
  | fmin (e : EngineId) (rd rs1 rs2 : GReg)
  /-- FMAX (R224, R225). -/
  | fmax (e : EngineId) (rd rs1 rs2 : GReg)
  /-- FCSGN (R224, R225). -/
  | fcsgn (e : EngineId) (rd rs1 rs2 : GReg)
  /-- FNSGN (R224, R225). -/
  | fnsgn (e : EngineId) (rd rs1 rs2 : GReg)
  /-- FXSGN (R224, R225). -/
  | fxsgn (e : EngineId) (rd rs1 rs2 : GReg)
  /-- FCEQ (R224, R225). -/
  | fceq (e : EngineId) (rd rs1 rs2 : GReg)
  /-- FCLT (R224, R225). -/
  | fclt (e : EngineId) (rd rs1 rs2 : GReg)
  /-- FCLE (R224, R225). -/
  | fcle (e : EngineId) (rd rs1 rs2 : GReg)
  /-- FCUN (R224, R225). -/
  | fcun (e : EngineId) (rd rs1 rs2 : GReg)
  /-- FTOI (R224, R225). -/
  | ftoi (e : EngineId) (rd rs1 : GReg)
  /-- FTOU (R224, R225). -/
  | ftou (e : EngineId) (rd rs1 : GReg)
  /-- ITOF (R224, R225). -/
  | itof (e : EngineId) (rd rs1 : GReg)
  /-- UTOF (R224, R225). -/
  | utof (e : EngineId) (rd rs1 : GReg)
  /-- FMVG (R224, R225). -/
  | fmvg (e : EngineId) (rd rs1 : GReg)
  /-- FMVF (R224, R225). -/
  | fmvf (e : EngineId) (rd rs1 : GReg)
  /-- FKIND (R224, R225). -/
  | fkind (e : EngineId) (rd rs1 : GReg)
  /-- LB (R226). -/
  | lb (e : EngineId) (rd rs1 : GReg) (off : BitVec 16) (f : LineFound)
  /-- LBU (R226). -/
  | lbu (e : EngineId) (rd rs1 : GReg) (off : BitVec 16) (f : LineFound)
  /-- LH (R226). -/
  | lh (e : EngineId) (rd rs1 : GReg) (off : BitVec 16) (f : LineFound)
  /-- LHU (R226). -/
  | lhu (e : EngineId) (rd rs1 : GReg) (off : BitVec 16) (f : LineFound)
  /-- LW (R226, R209, R227). -/
  | lw (e : EngineId) (rd rs1 : GReg) (off : BitVec 16) (f : LineFound)
  /-- LWF (R226). -/
  | lwf (e : EngineId) (fd rs1 : GReg) (off : BitVec 16) (f : LineFound)
  /-- SB (R226). -/
  | sb (e : EngineId) (rs2 rs1 : GReg) (off : BitVec 16) (f : LineFound)
  /-- SH (R226). -/
  | sh (e : EngineId) (rs2 rs1 : GReg) (off : BitVec 16) (f : LineFound)
  /-- SW (R226, R209). -/
  | sw (e : EngineId) (rs2 rs1 : GReg) (off : BitVec 16) (f : LineFound)
  /-- SWF (R226). -/
  | swf (e : EngineId) (fs2 rs1 : GReg) (off : BitVec 16) (f : LineFound)
  /-- LR_W (R207, R229). -/
  | lrW (e : EngineId) (rd rs1 : GReg) (f : LineFound)
  /-- SC_W (R207, R229). -/
  | scW (e : EngineId) (rd rs1 rs2 : GReg) (f : LineFound)
  /-- BEQ (R228). -/
  | beq (e : EngineId) (rs1 rs2 : GReg) (off : BitVec 16)
  /-- BNE (R228). -/
  | bne (e : EngineId) (rs1 rs2 : GReg) (off : BitVec 16)
  /-- BLT (R228). -/
  | blt (e : EngineId) (rs1 rs2 : GReg) (off : BitVec 16)
  /-- BGE (R228). -/
  | bge (e : EngineId) (rs1 rs2 : GReg) (off : BitVec 16)
  /-- BLTU (R228). -/
  | bltu (e : EngineId) (rs1 rs2 : GReg) (off : BitVec 16)
  /-- BGEU (R228). -/
  | bgeu (e : EngineId) (rs1 rs2 : GReg) (off : BitVec 16)
  /-- JAL (R228). -/
  | jal (e : EngineId) (off : BitVec 26)
  /-- J (R228). -/
  | j (e : EngineId) (off : BitVec 26)
  /-- JALR (R228). -/
  | jalr (e : EngineId) (rd rs1 : GReg) (v : BitVec 16)
  /-- MFCR (R219, R230). -/
  | mfcr (e : EngineId) (rd : GReg) (c : CReg)
  /-- MTCR (R219, R230). -/
  | mtcr (e : EngineId) (c : CReg) (rs1 : GReg)
  /-- MTCRM (R230). -/
  | mtcrm (e : EngineId) (c : CReg) (rs1 gm : GReg)
  /-- SYNC (R235). -/
  | sync (e : EngineId)
  /-- ISYNC (R230). -/
  | isync (e : EngineId)
  /-- DWB (R230). -/
  | dwb (e : EngineId) (rs1 : GReg)
  /-- DINV (R230). -/
  | dinv (e : EngineId) (rs1 : GReg)
  /-- DWBI (R230). -/
  | dwbi (e : EngineId) (rs1 : GReg)
  /-- IINV (R230). -/
  | iinv (e : EngineId)
  /-- SYS (R232). -/
  | sys (e : EngineId)
  /-- BRK (R232, R461). -/
  | brk (e : EngineId)
  /-- TRET (R230, R459). -/
  | tret (e : EngineId)
  /-- IDLE (R231). -/
  | idle (e : EngineId)
  /-- NQ_REQUEST (R251, R28, R131, R246). -/
  | nqRequest (r : RegionId) (q : FabReq)
  /-- PACKET_INJECT (R241, R245, R246). -/
  | packetInject (r : RegionId)
  /-- ROUTER_FORWARD (R241, R242, R248, R250). -/
  | routerForward (n : RegionId) (response : Bool)
  /-- RESPONSE_RECEIVE (R47, R242, R244, R248, R249, R259, R393). -/
  | responseReceive (n : RegionId)
  /-- REQUEST_TIMEOUT (R244). -/
  | requestTimeout (r : RegionId) (tag : Fin 32)
  /-- BUSY_RETRY (R239). -/
  | busyRetry (r : RegionId) (tag : Fin 32)
  /-- WAYMARK_FLIP (R243). -/
  | waymarkFlip (r : RegionId) (e : Fin 64)
  /-- PORT_DISABLE (R250). -/
  | portDisable (r : RegionId) (dis : BitVec 7)
  /-- MSG_RECEIVE (R249, R251). -/
  | msgReceive (r : RegionId)
  /-- NT_TAKE (R251). -/
  | ntTake (r : RegionId)
  /-- NT_RESPONSE (R251, R131). -/
  | ntResponse (r : RegionId) (id : Fin 8) (err : Bool) (data : List Byte)
  /-- DOMAIN_DRAIN_DONE (R248, R171, R389). -/
  | domainDrainDone (k : Fin 79)
  /-- PCIE_LINK_UP (R253, R254). -/
  | pcieLinkUp (width : Fin 4) (rate : Fin 5) (code : Fin 64) (lanes : Vector (Fin 16 × BitVec 16) 8)
  /-- CONFIG_REQUEST (R254, R255). -/
  | configRequest (w : CfgReq)
  /-- PERST (R255, R398). -/
  | perst (asserted : Bool)
  /-- HOT_RESET (R255). -/
  | hotReset
  /-- LINK_DOWN (R255). -/
  | linkDown
  /-- FUNCTION_LEVEL_RESET (R255). -/
  | functionLevelReset
  /-- BAR0_ACCESS (R38, R256). -/
  | bar0Access (off : BitVec 22) (n : Nat) (contiguous : Bool) (write : Option (List Word)) (fs : List LineFound)
  /-- BAR2_ACCESS (R257, R32, R33). -/
  | bar2Access (a : BitVec 40) (n : Nat) (write : Option (List (Option Byte)))
  /-- BAR_INTERNAL_TIMEOUT (R259). -/
  | barInternalTimeout (id : Nat)
  /-- HOST_COMPLETION (R261, R30). -/
  | hostCompletion (tag : Nat) (data : Option (List Byte))
  /-- HOST_COMPLETION_TIMEOUT (R261). -/
  | hostCompletionTimeout (tag : Nat)
  /-- QUEUE_ENABLE (R263). -/
  | queueEnable
  /-- QUEUE_DISABLE (R274). -/
  | queueDisable
  /-- QUIESCED (R274, R275). -/
  | quiesced
  /-- SQ_TAIL_DOORBELL (R264). -/
  | sqTailDoorbell (q : QueueId) (v : Word)
  /-- CQ_HEAD_DOORBELL (R267). -/
  | cqHeadDoorbell (q : QueueId) (v : Word)
  /-- RING_HEAD_DOORBELL (R276). -/
  | ringHeadDoorbell (r : RingId) (v : Word)
  /-- COMMAND_FETCH (R265, R266, R267). -/
  | commandFetch (q : QueueId) (entry : Option (Vector Byte 64))
  /-- COMPLETION_POST (R262, R267, R273). -/
  | completionPost (q : QueueId) (ok : Bool)
  /-- COALESCE_TIMEOUT (R273). -/
  | coalesceTimeout (w : QueueId ⊕ RingId)
  /-- NOP (R267). -/
  | nop (q : QueueId) (cid : BitVec 16)
  /-- CREATE_QUEUE (R263, R266). -/
  | createQueue (q : QueueId) (cid : BitVec 16)
  /-- DELETE_QUEUE (R267). -/
  | deleteQueue (q : QueueId) (cid : BitVec 16)
  /-- IDENTIFY (R267). -/
  | identify (q : QueueId) (cid : BitVec 16)
  /-- FETCH (R109, R270). -/
  | fetch (q : QueueId) (cid : BitVec 16)
  /-- SCHEDULE (R102). -/
  | schedule (q : QueueId) (cid : BitVec 16)
  /-- SWITCH (R95). -/
  | switch (q : QueueId) (cid : BitVec 16)
  /-- WRITE (R268). -/
  | write (q : QueueId) (cid : BitVec 16) (data : Option (List Byte)) (fs : List LineFound)
  /-- READ (R268). -/
  | read (q : QueueId) (cid : BitVec 16) (fs : List LineFound)
  /-- ENGINE (R189, R190, R270). -/
  | engine (q : QueueId) (cid : BitVec 16)
  /-- ATTEST (R436, R437, R438). -/
  | attest (q : QueueId) (cid : BitVec 16)
  /-- SELFTEST (R473, R270, R487). -/
  | selftest (q : QueueId) (cid : BitVec 16)
  /-- CAL_READ (R489). -/
  | calRead (q : QueueId) (cid : BitVec 16)
  /-- CAL_WRITE (R489). -/
  | calWrite (q : QueueId) (cid : BitVec 16) (data : Option (List Byte))
  /-- POWER (R391, R397). -/
  | power (q : QueueId) (cid : BitVec 16)
  /-- LINK_ENABLE (R280, R302). -/
  | linkEnable (p : PortId) (en : Bool)
  /-- LINK_RETRAIN (R280). -/
  | linkRetrain (p : PortId)
  /-- PORT_ALIGN (R303, R309). -/
  | portAlign (p : PortId) (found : Vector (Fin 4 × Fin 32) 4)
  /-- PORT_PARAM (R280). -/
  | portParam (p : PortId) (dev : Fin 16384) (port : Fin 16) (encReq : Bool)
  /-- REQ_FRAME (R288, R289). -/
  | reqFrame (p : PortId) (f : Frame) (a : Option Ack) (x : Received)
  /-- RSP_FRAME (R287). -/
  | rspFrame (p : PortId) (f : Frame) (a : Option Ack) (x : Received)
  /-- EVENT_FRAME (R248, R288). -/
  | eventFrame (p : PortId) (f : Frame) (a : Option Ack) (x : Received)
  /-- LINK_FRAME (R281). -/
  | linkFrame (p : PortId) (a : Ack)
  /-- FRAME_TRANSIT (R282, R283). -/
  | frameTransit (p : PortId) (f : Frame) (a : Option Ack) (x : Received)
  /-- REPLAY_TIMEOUT (R281). -/
  | replayTimeout (p : PortId)
  /-- E2E_TIMEOUT (R30, R287). -/
  | e2eTimeout (p : PortId) (etag : Fin 4096)
  /-- TIME_FRAME_SEND (R290). -/
  | timeFrameSend (p : PortId)
  /-- TIME_FRAME (R290, R291). -/
  | timeFrame (p : PortId) (ans : Option (Nat × Nat))
  /-- KEY_FRAME (R294, R295, R443). -/
  | keyFrame (p : PortId) (bs : List Byte) (a : Option Ack) (x : Received)
  /-- LOAD_FRAME (R151, R286). -/
  | loadFrame (p : PortId) (bs : List Byte) (a : Option Ack) (x : Received)
  /-- REKEY_THRESHOLD (R295). -/
  | rekeyThreshold (p : PortId)
  /-- REKEY_TIMEOUT (R295). -/
  | rekeyTimeout (p : PortId)
  /-- LINK_WAYMARK_FLIP (R284). -/
  | linkWaymarkFlip (member : Bool) (e : Fin 128)
  /-- PROXY_DOORBELL (R298). -/
  | proxyDoorbell (ix : Fin 68) (v : Word)
  /-- PLL_LOCK (R303). -/
  | pllLock (l : LaneId)
  /-- BLOCK_LOCK (R303, R305). -/
  | blockLock (l : LaneId)
  /-- ADAPT_DONE (R303, R307, R310, R314). -/
  | adaptDone (l : LaneId) (x : Adapted)
  /-- PEER_READY (R303). -/
  | peerReady (l : LaneId) (us : Word)
  /-- TRAIN_TIMEOUT (R304). -/
  | trainTimeout (l : LaneId)
  /-- TRAINING_RX (R304). -/
  | trainingRx (l : LaneId)
  /-- LOCK_LOST (R305). -/
  | lockLost (l : LaneId)
  /-- RELOCK_TIMEOUT (R305). -/
  | relockTimeout (l : LaneId)
  /-- PLL_UNLOCK (R305). -/
  | pllUnlock (l : LaneId)
  /-- REF_LOST (R305). -/
  | refLost (g : Fin 4)
  /-- REF_RETURN (R305). -/
  | refReturn (g : Fin 4)
  /-- EBUF_RECENTER (R308). -/
  | ebufRecenter (l : LaneId)
  /-- TXEQ_WRITE (R306). -/
  | txeqWrite (l : LaneId) (pre : Fin 16) (main : Fin 64) (post : Fin 32)
  /-- EYE_SCAN (R310). -/
  | eyeScan (l : LaneId) (width : Fin 65) (height : Fin 1024)
  /-- LANE_TEST_WRITE (R311, R312). -/
  | laneTestWrite (l : LaneId) (loop : Fin 4) (gen chk : Fin 8)
  /-- PRBS_INJECT (R311). -/
  | prbsInject (l : LaneId)
  /-- PRBS_CLEAR (R311). -/
  | prbsClear (l : LaneId)
  /-- ETHSEL_WRITE (R313). -/
  | ethselWrite (eth : Bool)
  /-- EXT_READ (R325, R328, R333 to R336). -/
  | extRead (c : ChanId) (f : LineFound)
  /-- EXT_FULL_WRITE (R323, R324, R326, R327, R331). -/
  | extFullWrite (c : ChanId) (f : LineFound)
  /-- EXT_PARTIAL_WRITE (R326, R334, R335). -/
  | extPartialWrite (c : ChanId) (f : LineFound)
  /-- RAMBLE_START (R330). -/
  | rambleStart (k : Fin 32)
  /-- RAMBLE_PAGE (R329, R330, R332). -/
  | ramblePage (bad : List (Fin 64))
  /-- RAMBLE_DONE (R330, R331). -/
  | rambleDone
  /-- RAMBLE_FORCE (R332). -/
  | rambleForce (k : Fin 32)
  /-- CRY_MODE_WRITE (R319, R320). -/
  | cryModeWrite (who : Who) (m0 m1 : Fin 4)
  /-- SWEEP_PAGE (R333). -/
  | sweepPage (c : ChanId)
  /-- SWEEP_DONE (R333). -/
  | sweepDone (c : ChanId)
  /-- PLOG_FREE (R336). -/
  | plogFree (c : ChanId) (sel : Fin 16)
  /-- COUNTER_CACHE_FLUSH (R328). -/
  | counterCacheFlush
  /-- LOST_LOG_FREE (R328). -/
  | lostLogFree (sel : Fin 16)
  /-- CHANNEL_TRAINED (R316, R339). -/
  | channelTrained (c : ChanId) (mib m1 m2 m3 : Nat)
  /-- VCCIO_BAD (R343). -/
  | vccioBad (b : BankId) (measured : Fin 8)
  /-- VCCIO_GOOD (R343, R345). -/
  | vccioGood (b : BankId) (measured : Fin 8) (worst : Byte)
  /-- DELAY_WRITE (R346). -/
  | delayWrite (b : BankId) (tap : Fin 512)
  /-- DELAY_REACHED (R346). -/
  | delayReached (b : BankId) (pin : Fin 48)
  /-- SER_TX_PUSH (R351). -/
  | serTxPush (p : SerialId) (w : Word)
  /-- SER_RX_POP (R351). -/
  | serRxPop (who : Who) (p : SerialId)
  /-- UART_RX_CHAR (R349, R351). -/
  | uartRxChar (p : SerialId) (v : BitVec 9) (framing parity brk : Bool)
  /-- UART_TX_CHAR (R349). -/
  | uartTxChar (p : SerialId) (ctsN : Bool)
  /-- SPI_WORD (R350). -/
  | spiWord (p : SerialId) (miso : Word)
  /-- MB_TRANSACTION (R352). -/
  | mbTransaction (m : Fin 4) (addr : Fin 128) (wlen rlen : Fin 8)
  /-- MB_DONE (R352, R353). -/
  | mbDone (m : Fin 4) (result : Fin 4) (data : List Byte)
  /-- MB_TIMEOUT (R353). -/
  | mbTimeout (m : Fin 4)
  /-- ETH_ENABLE (R301, R302, R355). -/
  | ethEnable (m : MacId) (en : Bool) (rate : Fin 4)
  /-- ETH_RX_FRAME (R355, R357). -/
  | ethRxFrame (m : MacId) (bs : List Byte) (fcsOk : Bool)
  /-- ETH_TX_FRAME (R357 to R359). -/
  | ethTxFrame (m : MacId)
  /-- GCL_CHANGE (R358). -/
  | gclChange (m : MacId)
  /-- GCL_SWITCH (R358). -/
  | gclSwitch (m : MacId)
  /-- GCL_ENTRY (R358). -/
  | gclEntry (m : MacId)
  /-- FLASH_PROGRAM (R361). -/
  | flashProgram (who : Who)
  /-- FLASH_ERASE (R361). -/
  | flashErase (who : Who)
  /-- FLASH_OP_DONE (R361, R362). -/
  | flashOpDone (us : Word) (failed : Bool)
  /-- PLL_RELOCK (R363). -/
  | pllRelock
  /-- ROOT_PLL_LOCK (R363). -/
  | rootPllLock
  /-- DIVIDER_WRITE (R365). -/
  | dividerWrite (t : Fin 4) (n : Fin 1024)
  /-- CLOCK_SWITCH (R374). -/
  | clockSwitch (g : Fin 5) (oscf : Bool)
  /-- CLOCK_SWITCH_DONE (R374). -/
  | clockSwitchDone (g : Fin 5)
  /-- MONITOR_TRIP (R369, R370, R371, R375). -/
  | monitorTrip (kroot : Bool) (count : Byte)
  /-- FORCED_SWITCH (R370, R373). -/
  | forcedSwitch
  /-- OSC_F_TRIP (R366, R371). -/
  | oscFTrip (count : Byte)
  /-- OSC_F_READY (R366, R371). -/
  | oscFReady (oscs : Word)
  /-- FATAL_CLOCK (R371, R372, R411). -/
  | fatalClock
  /-- OSC_F_RESTART (R366). -/
  | oscFRestart
  /-- OSC_F_TRIM (R367). -/
  | oscFTrim (present : Bool) (code : Fin 4096) (residual : BitVec 16)
  /-- FAIL_RECORD_CLEAR (R373). -/
  | failRecordClear
  /-- DEVTIME_SNAPSHOT (R376, R381). -/
  | devtimeSnapshot
  /-- TIME_ADJ_WRITE (R379). -/
  | timeAdjWrite (v : Word)
  /-- TIME_STEP (R380). -/
  | timeStep (absolute : Bool)
  /-- TIME_HOLD_DONE (R380). -/
  | timeHoldDone
  /-- POWER_GOOD (R385, R398). -/
  | powerGood (us : Word)
  /-- SEQUENCE_ENTRY (R385). -/
  | sequenceEntry
  /-- SEQUENCE_FAULT (R386). -/
  | sequenceFault (cause : Fin 4)
  /-- PMB_ALERT (R387). -/
  | pmbAlert (status : Vector (BitVec 16) 8)
  /-- PMBUS_TRANSACTION (R387). -/
  | pmbusTransaction (addr : Fin 128) (cmd : Byte) (wlen rlen : Fin 8)
  /-- PMBUS_DONE (R387). -/
  | pmbusDone (result : Fin 6) (data : List Byte)
  /-- RAIL_EXCURSION (R388). -/
  | railExcursion (ix : Fin 9) (mv : BitVec 16)
  /-- P4_ENTRY (R388, R399). -/
  | p4Entry
  /-- DOMAIN_CONTROL (R390). -/
  | domainControl (v : BitVec 15)
  /-- DOMAIN_RAMP_DONE (R389, R396, R170, R187). -/
  | domainRampDone (k : Fin 79) (us : Nat)
  /-- REGION_POWER_REQUEST (R391, R392, R394). -/
  | regionPowerRequest (r : RegionId) (st : Fin 4)
  /-- NAP_ENTRY (R392, R347). -/
  | napEntry (r : RegionId)
  /-- REBUILD (R396, R155). -/
  | rebuild (r : RegionId) (slot : SlotId)
  /-- P3_REQUEST (R397). -/
  | p3Request (p3Stop : Bool)
  /-- P3_REACHED (R397). -/
  | p3Reached
  /-- WAKE (R398). -/
  | wake
  /-- RECORD_SAVE_DONE (R400, R401). -/
  | recordSaveDone
  /-- HALF_CYCLE_RMS (R402, R403). -/
  | halfCycleRms (v ix : Vector (BitVec 32) 3) (mHz : BitVec 17)
  /-- HOLDUP_FIT (R404, R403). -/
  | holdupFit (dc : BitVec 16) (slope : Int)
  /-- SUPPLY_WARN (R405, R26). -/
  | supplyWarn
  /-- INTERRUPTION_TIMEOUT (R405). -/
  | interruptionTimeout
  /-- WARNING_CLEAR (R405, R27, R398). -/
  | warningClear
  /-- FORBID_RELEASE (R405, R114). -/
  | forbidRelease
  /-- SENTINEL_ENABLE (R405). -/
  | sentinelEnable (en : Bool)
  /-- POR_RELEASE (R410, R411, R377, R419). -/
  | porRelease (ioPull noImg pcieEn : Bool)
  /-- STARTUP_STEP_DONE (R411 to R417, R422). -/
  | startupStepDone (e : StepEnd)
  /-- REFCLK_ARRIVAL (R412). -/
  | refclkArrival
  /-- READY (R421, R416, R431, R444). -/
  | ready
  /-- RESET_N (R420, R386, R372). -/
  | resetN
  /-- LC_REQUEST (R426, R427). -/
  | lcRequest (target : Fin 4) (fs : List LineFound)
  /-- TOKEN_DATA (R439). -/
  | tokenData (w : Word)
  /-- TOKEN_SUBMIT (R439). -/
  | tokenSubmit
  /-- TOKEN_CHECKED (R439, R440, R426). -/
  | tokenChecked
  /-- TOKEN_FLUSH (R439). -/
  | tokenFlush
  /-- SESSION_END (R440, R469). -/
  | sessionEnd
  /-- SESSION_EXPIRY (R440, R469). -/
  | sessionExpiry
  /-- NEW_NONCE (R440). -/
  | newNonce
  /-- MEASSEL_WRITE (R434). -/
  | measselWrite (ix : Fin 16)
  /-- EXTEND (R435). -/
  | extend (slot : Fin 16) (fs : List LineFound)
  /-- ATTEST_REQUEST (R436, R437). -/
  | attestRequest (who : Who) (dev : BitVec 14) (fs : List LineFound)
  /-- ATTEST_DONE (R438). -/
  | attestDone (fs : List LineFound)
  /-- ROLLBACK_COMMIT (R432). -/
  | rollbackCommit (slot : Fin 16)
  /-- STW_WDT_KICK (R445). -/
  | stwWdtKick (key : BitVec 16)
  /-- PRE_BITE (R445). -/
  | preBite
  /-- WATCHDOG_BITE (R445, R420). -/
  | watchdogBite
  /-- SCRUB_STORE_CHECK (R446). -/
  | scrubStoreCheck (northOk southOk : Bool)
  /-- SCRUB_RELOAD_DONE (R446). -/
  | scrubReloadDone (golden : Bool)
  /-- SEAL (R444). -/
  | seal (who : Who) (src dst : List LineFound)
  /-- UNSEAL (R444, R322). -/
  | unseal (who : Who) (src dst : List LineFound)
  /-- DERIVE (R444, R322). -/
  | derive (who : Who) (dst : List LineFound)
  /-- STEWARD_SLOT_UPDATE (R431, R444). -/
  | stewardSlotUpdate (who : Who) (src : List LineFound)
  /-- SERVICE_DONE (R444). -/
  | serviceDone (us : Word)
  /-- DEBUG_FRAME (R449, R450, R452). -/
  | debugFrame (h : BitVec 16) (w : Word) (crc : BitVec 8)
  /-- RESYNC (R451). -/
  | resync
  /-- DK_DATA_READ (R453). -/
  | dkDataRead
  /-- DK_DATA_WRITE (R453). -/
  | dkDataWrite (w : Word)
  /-- DEBUG_ACCESS_DONE (R453 to R457, R47). -/
  | debugAccessDone (fs : List LineFound)
  /-- DK_CANCEL (R453). -/
  | dkCancel
  /-- ERROR_HOLD_CLEAR (R454). -/
  | errorHoldClear
  /-- DEBUG_WAKE (R457). -/
  | debugWake
  /-- ENGINE_HALT (R458). -/
  | engineHalt (e : EngineId)
  /-- ENGINE_RESUME (R461). -/
  | engineResume (e : EngineId)
  /-- ENGINE_STEP (R461). -/
  | engineStep (e : EngineId) (code data : LineFound)
  /-- ENGREG_ACCESS (R462). -/
  | engregAccess (write : Option Word)
  /-- LIVE_INTERRUPT (R459, R213). -/
  | liveInterrupt (e : EngineId)
  /-- REGION_HALT (R465, R87). -/
  | regionHalt (r : RegionId)
  /-- REGION_RESUME (R465). -/
  | regionResume (r : RegionId)
  /-- SNAPSHOT (R467). -/
  | snapshot (r : RegionId) (bram : Bool)
  /-- SNAPSHOT_DONE (R467, R468). -/
  | snapshotDone (writeFailed : Bool)
  /-- VT_OUT_WRITE (R466). -/
  | vtOutWrite (who : Who) (b : Byte)
  /-- VT_OUT_CONSUME (R466). -/
  | vtOutConsume
  /-- VT_IN_WRITE (R466). -/
  | vtInWrite (b : Byte)
  /-- VT_IN_READ (R466). -/
  | vtInRead (who : Who)
  /-- VAULT_SLICE_TEST (R477, R183). -/
  | vaultSliceTest (v : VaultId)
  /-- VAULT_SWEEP (R477). -/
  | vaultSweep (v : VaultId) (next : Bool)
  /-- REGION_TEST (R480, R481). -/
  | regionTest (r : RegionId)
  /-- QUIET_EDGE (R481). -/
  | quietEdge (r : RegionId)
  /-- ENGINE_TEST (R478). -/
  | engineTest (e : EngineId)
  /-- THERMOS_TEST (R479). -/
  | thermosTest
  /-- EXT_MEMORY_TEST (R475, R320, R487). -/
  | extMemoryTest (c : ChanId)
  /-- WHOLE_VAULT_TEST (R475). -/
  | wholeVaultTest (v : VaultId)
  /-- LANE_TEST (R487, R312). -/
  | laneTest (l : LaneId)
  /-- IO_RECALIBRATION (R490). -/
  | ioRecalibration (b : BankId)
  /-- SENTINEL_RECALIBRATION (R490). -/
  | sentinelRecalibration
  /-- RETENTION_PAUSE_END (R474). -/
  | retentionPauseEnd (ix : Fin 4)
  /-- TEST_DONE (R476). -/
  | testDone (ix : Fin 4) (x : TestEnd)
  /-- EXPECTED_CLEAR (R485). -/
  | expectedClear
  /-- SCAN_ENTER (R486, R442). -/
  | scanEnter (who : Who)
  /-- SCAN_SHIFT (R486). -/
  | scanShift (w : Word)
  /-- BORDER_COMMIT_BUFFER_DRAIN (R127 to R129, R133). -/
  | borderCommitBufferDrain (r : RegionId) (lines : Nat)
  /-- WRITE_LOG_FULL (R130, R133). -/
  | writeLogFull (r : RegionId) (writes : List BramWrite)
  /-- ILLEGAL_INSTRUCTION (R221, R232, R233). -/
  | illegalInstruction (e : EngineId) (w : Word)
  /-- INSTRUCTION_FETCH_FAULT (R199, R201, R214, R232). -/
  | instructionFetchFault (e : EngineId) (f : FetchFault)
  /-- TOKEN_BUCKET_REFILL (R245). -/
  | tokenBucketRefill (r : RegionId)
  /-- ETH_CLIENT_RX_BEAT (R356). -/
  | ethClientRxBeat (m : MacId)
  /-- ETH_CLIENT_TX_BEAT (R355, R356). -/
  | ethClientTxBeat (m : MacId) (data : List Byte) (sop eop : Bool) (q : Fin 8) (ts : Option (Fin 256))
  /-- MSIX_VECTOR_MASK_WRITE (R273). -/
  | msixVectorMaskWrite (vec : Fin 256) (masked : Bool)
  /-- STEERING_MODE_CHANGE (R378, R379). -/
  | steeringModeChange (w : Bool ⊕ (Bool × Fin 16))
  /-- COLD_START (R385, R399, R410). -/
  | coldStart (pwrSeq : Bool)
  /-- FIXED_WINDOW_RMS (R402). -/
  | fixedWindowRms (v ix : Vector (BitVec 32) 3)
  /-- ENERGY_SAMPLE (R408). -/
  | energySample (x : Vector (BitVec 16 × BitVec 32) 8)
  /-- JUNCTION_TEMPERATURE_WARNING (R505, R408). -/
  | junctionTemperatureWarning (t : Vector Byte 5)
  /-- REFRESH_RATE_CODE_RISE (R340). -/
  | refreshRateCodeRise (c : ChanId) (code : Fin 8)
deriving DecidableEq, Repr

end Sys2Proof
end

