-- ==== Sys2Proof/Decode.lean ====
section
/-!
DEFINITION. Words that spell something. The command table gives no row any bits, so no word spells a command of the
block (`decodeTableWord`). The engines of the part have an instruction set of their own, KE32 (09): its words decode
here, by name and with every reserved field checked, and an encoder stands beside the decoder.
-/

namespace Sys2Proof

/-- The command a word spells by the bits of the command table: the table gives its rows no bits. -/
def decodeTableWord (_nbits _w : Nat) : Option Instr := none

/-! ### KE32: tables of codes (09, R219, R221, Opcode map and instruction tables) -/

def AluOp.code : AluOp → Nat
  | .add => 0x000 | .sub => 0x001 | .and => 0x002 | .or => 0x003 | .xor => 0x004 | .shl => 0x005 | .shr => 0x006
  | .sar => 0x007 | .lt => 0x008 | .ltu => 0x009 | .mul => 0x010 | .mulhs => 0x011 | .mulhu => 0x012 | .div => 0x014
  | .divu => 0x015 | .rem => 0x016 | .remu => 0x017

def aluOpOf : Nat → Option AluOp
  | 0x000 => some .add | 0x001 => some .sub | 0x002 => some .and | 0x003 => some .or | 0x004 => some .xor
  | 0x005 => some .shl | 0x006 => some .shr | 0x007 => some .sar | 0x008 => some .lt | 0x009 => some .ltu
  | 0x010 => some .mul | 0x011 => some .mulhs | 0x012 => some .mulhu | 0x014 => some .div | 0x015 => some .divu
  | 0x016 => some .rem | 0x017 => some .remu | _ => none

def ImmOp.code : ImmOp → Nat
  | .addi => 0x08 | .andi => 0x09 | .ori => 0x0A | .xori => 0x0B | .lti => 0x0C | .ltiu => 0x0D

def immOpOf : Nat → Option ImmOp
  | 0x08 => some .addi | 0x09 => some .andi | 0x0A => some .ori | 0x0B => some .xori | 0x0C => some .lti
  | 0x0D => some .ltiu | _ => none

def ShiftOp.code : ShiftOp → Nat
  | .shli => 0 | .shri => 1 | .sari => 2

def shiftOpOf : Nat → Option ShiftOp
  | 0 => some .shli | 1 => some .shri | 2 => some .sari | _ => none

def Fp2Op.code : Fp2Op → Nat
  | .fadd => 0x000 | .fsub => 0x001 | .fmul => 0x002 | .fdiv => 0x003 | .fmin => 0x005 | .fmax => 0x006
  | .fcsgn => 0x008 | .fnsgn => 0x009 | .fxsgn => 0x00A | .fceq => 0x010 | .fclt => 0x011 | .fcle => 0x012 | .fcun => 0x013

def fp2OpOf : Nat → Option Fp2Op
  | 0x000 => some .fadd | 0x001 => some .fsub | 0x002 => some .fmul | 0x003 => some .fdiv | 0x005 => some .fmin
  | 0x006 => some .fmax | 0x008 => some .fcsgn | 0x009 => some .fnsgn | 0x00A => some .fxsgn | 0x010 => some .fceq
  | 0x011 => some .fclt | 0x012 => some .fcle | 0x013 => some .fcun | _ => none

def Fp1Op.code : Fp1Op → Nat
  | .fsqrt => 0x004 | .ftoi => 0x018 | .ftou => 0x019 | .itof => 0x01A | .utof => 0x01B | .fmvg => 0x01C
  | .fmvf => 0x01D | .fkind => 0x01E

def fp1OpOf : Nat → Option Fp1Op
  | 0x004 => some .fsqrt | 0x018 => some .ftoi | 0x019 => some .ftou | 0x01A => some .itof | 0x01B => some .utof
  | 0x01C => some .fmvg | 0x01D => some .fmvf | 0x01E => some .fkind | _ => none

def LoadOp.code : LoadOp → Nat
  | .lb => 0x10 | .lbu => 0x11 | .lh => 0x12 | .lhu => 0x13 | .lw => 0x14 | .lwf => 0x15

def loadOpOf : Nat → Option LoadOp
  | 0x10 => some .lb | 0x11 => some .lbu | 0x12 => some .lh | 0x13 => some .lhu | 0x14 => some .lw | 0x15 => some .lwf
  | _ => none

def StoreOp.code : StoreOp → Nat
  | .sb => 0x18 | .sh => 0x19 | .sw => 0x1A | .swf => 0x1B

def storeOpOf : Nat → Option StoreOp
  | 0x18 => some .sb | 0x19 => some .sh | 0x1A => some .sw | 0x1B => some .swf | _ => none

def BranchOp.code : BranchOp → Nat
  | .beq => 0x20 | .bne => 0x21 | .blt => 0x22 | .bge => 0x23 | .bltu => 0x24 | .bgeu => 0x25

def branchOpOf : Nat → Option BranchOp
  | 0x20 => some .beq | 0x21 => some .bne | 0x22 => some .blt | 0x23 => some .bge | 0x24 => some .bltu | 0x25 => some .bgeu
  | _ => none

def CReg.code : CReg → Nat
  | .estat => 0 | .ecause => 1 | .epc => 2 | .eaddr => 3 | .evbase => 4 | .ctxid => 5 | .fstat => 6
  | .winA x => 0x10 + 2 * x.val
  | .winB x => 0x11 + 2 * x.val

/-- The control register of a number; any other number is unassigned (R219). -/
def cregOf (n : Nat) : Option CReg :=
  match n with
  | 0 => some .estat | 1 => some .ecause | 2 => some .epc | 3 => some .eaddr | 4 => some .evbase | 5 => some .ctxid
  | 6 => some .fstat
  | n =>
    if 0x10 ≤ n ∧ n < 0x30 then
      (if n % 2 = 0 then some (.winA (Fin.ofNat 16 ((n - 0x10) / 2))) else some (.winB (Fin.ofNat 16 ((n - 0x10) / 2))))
    else none

/-- The two read-only control registers, which no instruction writes (R219). -/
def CReg.readOnly : CReg → Bool
  | .ecause | .eaddr => true
  | _ => false

def Sys0Op.code : Sys0Op → Nat
  | .sync => 3 | .isync => 4 | .iinv => 8 | .sys => 9 | .brk => 10 | .tret => 11 | .idle => 12

def sys0OpOf : Nat → Option Sys0Op
  | 3 => some .sync | 4 => some .isync | 8 => some .iinv | 9 => some .sys | 10 => some .brk | 11 => some .tret
  | 12 => some .idle | _ => none

def CacheOp.code : CacheOp → Nat
  | .dwb => 5 | .dinv => 6 | .dwbi => 7

def cacheOpOf : Nat → Option CacheOp
  | 5 => some .dwb | 6 => some .dinv | 7 => some .dwbi | _ => none

/-! ### KE32: decoding (R221, R223, R230) -/

/-- A register number from a field. -/
def greg (n : Nat) : GReg := Fin.ofNat 32 n

/-- A word in format A: funct11, with the three register fields. -/
def decodeA (major rd rs1 rs2 f : Nat) : Option K32 :=
  if major = 0x00 then (aluOpOf f).map fun op => .alu op (greg rd) (greg rs1) (greg rs2)
  else if major = 0x01 then
    match fp2OpOf f, fp1OpOf f with
    | some op, _ => some (.fp2 op (greg rd) (greg rs1) (greg rs2))
    | none, some op => if rs2 = 0 then some (.fp1 op (greg rd) (greg rs1)) else none
    | none, none => none
  else if f = 0 then (if rs2 = 0 then some (.lrw (greg rd) (greg rs1)) else none)
  else if f = 1 then some (.scw (greg rd) (greg rs1) (greg rs2))
  else none

/-- A word in format I, M or B: two register fields and sixteen bits. -/
def decodeI (major a b imm : Nat) : Option K32 :=
  let v := BitVec.ofNat 16 imm
  match immOpOf major, loadOpOf major, storeOpOf major, branchOpOf major with
  | some op, _, _, _ => some (.imm op (greg a) (greg b) v)
  | _, some op, _, _ => some (.load op (greg a) (greg b) v)
  | _, _, some op, _ => some (.store op (greg a) (greg b) v)
  | _, _, _, some op => some (.branch op (greg a) (greg b) v)
  | none, none, none, none =>
    if major = 0x0E then
      (if imm / 128 = 0 then (shiftOpOf (imm / 32)).map fun op => .shift op (greg a) (greg b) (Fin.ofNat 32 imm) else none)
    else if major = 0x0F then (if b = 0 then some (.lui (greg a) v) else none)
    else if major = 0x2A then some (.jalr (greg a) (greg b) v)
    else none

/-- A word in format S: rd, rs1, funct4 and cr (R230). -/
def decodeS (rd rs1 f cr : Nat) : Option K32 :=
  if f = 0 then (if rs1 = 0 then (cregOf cr).map fun c => .mfcr (greg rd) c else none)
  else if f = 1 then
    (match cregOf cr with
      | some c => if rd = 0 ∧ c.readOnly = false then some (.mtcr c (greg rs1)) else none
      | none => none)
  else if f = 2 then
    (match cregOf cr with
      | some c => if c.readOnly = false then some (.mtcrm c (greg rs1) (greg rd)) else none
      | none => none)
  else if cr ≠ 0 ∨ rd ≠ 0 then none
  else
    match cacheOpOf f, sys0OpOf f with
    | some op, _ => some (.cache op (greg rs1))
    | none, some op => if rs1 = 0 then some (.sys0 op) else none
    | none, none => none

/-- The instruction of a word; none where it is illegal (R221). -/
def decodeKE32 (w : Word) : Option K32 :=
  let n := w.toNat
  let major := n / 2 ^ 26
  let a := n / 2 ^ 21 % 32
  let b := n / 2 ^ 16 % 32
  if major = 0x00 ∨ major = 0x01 ∨ major = 0x1C then decodeA major a b (n / 2 ^ 11 % 32) (n % 2 ^ 11)
  else if major = 0x28 then some (.jal (BitVec.ofNat 26 n))
  else if major = 0x29 then some (.j (BitVec.ofNat 26 n))
  else if major = 0x30 then decodeS a b (n / 2 ^ 12 % 16) (n % 2 ^ 12)
  else decodeI major a b (n % 2 ^ 16)

/-! ### KE32: encoding -/

/-- A word from a major opcode, two register fields and the low sixteen bits. -/
def packK (major a b low : Nat) : Word := BitVec.ofNat 32 (major * 2 ^ 26 + a * 2 ^ 21 + b * 2 ^ 16 + low)

/-- The word of an instruction, from the same tables (R221). -/
def encodeKE32 : K32 → Word
  | .alu op rd rs1 rs2 => packK 0x00 rd rs1 (rs2 * 2 ^ 11 + op.code)
  | .imm op rd rs1 v => packK op.code rd rs1 v.toNat
  | .shift op rd rs1 amt => packK 0x0E rd rs1 (op.code * 32 + amt)
  | .lui rd v => packK 0x0F rd 0 v.toNat
  | .fp2 op rd rs1 rs2 => packK 0x01 rd rs1 (rs2 * 2 ^ 11 + op.code)
  | .fp1 op rd rs1 => packK 0x01 rd rs1 op.code
  | .load op rd rs1 off => packK op.code rd rs1 off.toNat
  | .store op rs2 rs1 off => packK op.code rs2 rs1 off.toNat
  | .lrw rd rs1 => packK 0x1C rd rs1 0
  | .scw rd rs1 rs2 => packK 0x1C rd rs1 (rs2 * 2 ^ 11 + 1)
  | .branch op rs1 rs2 off => packK op.code rs1 rs2 off.toNat
  | .jal off => BitVec.ofNat 32 (0x28 * 2 ^ 26 + off.toNat)
  | .j off => BitVec.ofNat 32 (0x29 * 2 ^ 26 + off.toNat)
  | .jalr rd rs1 v => packK 0x2A rd rs1 v.toNat
  | .mfcr rd cr => packK 0x30 rd 0 cr.code
  | .mtcr cr rs1 => packK 0x30 0 rs1 (1 * 2 ^ 12 + cr.code)
  | .mtcrm cr rs1 gm => packK 0x30 gm rs1 (2 * 2 ^ 12 + cr.code)
  | .sys0 op => packK 0x30 0 0 (op.code * 2 ^ 12)
  | .cache op rs1 => packK 0x30 0 rs1 (op.code * 2 ^ 12)

/-- An instruction that a word can spell: it writes no read-only control register. -/
def K32.encodable : K32 → Bool
  | .mtcr cr _ | .mtcrm cr _ _ => !cr.readOnly
  | _ => true

end Sys2Proof
end

