-- ==== Sys2Proof/Config.lean ====
section
/-!
DEFINITION. What an implementation fixes and the free values: constants with no body, so that no proof can see what
they are and a claim about them holds whatever they are. A free value that is new each time is applied to the
counter `Inner.free`, which the step that uses it advances.
-/

namespace Sys2Proof

/-! ### What the configuration cells of a context mean (03)

The spec gives the order of the bits (R143) and what each multiplexer, driver and mode can be; it does not give the codes of
the input selection, control, switch-box, riser and settings bits. `Config.fabric` reads them; what the settings that it
reads do is the model's. -/

/-- A source that a multiplexer of the fabric can select. -/
inductive Net
  | const (b : Bool)
  /-- table output O0 or O1, and flip-flop output Q0 or Q1, of an element (R62) -/
  | out (el : Nat) (second : Bool)
  | ff (el : Nat) (second : Bool)
  /-- an in-tier segment of length 1, 4 or 12 (R63, R76) -/
  | seg (len : Nat) (k : Nat)
  /-- a riser, by its index (R79) -/
  | riser (k : Nat)
  /-- a border input line (R77) -/
  | border (k : Nat)
  /-- a read-data bit, the error output and the collision output of a block RAM port (R70 to R73) -/
  | bram (b : Nat) (port : Nat) (bit : Nat)
  | bramErr (b : Nat) (port : Nat)
  | bramColl (b : Nat) (port : Nat)
  /-- a bit of an arithmetic block's result -/
  | arith (a : Nat) (bit : Nat)
  /-- the input register of a pin of the bank, and its second bit at double data rate (R344) -/
  | pin (k : Nat) (second : Bool)
  /-- signals of the context-select port and of the speculation port, by number: CTX_PENDING, CTX_SWITCHED, CTX_MISS, SPEC_ON,
  SPEC_STALL, SPEC_REFUSED, SPEC_ABORTED, FAB_CLKFAIL; CTX_ACTIVE from 8, CTX_TAG from 16 -/
  | ctl (k : Nat)
  /-- a signal of another port, whose timing is an average -/
  | port (k : Nat)
deriving DecidableEq, Repr, Inhabited

/-- Where the carry into an element comes from: the element below it on its chain, or a constant or its X input for the
first element of a chain (R68). -/
inductive CarryIn | below | const (b : Bool) | x
deriving DecidableEq, Repr, Inhabited

/-- What the data input of a flip-flop takes: a table output, X, or for Q0 the sum (R68). -/
inductive FfData | o0 | o1 | x | sum
deriving DecidableEq, Repr, Inhabited

/-- The modes of one flip-flop of an element: data, clock from the secondary tree, private (R64), local set (else reset) by SR,
the global reset tree it selects (R88). -/
structure FfCfg where
  data : FfData
  secondary : Bool
  priv : Bool
  setBySr : Bool
  rst : Option (Fin 2)
deriving DecidableEq, Repr, Inhabited

/-- One element: split or full table, I0 to I5 in order, X, carry, CE, SR, its flip-flops. -/
structure ElCfg where
  split : Bool
  ins : List Net
  x : Net
  carry : CarryIn
  ce : Net
  sr : Net
  q0 : FfCfg
  q1 : FfCfg
deriving DecidableEq, Repr, Inhabited

/-- The two drivers of a shared riser: enable and source at L0, enable and source at L1 (R80). -/
structure SharedCfg where
  en0 : Bool
  src0 : Net
  en1 : Bool
  src1 : Net
deriving DecidableEq, Repr, Inhabited

/-- A driven border output: its source, whether its cell registers it, whether it is marked buffered (R77, R127). -/
structure BorderCfg where
  src : Net
  registered : Bool
  buffered : Bool
deriving DecidableEq, Repr, Inhabited

/-- Read during write (R72). -/
inductive BramMode | readFirst | writeFirst | noChange
deriving DecidableEq, Repr, Inhabited

/-- One port of a block RAM: clock, enable, write enable, address and data inputs low bit first, mode (R71). -/
structure BramPortCfg where
  secondary : Bool
  en : Net
  writes : Bool
  we : Net
  addr : List Net
  din : List Net
  mode : BramMode
deriving DecidableEq, Repr, Inhabited

/-- A block RAM: the rows of a word (1, 2, 4 or 8), ECC, its ports (R70, R71). -/
structure BramCfg where
  k : Nat
  ecc : Bool
  a : BramPortCfg
  b : BramPortCfg
deriving DecidableEq, Repr, Inhabited

/-- An arithmetic block: inputs low bit first, the C input or the cascade in place of the product, split mode and saturation
(R74), pipeline registers in use, shared accumulator (R75), clock, enable, reset tree (R88). -/
structure ArithCfg where
  a : List Net
  b : List Net
  c : List Net
  useC : Bool
  cascade : Bool
  split : Bool
  saturate : Bool
  stages : Fin 4
  shared : Bool
  secondary : Bool
  ce : Net
  rst : Option (Fin 2)
deriving DecidableEq, Repr, Inhabited

/-- A pin: output enable, the value launched, the second value at double data rate, its clock (R344). -/
structure PinCfg where
  oe : Net
  out : Net
  out2 : Net
  ddr : Bool
  secondary : Bool
deriving DecidableEq, Repr, Inhabited

/-- What the cells of one context say: elements by index, segment drivers, riser drivers, border outputs, block RAMs, arithmetic
blocks, pins, the personality's enable input (R87). -/
structure FabCfg where
  el : Nat → ElCfg
  seg : Nat → Nat → Net
  dedicated : Nat → Net
  shared : Nat → SharedCfg
  border : Nat → Option BorderCfg
  bram : Nat → BramCfg
  arith : Nat → ArithCfg
  pin : Nat → PinCfg
  enable : Net
deriving Inhabited

/-- What drives a global reset tree (R88): nothing, a user pin of a bank, an output of an element of a region. -/
inductive RstSource
  | none
  | pin (bank pin : Nat)
  | element (region : Nat) (net : Net)
deriving DecidableEq, Repr, Inhabited

/-- What the body of a REGION section gives (06, table Section types; R157). -/
structure RegionBody where
  depth : Nat
  priTree : Nat
  secTree : Nat
  secEn : Bool
  startSlot : Nat
  stopSlot : Nat
  stopEn : Bool
  safeSlot : Nat
  safeEn : Bool
  faultPolicy : Nat
  hamperSize : Nat
  confidential : Bool
  /-- per-line border policies, two bits a line: 0 force 0, 1 hold last, 2 force 1 -/
  linePol : Nat
  /-- the tap of the delay line of each pin of the region's bank, pin 0 first (R345) -/
  taps : List Nat
  /-- the pairs of the region's bank whose inputs have the 100 Ω termination, one bit a pair (R499) -/
  term : Nat
  /-- drive strength of each pin of the region's bank, two bits a pin (0 to 3 for 2, 4, 8, 12 mA), and fast slew, one bit a pin (R498) -/
  drive : Nat
  slew : Nat
deriving DecidableEq, Repr, Inhabited

/-- What the body of a DEVICE section gives: the divider of each tree, the source of each reset tree, the global-release
tree, and of each I/O bank the declared VCCIO in mV and the standby mode (06, table Section types; R343, R348). -/
structure DeviceBody where
  div : List Nat
  rstSrc : List RstSource
  releaseTree : Nat
  vccio : List Nat
  standby : List Nat
deriving DecidableEq, Repr, Inhabited

end Sys2Proof

namespace Sys2Proof.Config

/-! ### Cryptographic standards the spec names and does not define -/

/-- SHA3-256 of a byte string (FIPS 202, named by R141 and R433). -/
opaque sha3Of : List Byte → Vector Byte 32

/-- The digest as a byte string. -/
def sha3 (b : List Byte) : List Byte := (sha3Of b).toList

/-- ML-DSA-44 verification: key, signature, signed bytes (named by R141). -/
opaque sigVerify : List Byte → List Byte → List Byte → Bool

/-- ML-DSA signature by the device identity over the given bytes (R436). -/
opaque sigSign : List Byte → List Byte

/-- AES-256-GCM style sealing under a root key: (label, plaintext) to ciphertext and tag (R444). -/
opaque sealBytes : List Byte → List Byte → List Byte

/-- The opening of a sealed blob: `none` where its tag does not check (R444). -/
opaque unsealBytes : List Byte → List Byte → Option (List Byte)

/-- A value derived from the seal root, a label and the initiator mask (R444). -/
opaque deriveBytes : List Byte → List Byte

/-- The MAC of an external-memory line (R324): key region, generation, tweak block, ciphertext. -/
opaque lineMac : Nat → Nat → Nat → List Byte → Nat

/-- AES-256 of a 128-bit block under the encryption key of a key region's generation (R323): region, generation, block. -/
opaque lineStream : Nat → Nat → Nat → List Byte

/-- The hashes that the boot ROM holds: of the steward-signing key (R430) and of Selpiotte's analysis key (R432). -/
opaque stewardKeyHash : List Byte
opaque analysisKeyHash : List Byte

/-- The boot ROM's check of a steward slot (R430), from the listed cells of its 2 MiB of flash: its sec_version and the bytes
of its header and firmware, where its key, its signature and its header hold. The header's layout is not in the spec. -/
opaque stewardSlot : List (Nat × Byte) → Option (Nat × List Byte)

/-- What a KEY frame of a peer steward carries (R443): its certificate chain verifies to the Selpiotte root, its signature
verifies, and its owner root hash. -/
opaque peerChainOk : List Byte → Bool
opaque peerSigOk : List Byte → Bool
opaque peerOwner : List Byte → List Byte

/-- The fields of a REGION section's body, and of a DEVICE section's. The spec names what they carry and gives no layout. -/
opaque regionBody : List Byte → RegionBody
opaque deviceBody : List Byte → DeviceBody

/-! ### Free values: what the spec leaves open, or what reaches the part from outside it -/

/-- A free word, new for each use counter and place. -/
opaque freeWord : Nat → Nat → Word

/-- A free byte, new for each use counter and place. -/
opaque freeByte : Nat → Nat → Byte

/-- A free natural number, new for each use counter and place. -/
opaque freeNat : Nat → Nat → Nat

/-- What the cells of a context, as (address, byte) pairs, mean at a depth, beyond their truth tables and initial values. -/
opaque fabric : List (Nat × Byte) → Nat → FabCfg

/-- What a combinational path that does not end shows: a loop through tables has no value in the spec. -/
opaque loopValue : Net → Bool

/-- O1 of an element whose table is not split (R62 gives it no function). -/
opaque unsplitO1 : Nat → Bool

/-- The eight check bits of a 64-bit word in the ECC shape of a block RAM (R73 names the code and gives none). -/
opaque bramCheck : BitVec 64 → BitVec 8

/-- Whether a pool codeword with three or more of its 288 bits wrong is found uncorrectable, or is corrected, or passes (R58
says nothing of them). -/
opaque poolMany : List (Fin 288) → Option Bool

/-- Whether an engine finds a result tiny after rounding, not before (R224: IEEE 754 leaves it to the implementation). -/
opaque tinyAfterRounding : Bool

/-- The speed grade of the part: 1 or 2 (R3). -/
opaque speedGrade : Nat

/-- The temperature grade of the part: true for I, false for E (R3). -/
opaque gradeI : Bool

/-- The fixed seed of the logic self-test (ST_LBSEED; R484 gives no value), and the length of a scan chain (ST_SCANSTAT). -/
opaque lbSeed : Nat
opaque scanLength : Nat → Nat

/-- The unique identifier of the part, four words (DEV_UID0 to 3). -/
opaque uid : Nat → Word

end Sys2Proof.Config
end

