-- ==== Sys2Proof/Machine/Regs.lean ====
section
/-!
DEFINITION. The register map of the part: which pages are populated (R35), the block registers of each page with
their fields, access types and reset values (the register tables of the chapters; 00_scope.md R6 to R8), the tables
that stand inside pages, and a name for each register (R.) and field (F.) that a meaning uses.
A field whose table states no reset value stands with 0 (notes/assumptions/2.md, DESIGN CHOICE).
-/

namespace Sys2Proof.Machine

/-- The access types of R8. -/
inductive Acc | rw | ro | w1c | w1s | wo | rc | rwl
deriving DecidableEq, Repr

/-- One row of a register table: bits `hi:lo`, access type, reset value. -/
structure FieldD where
  hi : Nat
  lo : Nat
  acc : Acc
  reset : Nat
deriving DecidableEq, Repr

/-- One register: its word offset in the page (byte offset / 4) and its fields; unlisted bits are reserved (R7). -/
structure RegD where
  off : Nat
  fields : List FieldD
deriving DecidableEq, Repr

/-- A field by its place: word offset of the register in its page, high bit, low bit. -/
structure Fld where
  off : Nat
  hi : Nat
  lo : Nat
deriving DecidableEq, Repr

/-- The same field of the register `i` words further on, in a row of like registers. -/
def Fld.at (f : Fld) (i : Nat) : Fld := { f with off := f.off + i }

/-- The width of a field in bits. -/
def Fld.width (f : Fld) : Nat := f.hi + 1 - f.lo

/-- The kinds of page, one for each set of block registers. -/
inductive Kind
  | dev | stw1 | stw2 | stw3 | stw4 | dbg | st6 | st7 | evt | time | clkD | clkE | clkF | clk10 | pwr1 | pwr2 | pwr3 | pwr4 | pwr5 | pwr6 | sen | hp0 | hp1 | hp2 | hp3 | ext | cry | ctr | fl | eth | ser | io | lnk | ln | rgn | ni | vlt | eng
deriving DecidableEq, Repr

/-- The kind of a populated page (R35); any other index is not populated. -/
def kindOf (p : Nat) : Option Kind :=
  if p = 0 then some .dev
  else if p = 1 then some .stw1
  else if p = 2 then some .stw2
  else if p = 3 then some .stw3
  else if p = 4 then some .stw4
  else if p = 5 then some .dbg
  else if p = 6 then some .st6
  else if p = 7 then some .st7
  else if 8 ≤ p ∧ p ≤ 11 then some .evt
  else if p = 12 then some .time
  else if p = 13 then some .clkD
  else if p = 14 then some .clkE
  else if p = 15 then some .clkF
  else if p = 16 then some .clk10
  else if p = 17 then some .pwr1
  else if p = 18 then some .pwr2
  else if p = 19 then some .pwr3
  else if p = 20 then some .pwr4
  else if p = 21 then some .pwr5
  else if p = 22 then some .pwr6
  else if p = 23 then some .sen
  else if p = 32 then some .hp0
  else if p = 33 then some .hp1
  else if p = 34 then some .hp2
  else if p = 35 then some .hp3
  else if 36 ≤ p ∧ p ≤ 37 then some .ext
  else if p = 38 then some .cry
  else if p = 39 then some .ctr
  else if p = 40 then some .fl
  else if 41 ≤ p ∧ p ≤ 42 then some .eth
  else if 48 ≤ p ∧ p ≤ 63 then some .ser
  else if 64 ≤ p ∧ p ≤ 73 then some .io
  else if 80 ≤ p ∧ p ≤ 91 then some .lnk
  else if 96 ≤ p ∧ p ≤ 143 then some .ln
  else if 256 ≤ p ∧ p ≤ 319 then some .rgn
  else if 320 ≤ p ∧ p ≤ 383 then some .ni
  else if 384 ≤ p ∧ p ≤ 447 then some .vlt
  else if 512 ≤ p ∧ p ≤ 767 then some .eng
  else none

/-- The first page index of the block a page belongs to (PG_ID.instance counts from it; R35). -/
def Kind.first : Kind → Nat
  | .dev => 0
  | .stw1 => 1
  | .stw2 => 1
  | .stw3 => 1
  | .stw4 => 1
  | .dbg => 5
  | .st6 => 6
  | .st7 => 6
  | .evt => 8
  | .time => 12
  | .clkD => 13
  | .clkE => 13
  | .clkF => 13
  | .clk10 => 13
  | .pwr1 => 17
  | .pwr2 => 17
  | .pwr3 => 17
  | .pwr4 => 17
  | .pwr5 => 17
  | .pwr6 => 17
  | .sen => 23
  | .hp0 => 32
  | .hp1 => 32
  | .hp2 => 32
  | .hp3 => 32
  | .ext => 36
  | .cry => 36
  | .ctr => 36
  | .fl => 40
  | .eth => 41
  | .ser => 48
  | .io => 64
  | .lnk => 80
  | .ln => 96
  | .rgn => 256
  | .ni => 320
  | .vlt => 384
  | .eng => 512

/-- The block type code (02, table Block type codes). -/
def Kind.code : Kind → Nat
  | .dev => 1
  | .stw1 => 2
  | .stw2 => 2
  | .stw3 => 2
  | .stw4 => 2
  | .dbg => 3
  | .st6 => 4
  | .st7 => 4
  | .evt => 5
  | .time => 6
  | .clkD => 7
  | .clkE => 7
  | .clkF => 7
  | .clk10 => 7
  | .pwr1 => 8
  | .pwr2 => 8
  | .pwr3 => 8
  | .pwr4 => 8
  | .pwr5 => 8
  | .pwr6 => 8
  | .sen => 9
  | .hp0 => 10
  | .hp1 => 10
  | .hp2 => 10
  | .hp3 => 10
  | .ext => 11
  | .cry => 11
  | .ctr => 11
  | .fl => 12
  | .eth => 13
  | .ser => 14
  | .io => 15
  | .lnk => 16
  | .ln => 17
  | .rgn => 18
  | .ni => 19
  | .vlt => 20
  | .eng => 21

/-- The number of block registers of a page (R35; PG_CAP.reg_count). -/
def Kind.regCount : Kind → Nat
  | .dev => 16
  | .stw1 => 24
  | .stw2 => 24
  | .stw3 => 24
  | .stw4 => 24
  | .dbg => 16
  | .st6 => 20
  | .st7 => 20
  | .evt => 16
  | .time => 8
  | .clkD => 20
  | .clkE => 20
  | .clkF => 20
  | .clk10 => 20
  | .pwr1 => 24
  | .pwr2 => 24
  | .pwr3 => 24
  | .pwr4 => 24
  | .pwr5 => 24
  | .pwr6 => 24
  | .sen => 24
  | .hp0 => 40
  | .hp1 => 40
  | .hp2 => 40
  | .hp3 => 40
  | .ext => 32
  | .cry => 32
  | .ctr => 32
  | .fl => 12
  | .eth => 48
  | .ser => 10
  | .io => 12
  | .lnk => 20
  | .ln => 28
  | .rgn => 40
  | .ni => 16
  | .vlt => 16
  | .eng => 14

/-- The block registers of the dev pages (18_start_up.md R423 and the field tables of that chapter). -/
def regs_dev : List RegD :=
  [⟨16, [⟨31, 16, .ro, 9221⟩, ⟨7, 4, .ro, 10⟩, ⟨3, 0, .ro, 1⟩]⟩,
   ⟨17, [⟨31, 31, .ro, 0⟩, ⟨30, 30, .ro, 0⟩, ⟨29, 29, .ro, 0⟩, ⟨3, 0, .ro, 1⟩]⟩,
   ⟨18, [⟨31, 31, .w1c, 0⟩, ⟨1, 0, .ro, 0⟩]⟩,
   ⟨19, [⟨1, 1, .ro, 0⟩, ⟨0, 0, .ro, 0⟩]⟩,
   ⟨20, [⟨31, 0, .ro, 0⟩]⟩,
   ⟨21, [⟨31, 0, .ro, 0⟩]⟩,
   ⟨22, [⟨31, 0, .ro, 0⟩]⟩,
   ⟨23, [⟨31, 0, .ro, 0⟩]⟩,
   ⟨24, [⟨0, 0, .rw, 0⟩]⟩,
   ⟨25, [⟨31, 28, .ro, 0⟩, ⟨27, 20, .ro, 0⟩, ⟨19, 10, .ro, 0⟩, ⟨9, 8, .ro, 0⟩, ⟨7, 0, .ro, 0⟩]⟩,
   ⟨26, [⟨31, 0, .ro, 0⟩]⟩,
   ⟨27, [⟨31, 30, .ro, 0⟩, ⟨11, 0, .ro, 0⟩]⟩,
   ⟨28, [⟨31, 31, .ro, 0⟩, ⟨21, 16, .ro, 0⟩, ⟨5, 5, .ro, 0⟩, ⟨4, 4, .ro, 0⟩, ⟨3, 3, .ro, 0⟩, ⟨2, 2, .ro, 0⟩, ⟨1, 1, .ro, 0⟩, ⟨0, 0, .ro, 0⟩]⟩,
   ⟨29, [⟨31, 0, .ro, 0⟩]⟩,
   ⟨30, [⟨31, 16, .ro, 0⟩, ⟨15, 0, .ro, 0⟩]⟩,
   ⟨31, [⟨31, 31, .ro, 0⟩, ⟨15, 0, .ro, 0⟩]⟩]

/-- The block registers of the stw1 pages (19_steward_and_attestation.md R447 and the field tables of that chapter). -/
def regs_stw1 : List RegD :=
  [⟨16, [⟨31, 31, .ro, 0⟩, ⟨30, 30, .ro, 0⟩, ⟨15, 0, .ro, 0⟩]⟩,
   ⟨17, [⟨31, 30, .ro, 0⟩, ⟨29, 29, .ro, 0⟩, ⟨28, 28, .ro, 0⟩]⟩,
   ⟨18, [⟨31, 31, .wo, 0⟩, ⟨1, 0, .rw, 0⟩]⟩,
   ⟨19, [⟨31, 28, .ro, 0⟩]⟩,
   ⟨20, [⟨31, 31, .rwl, 0⟩, ⟨30, 30, .rw, 0⟩, ⟨15, 0, .rw, 1000⟩]⟩,
   ⟨21, [⟨15, 0, .wo, 0⟩]⟩,
   ⟨22, [⟨31, 0, .ro, 0⟩]⟩,
   ⟨23, [⟨31, 31, .w1c, 0⟩, ⟨15, 0, .ro, 0⟩]⟩,
   ⟨24, [⟨31, 31, .ro, 0⟩, ⟨30, 30, .ro, 0⟩, ⟨29, 29, .ro, 0⟩, ⟨28, 28, .ro, 0⟩, ⟨15, 0, .ro, 0⟩]⟩,
   ⟨25, [⟨31, 30, .ro, 0⟩, ⟨15, 0, .ro, 0⟩]⟩,
   ⟨26, [⟨31, 0, .ro, 0⟩]⟩,
   ⟨27, [⟨31, 0, .ro, 0⟩]⟩,
   ⟨28, [⟨31, 31, .ro, 0⟩]⟩,
   ⟨29, [⟨31, 0, .ro, 0⟩]⟩,
   ⟨30, [⟨31, 31, .wo, 0⟩, ⟨3, 0, .rw, 0⟩]⟩,
   ⟨31, [⟨31, 0, .ro, 0⟩]⟩] ++
  [⟨32, [⟨31, 0, .ro, 0⟩]⟩,
   ⟨33, [⟨31, 0, .ro, 0⟩]⟩,
   ⟨34, [⟨31, 0, .ro, 0⟩]⟩,
   ⟨35, [⟨31, 0, .ro, 0⟩]⟩,
   ⟨36, [⟨31, 0, .ro, 0⟩]⟩,
   ⟨37, [⟨31, 0, .ro, 0⟩]⟩,
   ⟨38, [⟨31, 0, .ro, 0⟩]⟩,
   ⟨39, [⟨31, 16, .ro, 0⟩, ⟨7, 0, .ro, 0⟩]⟩]

/-- The block registers of the stw2 pages (19_steward_and_attestation.md R447 and the field tables of that chapter). -/
def regs_stw2 : List RegD :=
  [⟨16, [⟨3, 0, .rw, 0⟩]⟩,
   ⟨17, [⟨31, 0, .ro, 0⟩]⟩,
   ⟨18, [⟨31, 0, .ro, 0⟩]⟩,
   ⟨19, [⟨31, 0, .ro, 0⟩]⟩,
   ⟨20, [⟨31, 0, .ro, 0⟩]⟩,
   ⟨21, [⟨31, 0, .ro, 0⟩]⟩,
   ⟨22, [⟨31, 0, .ro, 0⟩]⟩,
   ⟨23, [⟨31, 0, .ro, 0⟩]⟩,
   ⟨24, [⟨31, 0, .ro, 0⟩]⟩,
   ⟨25, [⟨31, 31, .ro, 0⟩, ⟨23, 16, .ro, 0⟩, ⟨3, 0, .ro, 0⟩]⟩,
   ⟨26, [⟨31, 31, .wo, 0⟩, ⟨30, 30, .w1c, 0⟩, ⟨3, 0, .rw, 0⟩]⟩,
   ⟨27, [⟨31, 0, .rw, 0⟩]⟩,
   ⟨28, [⟨31, 0, .rw, 0⟩]⟩,
   ⟨29, [⟨31, 31, .wo, 0⟩]⟩,
   ⟨30, [⟨31, 0, .rw, 0⟩]⟩,
   ⟨31, [⟨31, 0, .rw, 0⟩]⟩] ++
  [⟨32, [⟨31, 31, .ro, 0⟩, ⟨30, 30, .ro, 0⟩, ⟨27, 24, .ro, 0⟩, ⟨23, 16, .ro, 0⟩, ⟨14, 0, .ro, 0⟩]⟩,
   ⟨33, [⟨20, 16, .rw, 31⟩, ⟨4, 4, .w1c, 0⟩, ⟨3, 3, .w1c, 0⟩, ⟨2, 2, .w1c, 0⟩, ⟨1, 1, .w1c, 0⟩, ⟨0, 0, .w1c, 0⟩]⟩,
   ⟨34, [⟨31, 31, .wo, 0⟩, ⟨2, 0, .rw, 0⟩]⟩,
   ⟨35, [⟨31, 0, .ro, 0⟩]⟩,
   ⟨36, [⟨31, 0, .wo, 0⟩]⟩,
   ⟨37, [⟨2, 2, .wo, 0⟩, ⟨1, 1, .wo, 0⟩, ⟨0, 0, .wo, 0⟩]⟩,
   ⟨38, [⟨31, 28, .ro, 0⟩, ⟨9, 0, .ro, 0⟩]⟩,
   ⟨39, [⟨31, 30, .ro, 0⟩, ⟨29, 29, .ro, 0⟩, ⟨15, 0, .ro, 0⟩]⟩]

/-- The block registers of the stw3 pages (19_steward_and_attestation.md R447 and the field tables of that chapter). -/
def regs_stw3 : List RegD :=
  [⟨16, [⟨31, 31, .ro, 0⟩, ⟨30, 30, .ro, 0⟩, ⟨29, 29, .ro, 0⟩, ⟨28, 28, .ro, 0⟩, ⟨11, 0, .ro, 0⟩]⟩,
   ⟨17, [⟨31, 0, .ro, 0⟩]⟩,
   ⟨18, [⟨31, 0, .ro, 0⟩]⟩,
   ⟨19, [⟨31, 0, .ro, 0⟩]⟩,
   ⟨20, [⟨31, 0, .ro, 0⟩]⟩,
   ⟨21, [⟨31, 0, .ro, 0⟩]⟩,
   ⟨22, [⟨31, 0, .ro, 0⟩]⟩,
   ⟨23, [⟨31, 0, .ro, 0⟩]⟩,
   ⟨24, [⟨31, 0, .ro, 0⟩]⟩,
   ⟨25, [⟨31, 0, .rw, 0⟩]⟩,
   ⟨26, [⟨31, 0, .rw, 0⟩]⟩,
   ⟨27, [⟨1, 1, .rwl, 0⟩, ⟨0, 0, .rwl, 0⟩]⟩,
   ⟨28, [⟨31, 0, .ro, 0⟩]⟩,
   ⟨29, [⟨7, 0, .ro, 0⟩]⟩,
   ⟨30, [⟨19, 16, .rw, 0⟩, ⟨3, 3, .w1c, 0⟩, ⟨2, 2, .w1c, 0⟩, ⟨1, 1, .w1c, 0⟩, ⟨0, 0, .w1c, 0⟩]⟩,
   ⟨31, [⟨31, 0, .ro, 0⟩]⟩] ++
  [⟨32, [⟨31, 0, .ro, 0⟩]⟩,
   ⟨33, [⟨31, 31, .ro, 0⟩, ⟨7, 0, .ro, 0⟩]⟩,
   ⟨34, [⟨31, 0, .ro, 0⟩]⟩,
   ⟨35, [⟨1, 0, .ro, 0⟩]⟩,
   ⟨36, [⟨31, 31, .ro, 0⟩, ⟨15, 0, .ro, 0⟩]⟩,
   ⟨37, [⟨27, 24, .ro, 0⟩, ⟨13, 0, .ro, 0⟩]⟩,
   ⟨38, [⟨31, 0, .ro, 0⟩]⟩,
   ⟨39, [⟨31, 31, .ro, 0⟩, ⟨15, 0, .ro, 0⟩]⟩]

/-- The block registers of the stw4 pages (19_steward_and_attestation.md R447 and the field tables of that chapter). -/
def regs_stw4 : List RegD :=
  [⟨16, [⟨31, 31, .wo, 0⟩, ⟨2, 0, .rw, 0⟩]⟩,
   ⟨17, [⟨31, 0, .rw, 0⟩]⟩,
   ⟨18, [⟨31, 0, .rw, 0⟩]⟩,
   ⟨19, [⟨31, 0, .rw, 0⟩]⟩,
   ⟨20, [⟨31, 0, .rw, 0⟩]⟩,
   ⟨21, [⟨31, 0, .rw, 0⟩]⟩,
   ⟨22, [⟨15, 0, .rw, 0⟩]⟩,
   ⟨23, [⟨31, 31, .ro, 0⟩, ⟨30, 30, .ro, 0⟩, ⟨23, 20, .ro, 0⟩, ⟨19, 10, .ro, 0⟩]⟩,
   ⟨24, [⟨17, 16, .rw, 0⟩, ⟨1, 1, .w1c, 0⟩, ⟨0, 0, .w1c, 0⟩]⟩,
   ⟨25, [⟨31, 0, .ro, 0⟩]⟩,
   ⟨26, [⟨31, 0, .ro, 0⟩]⟩,
   ⟨27, [⟨23, 20, .ro, 0⟩, ⟨2, 0, .ro, 0⟩]⟩,
   ⟨28, [⟨31, 0, .rw, 0⟩]⟩,
   ⟨29, [⟨31, 0, .rw, 0⟩]⟩,
   ⟨30, [⟨31, 0, .rw, 0⟩]⟩,
   ⟨31, [⟨31, 0, .rw, 0⟩]⟩] ++
  [⟨32, [⟨31, 0, .rw, 0⟩]⟩,
   ⟨33, [⟨31, 0, .rw, 0⟩]⟩,
   ⟨34, [⟨31, 0, .rw, 0⟩]⟩,
   ⟨35, [⟨31, 0, .rw, 0⟩]⟩,
   ⟨36, [⟨31, 0, .ro, 0⟩]⟩,
   ⟨37, [⟨31, 0, .ro, 0⟩]⟩,
   ⟨38, [⟨31, 0, .ro, 0⟩]⟩,
   ⟨39, [⟨31, 0, .ro, 0⟩]⟩]

/-- The block registers of the dbg pages (20_debug.md R472 and the field tables of that chapter). -/
def regs_dbg : List RegD :=
  [⟨16, [⟨31, 30, .ro, 0⟩, ⟨29, 29, .ro, 0⟩, ⟨28, 28, .ro, 0⟩, ⟨9, 9, .w1c, 0⟩, ⟨8, 8, .w1c, 0⟩, ⟨7, 7, .w1c, 0⟩, ⟨6, 6, .w1c, 0⟩, ⟨5, 5, .w1c, 0⟩, ⟨4, 4, .w1c, 0⟩]⟩,
   ⟨17, [⟨23, 16, .rw, 0⟩, ⟨15, 14, .rw, 0⟩, ⟨11, 0, .rw, 0⟩]⟩,
   ⟨18, [⟨31, 31, .wo, 0⟩, ⟨30, 30, .wo, 0⟩, ⟨29, 29, .wo, 0⟩, ⟨3, 3, .rw, 1⟩, ⟨2, 2, .rw, 0⟩]⟩,
   ⟨19, [⟨31, 29, .ro, 0⟩, ⟨28, 28, .ro, 0⟩, ⟨27, 24, .ro, 0⟩, ⟨23, 21, .ro, 0⟩, ⟨15, 0, .ro, 0⟩]⟩,
   ⟨20, [⟨31, 0, .rw, 0⟩]⟩,
   ⟨21, [⟨15, 0, .rw, 0⟩]⟩,
   ⟨22, [⟨2, 0, .rw, 0⟩]⟩,
   ⟨23, [⟨31, 31, .rw, 0⟩, ⟨30, 28, .rw, 0⟩, ⟨27, 26, .rw, 0⟩, ⟨25, 24, .rw, 0⟩, ⟨23, 23, .rw, 0⟩, ⟨22, 22, .w1c, 0⟩, ⟨21, 21, .ro, 0⟩, ⟨15, 8, .rw, 0⟩, ⟨7, 7, .rw, 0⟩, ⟨5, 0, .rw, 0⟩]⟩,
   ⟨24, [⟨31, 0, .rw, 0⟩]⟩,
   ⟨25, [⟨31, 0, .rw, 0⟩]⟩,
   ⟨26, [⟨31, 16, .rw, 0⟩, ⟨15, 0, .rw, 0⟩]⟩,
   ⟨27, [⟨31, 31, .w1c, 0⟩, ⟨25, 16, .ro, 0⟩, ⟨7, 0, .rw, 0⟩]⟩,
   ⟨28, [⟨31, 31, .rc, 0⟩, ⟨7, 0, .rw, 0⟩]⟩,
   ⟨29, [⟨31, 31, .wo, 0⟩, ⟨30, 30, .wo, 0⟩, ⟨29, 29, .wo, 0⟩, ⟨28, 28, .rw, 0⟩, ⟨27, 27, .ro, 0⟩, ⟨26, 24, .ro, 0⟩, ⟨23, 23, .ro, 0⟩, ⟨22, 22, .ro, 0⟩, ⟨5, 0, .rw, 0⟩]⟩,
   ⟨30, [⟨31, 0, .rw, 0⟩]⟩,
   ⟨31, [⟨19, 16, .rw, 15⟩, ⟨3, 3, .w1c, 0⟩, ⟨2, 2, .w1c, 0⟩, ⟨1, 1, .w1c, 0⟩, ⟨0, 0, .w1c, 0⟩]⟩]

/-- The block registers of the st6 pages (21_self_test_and_calibration.md R491 and the field tables of that chapter). -/
def regs_st6 : List RegD :=
  [⟨16, [⟨31, 31, .wo, 0⟩, ⟨23, 16, .rw, 0⟩, ⟨9, 0, .rw, 0⟩]⟩,
   ⟨17, [⟨31, 31, .rw, 0⟩, ⟨15, 0, .rw, 0⟩]⟩,
   ⟨18, [⟨2, 0, .ro, 0⟩, ⟨7, 4, .ro, 0⟩]⟩,
   ⟨19, [⟨17, 16, .rw, 3⟩, ⟨1, 1, .w1c, 0⟩, ⟨0, 0, .w1c, 0⟩]⟩,
   ⟨20, [⟨1, 0, .rw, 0⟩]⟩,
   ⟨21, [⟨31, 31, .ro, 0⟩, ⟨30, 30, .ro, 0⟩, ⟨29, 28, .ro, 0⟩, ⟨27, 24, .ro, 0⟩, ⟨23, 16, .ro, 0⟩, ⟨9, 0, .ro, 0⟩]⟩,
   ⟨22, [⟨31, 0, .ro, 0⟩]⟩,
   ⟨23, [⟨31, 0, .ro, 0⟩]⟩,
   ⟨24, [⟨31, 0, .ro, 0⟩]⟩,
   ⟨25, [⟨31, 0, .ro, 0⟩]⟩,
   ⟨26, [⟨31, 0, .ro, 0⟩]⟩,
   ⟨27, [⟨31, 0, .ro, 0⟩]⟩,
   ⟨28, [⟨31, 0, .ro, 0⟩]⟩,
   ⟨29, [⟨31, 0, .ro, 0⟩]⟩,
   ⟨30, [⟨31, 31, .ro, 0⟩, ⟨22, 0, .ro, 0⟩]⟩,
   ⟨31, [⟨9, 0, .ro, 0⟩]⟩] ++
  [⟨32, [⟨1, 0, .ro, 0⟩]⟩,
   ⟨33, [⟨31, 0, .ro, 0⟩]⟩,
   ⟨34, [⟨15, 0, .rw, 100⟩]⟩,
   ⟨35, [⟨0, 0, .rwl, 0⟩]⟩]

/-- The block registers of the st7 pages (21_self_test_and_calibration.md R491 and the field tables of that chapter). -/
def regs_st7 : List RegD :=
  [⟨16, [⟨13, 8, .rw, 0⟩, ⟨3, 2, .rw, 0⟩, ⟨1, 0, .rw, 0⟩]⟩,
   ⟨17, [⟨31, 0, .ro, 0⟩]⟩,
   ⟨18, [⟨31, 0, .ro, 0⟩]⟩,
   ⟨19, [⟨31, 0, .ro, 0⟩]⟩,
   ⟨20, [⟨31, 0, .ro, 0⟩]⟩,
   ⟨21, [⟨31, 31, .ro, 0⟩, ⟨30, 30, .ro, 0⟩]⟩,
   ⟨22, [⟨7, 0, .ro, 0⟩]⟩,
   ⟨23, [⟨31, 0, .ro, 0⟩]⟩,
   ⟨24, [⟨31, 31, .wo, 0⟩, ⟨7, 0, .rw, 0⟩]⟩,
   ⟨25, [⟨31, 31, .ro, 0⟩, ⟨19, 0, .ro, 0⟩]⟩,
   ⟨26, [⟨31, 0, .rw, 0⟩]⟩,
   ⟨27, [⟨31, 0, .ro, 0⟩]⟩,
   ⟨28, [⟨31, 0, .rw, 65536⟩]⟩,
   ⟨29, [⟨31, 0, .ro, 0⟩]⟩,
   ⟨30, [⟨31, 0, .ro, 0⟩]⟩,
   ⟨31, [⟨15, 8, .ro, 0⟩, ⟨7, 0, .ro, 0⟩]⟩] ++
  [⟨32, [⟨0, 0, .wo, 0⟩]⟩,
   ⟨33, [⟨31, 0, .ro, 0⟩]⟩,
   ⟨34, [⟨31, 0, .ro, 0⟩]⟩,
   ⟨35, [⟨31, 31, .ro, 0⟩]⟩]

/-- The block registers of the evt pages (02_register_pages_and_events.md R51-R55 and the field tables of that chapter). -/
def regs_evt : List RegD :=
  [⟨16, [⟨0, 0, .rw, 0⟩]⟩,
   ⟨17, [⟨1, 1, .w1c, 0⟩, ⟨0, 0, .w1c, 0⟩]⟩,
   ⟨18, [⟨9, 0, .ro, 0⟩]⟩,
   ⟨19, [⟨5, 5, .w1c, 0⟩, ⟨4, 4, .w1c, 0⟩, ⟨3, 3, .w1c, 0⟩, ⟨2, 2, .w1c, 0⟩, ⟨1, 1, .w1c, 0⟩, ⟨0, 0, .w1c, 0⟩]⟩,
   ⟨20, [⟨31, 0, .ro, 0⟩]⟩,
   ⟨21, [⟨31, 0, .ro, 0⟩]⟩,
   ⟨22, [⟨31, 0, .ro, 0⟩]⟩,
   ⟨23, [⟨31, 0, .ro, 0⟩]⟩,
   ⟨24, [⟨31, 0, .ro, 0⟩]⟩,
   ⟨25, [⟨31, 0, .ro, 0⟩]⟩,
   ⟨26, [⟨15, 0, .ro, 0⟩]⟩,
   ⟨27, [⟨9, 0, .wo, 0⟩]⟩,
   ⟨28, [⟨31, 0, .ro, 0⟩]⟩,
   ⟨29, [⟨31, 0, .ro, 0⟩]⟩,
   ⟨30, [⟨11, 0, .ro, 0⟩]⟩,
   ⟨31, [⟨7, 0, .ro, 0⟩]⟩]

/-- The block registers of the time pages (02_register_pages_and_events.md R36 and the field tables of that chapter). -/
def regs_time : List RegD :=
  [⟨16, [⟨31, 0, .ro, 0⟩]⟩,
   ⟨17, [⟨31, 0, .ro, 0⟩]⟩,
   ⟨18, [⟨31, 0, .ro, 0⟩]⟩,
   ⟨19, [⟨31, 0, .ro, 0⟩]⟩,
   ⟨20, [⟨31, 0, .ro, 0⟩]⟩,
   ⟨21, [⟨31, 0, .ro, 0⟩]⟩,
   ⟨22, [⟨31, 0, .ro, 0⟩]⟩,
   ⟨23, [⟨31, 0, .ro, 0⟩]⟩]

/-- The block registers of the clkD pages (16_clocks_and_time.md R383 and the field tables of that chapter). -/
def regs_clkD : List RegD :=
  [⟨16, [⟨31, 31, .ro, 0⟩, ⟨0, 0, .wo, 0⟩]⟩,
   ⟨17, [⟨2, 0, .rw, 7⟩]⟩,
   ⟨18, [⟨2, 0, .ro, 0⟩, ⟨6, 4, .ro, 0⟩]⟩,
   ⟨19, [⟨7, 0, .ro, 0⟩]⟩,
   ⟨20, [⟨7, 0, .ro, 0⟩]⟩,
   ⟨21, [⟨7, 0, .ro, 0⟩]⟩,
   ⟨22, [⟨28, 24, .ro, 0⟩, ⟨20, 18, .ro, 0⟩, ⟨17, 17, .ro, 0⟩, ⟨16, 16, .ro, 0⟩, ⟨0, 0, .w1c, 0⟩]⟩,
   ⟨23, [⟨31, 0, .ro, 0⟩]⟩,
   ⟨24, [⟨31, 0, .ro, 0⟩]⟩,
   ⟨25, [⟨31, 31, .w1c, 0⟩, ⟨12, 8, .ro, 0⟩, ⟨1, 0, .ro, 0⟩]⟩,
   ⟨26, [⟨20, 16, .rw, 31⟩, ⟨4, 4, .w1c, 0⟩, ⟨3, 3, .w1c, 0⟩, ⟨2, 2, .w1c, 0⟩, ⟨1, 1, .w1c, 0⟩, ⟨0, 0, .w1c, 0⟩]⟩,
   ⟨27, [⟨31, 0, .ro, 0⟩]⟩,
   ⟨28, [⟨31, 0, .ro, 0⟩]⟩]

/-- The block registers of the clkE pages (16_clocks_and_time.md R383 and the field tables of that chapter). -/
def regs_clkE : List RegD :=
  [⟨16, [⟨31, 31, .rw, 1⟩, ⟨30, 30, .ro, 0⟩, ⟨29, 29, .ro, 1⟩, ⟨28, 28, .w1c, 0⟩, ⟨25, 16, .ro, 0⟩, ⟨9, 0, .ro, 0⟩]⟩,
   ⟨17, [⟨31, 31, .rw, 1⟩, ⟨30, 30, .ro, 0⟩, ⟨29, 29, .ro, 1⟩, ⟨28, 28, .w1c, 0⟩, ⟨25, 16, .ro, 0⟩, ⟨9, 0, .rw, 1023⟩]⟩,
   ⟨18, [⟨31, 31, .rw, 1⟩, ⟨30, 30, .ro, 0⟩, ⟨29, 29, .ro, 1⟩, ⟨28, 28, .w1c, 0⟩, ⟨25, 16, .ro, 0⟩, ⟨9, 0, .rw, 1023⟩]⟩,
   ⟨19, [⟨31, 31, .rw, 1⟩, ⟨30, 30, .ro, 0⟩, ⟨29, 29, .ro, 1⟩, ⟨28, 28, .w1c, 0⟩, ⟨25, 16, .ro, 0⟩, ⟨9, 0, .rw, 1023⟩]⟩,
   ⟨20, [⟨31, 31, .rw, 1⟩, ⟨30, 30, .ro, 0⟩, ⟨29, 29, .ro, 1⟩, ⟨28, 28, .w1c, 0⟩, ⟨25, 16, .ro, 0⟩, ⟨9, 0, .rw, 1023⟩]⟩,
   ⟨21, [⟨31, 0, .ro, 0⟩]⟩]

/-- The block registers of the clkF pages (16_clocks_and_time.md R383 and the field tables of that chapter). -/
def regs_clkF : List RegD :=
  [⟨16, [⟨31, 31, .ro, 1⟩, ⟨0, 0, .wo, 0⟩]⟩,
   ⟨17, [⟨1, 0, .rw, 0⟩, ⟨11, 8, .rw, 0⟩]⟩,
   ⟨18, [⟨11, 0, .ro, 0⟩]⟩,
   ⟨19, [⟨31, 31, .ro, 0⟩, ⟨23, 16, .ro, 0⟩, ⟨15, 0, .ro, 0⟩]⟩,
   ⟨20, [⟨31, 0, .ro, 0⟩]⟩,
   ⟨21, [⟨31, 0, .ro, 0⟩]⟩]

/-- The block registers of the clk10 pages (16_clocks_and_time.md R383 and the field tables of that chapter). -/
def regs_clk10 : List RegD :=
  [⟨16, [⟨31, 0, .ro, 0⟩]⟩,
   ⟨17, [⟨31, 0, .ro, 0⟩]⟩,
   ⟨18, [⟨3, 0, .ro, 0⟩]⟩,
   ⟨19, [⟨31, 30, .ro, 0⟩, ⟨29, 29, .ro, 0⟩, ⟨28, 28, .ro, 0⟩]⟩,
   ⟨20, [⟨31, 0, .ro, 0⟩]⟩,
   ⟨21, [⟨31, 0, .ro, 0⟩]⟩,
   ⟨22, [⟨31, 0, .ro, 0⟩]⟩,
   ⟨23, [⟨31, 0, .ro, 0⟩]⟩,
   ⟨24, [⟨0, 0, .rw, 0⟩]⟩,
   ⟨25, [⟨31, 0, .rw, 0⟩]⟩,
   ⟨26, [⟨31, 0, .rw, 0⟩]⟩,
   ⟨27, [⟨31, 0, .rw, 0⟩]⟩,
   ⟨28, [⟨1, 1, .wo, 0⟩, ⟨0, 0, .wo, 0⟩]⟩,
   ⟨29, [⟨19, 16, .rw, 15⟩, ⟨3, 3, .w1c, 0⟩, ⟨2, 2, .w1c, 0⟩, ⟨1, 1, .w1c, 0⟩, ⟨0, 0, .w1c, 0⟩]⟩]

/-- The block registers of the pwr1 pages (17_power_and_supply.md R408 and the field tables of that chapter). -/
def regs_pwr1 : List RegD :=
  [⟨16, [⟨31, 31, .wo, 0⟩, ⟨30, 30, .rw, 0⟩]⟩,
   ⟨17, [⟨31, 29, .ro, 0⟩, ⟨28, 28, .ro, 0⟩, ⟨27, 27, .ro, 0⟩]⟩,
   ⟨18, [⟨20, 16, .rw, 31⟩, ⟨4, 4, .w1c, 0⟩, ⟨3, 3, .w1c, 0⟩, ⟨2, 2, .w1c, 0⟩, ⟨1, 1, .w1c, 0⟩, ⟨0, 0, .w1c, 0⟩]⟩,
   ⟨19, [⟨31, 28, .ro, 0⟩, ⟨27, 24, .ro, 0⟩, ⟨6, 0, .ro, 0⟩]⟩,
   ⟨20, [⟨31, 31, .wo, 0⟩, ⟨9, 0, .rw, 2⟩]⟩,
   ⟨21, [⟨3, 0, .rw, 6⟩]⟩,
   ⟨22, [⟨31, 0, .rw, 0⟩]⟩,
   ⟨23, [⟨31, 0, .rw, 0⟩]⟩,
   ⟨24, [⟨2, 0, .ro, 0⟩]⟩,
   ⟨25, [⟨31, 31, .w1c, 0⟩, ⟨10, 8, .ro, 0⟩, ⟨1, 0, .ro, 0⟩]⟩,
   ⟨26, [⟨31, 0, .ro, 0⟩]⟩,
   ⟨27, [⟨31, 0, .ro, 0⟩]⟩,
   ⟨28, [⟨31, 0, .ro, 0⟩]⟩,
   ⟨29, [⟨31, 0, .ro, 0⟩]⟩,
   ⟨30, [⟨31, 31, .wo, 0⟩, ⟨10, 8, .rw, 0⟩, ⟨5, 0, .rw, 0⟩]⟩,
   ⟨31, [⟨31, 0, .ro, 0⟩]⟩] ++
  [⟨32, [⟨31, 0, .ro, 0⟩]⟩,
   ⟨33, [⟨31, 0, .ro, 0⟩]⟩,
   ⟨34, [⟨31, 0, .ro, 0⟩]⟩,
   ⟨35, [⟨2, 0, .ro, 0⟩]⟩,
   ⟨36, [⟨31, 0, .ro, 0⟩]⟩,
   ⟨37, [⟨3, 3, .ro, 0⟩, ⟨2, 2, .ro, 0⟩, ⟨1, 1, .ro, 0⟩, ⟨0, 0, .ro, 0⟩]⟩]

/-- The block registers of the pwr2 pages (17_power_and_supply.md R408 and the field tables of that chapter). -/
def regs_pwr2 : List RegD :=
  [⟨16, [⟨31, 31, .wo, 0⟩, ⟨30, 30, .ro, 0⟩, ⟨21, 20, .rw, 0⟩, ⟨5, 0, .rw, 0⟩]⟩,
   ⟨17, [⟨14, 0, .rw, 32767⟩]⟩,
   ⟨18, [⟨31, 0, .ro, 0⟩]⟩,
   ⟨19, [⟨31, 0, .ro, 0⟩]⟩,
   ⟨20, [⟨31, 0, .ro, 0⟩]⟩,
   ⟨21, [⟨31, 0, .ro, 0⟩]⟩,
   ⟨22, [⟨31, 0, .ro, 0⟩]⟩,
   ⟨23, [⟨31, 0, .ro, 0⟩]⟩,
   ⟨24, [⟨31, 0, .ro, 0⟩]⟩,
   ⟨25, [⟨31, 0, .ro, 0⟩]⟩,
   ⟨26, [⟨31, 0, .ro, 0⟩]⟩,
   ⟨27, [⟨31, 0, .ro, 0⟩]⟩,
   ⟨28, [⟨31, 0, .ro, 0⟩]⟩,
   ⟨29, [⟨31, 0, .ro, 0⟩]⟩,
   ⟨30, [⟨31, 0, .ro, 0⟩]⟩,
   ⟨31, [⟨31, 0, .ro, 0⟩]⟩] ++
  [⟨32, [⟨31, 0, .ro, 0⟩]⟩,
   ⟨33, [⟨31, 0, .ro, 0⟩]⟩,
   ⟨34, [⟨31, 0, .ro, 0⟩]⟩,
   ⟨35, [⟨31, 0, .ro, 0⟩]⟩,
   ⟨36, [⟨31, 0, .ro, 0⟩]⟩,
   ⟨37, [⟨31, 0, .ro, 0⟩]⟩,
   ⟨38, [⟨31, 0, .ro, 0⟩]⟩,
   ⟨39, [⟨31, 0, .ro, 0⟩]⟩]

/-- The block registers of the pwr3 pages (17_power_and_supply.md R408 and the field tables of that chapter). -/
def regs_pwr3 : List RegD :=
  [⟨16, [⟨31, 31, .rw, 1⟩, ⟨30, 30, .rw, 0⟩, ⟨29, 23, .rw, 0⟩, ⟨19, 16, .rw, 0⟩, ⟨15, 8, .rw, 10⟩, ⟨7, 0, .rw, 5⟩]⟩,
   ⟨17, [⟨31, 31, .rw, 1⟩, ⟨30, 30, .rw, 0⟩, ⟨29, 23, .rw, 0⟩, ⟨19, 16, .rw, 0⟩, ⟨15, 8, .rw, 10⟩, ⟨7, 0, .rw, 5⟩]⟩,
   ⟨18, [⟨31, 31, .rw, 1⟩, ⟨30, 30, .rw, 0⟩, ⟨29, 23, .rw, 0⟩, ⟨19, 16, .rw, 0⟩, ⟨15, 8, .rw, 10⟩, ⟨7, 0, .rw, 5⟩]⟩,
   ⟨19, [⟨31, 31, .rw, 1⟩, ⟨30, 30, .rw, 0⟩, ⟨29, 23, .rw, 0⟩, ⟨19, 16, .rw, 0⟩, ⟨15, 8, .rw, 10⟩, ⟨7, 0, .rw, 5⟩]⟩,
   ⟨20, [⟨31, 31, .rw, 1⟩, ⟨30, 30, .rw, 0⟩, ⟨29, 23, .rw, 0⟩, ⟨19, 16, .rw, 0⟩, ⟨15, 8, .rw, 10⟩, ⟨7, 0, .rw, 5⟩]⟩,
   ⟨21, [⟨31, 31, .rw, 1⟩, ⟨30, 30, .rw, 0⟩, ⟨29, 23, .rw, 0⟩, ⟨19, 16, .rw, 0⟩, ⟨15, 8, .rw, 10⟩, ⟨7, 0, .rw, 5⟩]⟩,
   ⟨22, [⟨31, 31, .rw, 1⟩, ⟨30, 30, .rw, 0⟩, ⟨29, 23, .rw, 0⟩, ⟨19, 16, .rw, 0⟩, ⟨15, 8, .rw, 10⟩, ⟨7, 0, .rw, 5⟩]⟩,
   ⟨23, [⟨31, 31, .rw, 1⟩, ⟨30, 30, .rw, 0⟩, ⟨29, 23, .rw, 0⟩, ⟨19, 16, .rw, 0⟩, ⟨15, 8, .rw, 10⟩, ⟨7, 0, .rw, 5⟩]⟩,
   ⟨24, [⟨31, 31, .ro, 1⟩, ⟨15, 0, .ro, 0⟩]⟩,
   ⟨25, [⟨31, 31, .ro, 1⟩, ⟨15, 0, .ro, 0⟩]⟩,
   ⟨26, [⟨31, 31, .ro, 1⟩, ⟨15, 0, .ro, 0⟩]⟩,
   ⟨27, [⟨31, 31, .ro, 1⟩, ⟨15, 0, .ro, 0⟩]⟩,
   ⟨28, [⟨31, 31, .ro, 1⟩, ⟨15, 0, .ro, 0⟩]⟩,
   ⟨29, [⟨31, 31, .ro, 1⟩, ⟨15, 0, .ro, 0⟩]⟩,
   ⟨30, [⟨31, 31, .ro, 1⟩, ⟨15, 0, .ro, 0⟩]⟩,
   ⟨31, [⟨31, 31, .ro, 1⟩, ⟨15, 0, .ro, 0⟩]⟩] ++
  [⟨32, [⟨31, 31, .rw, 1⟩]⟩,
   ⟨33, [⟨31, 31, .wo, 0⟩, ⟨22, 20, .wo, 0⟩, ⟨18, 16, .wo, 0⟩, ⟨15, 8, .wo, 0⟩, ⟨6, 0, .wo, 0⟩]⟩,
   ⟨34, [⟨31, 0, .rw, 0⟩]⟩,
   ⟨35, [⟨31, 31, .ro, 0⟩, ⟨2, 0, .ro, 0⟩]⟩,
   ⟨36, [⟨31, 0, .ro, 0⟩]⟩,
   ⟨37, [⟨31, 0, .ro, 0⟩]⟩,
   ⟨38, [⟨31, 0, .ro, 0⟩]⟩,
   ⟨39, [⟨31, 0, .ro, 0⟩]⟩]

/-- The block registers of the pwr4 pages (17_power_and_supply.md R408 and the field tables of that chapter). -/
def regs_pwr4 : List RegD :=
  [⟨16, [⟨31, 16, .ro, 0⟩, ⟨15, 0, .ro, 0⟩]⟩,
   ⟨17, [⟨31, 16, .ro, 0⟩, ⟨15, 0, .ro, 0⟩]⟩,
   ⟨18, [⟨31, 16, .ro, 0⟩, ⟨15, 0, .ro, 0⟩]⟩,
   ⟨19, [⟨31, 16, .ro, 0⟩, ⟨15, 0, .ro, 0⟩]⟩,
   ⟨20, [⟨31, 16, .ro, 0⟩, ⟨15, 0, .ro, 0⟩]⟩,
   ⟨21, [⟨31, 16, .ro, 0⟩, ⟨15, 0, .ro, 0⟩]⟩,
   ⟨22, [⟨31, 16, .ro, 0⟩, ⟨15, 0, .ro, 0⟩]⟩,
   ⟨23, [⟨31, 16, .ro, 0⟩, ⟨15, 0, .ro, 0⟩]⟩,
   ⟨24, [⟨31, 16, .ro, 0⟩, ⟨15, 0, .ro, 0⟩]⟩,
   ⟨25, [⟨8, 0, .w1c, 0⟩]⟩,
   ⟨26, [⟨31, 0, .ro, 0⟩]⟩,
   ⟨27, [⟨31, 0, .ro, 0⟩]⟩,
   ⟨28, [⟨31, 0, .ro, 0⟩]⟩,
   ⟨29, [⟨31, 0, .ro, 0⟩]⟩,
   ⟨30, [⟨31, 0, .ro, 0⟩]⟩,
   ⟨31, [⟨31, 0, .ro, 0⟩]⟩] ++
  [⟨32, [⟨31, 0, .ro, 0⟩]⟩,
   ⟨33, [⟨31, 0, .ro, 0⟩]⟩,
   ⟨34, [⟨31, 0, .ro, 0⟩]⟩,
   ⟨35, [⟨31, 0, .ro, 0⟩]⟩,
   ⟨36, [⟨31, 0, .ro, 0⟩]⟩,
   ⟨37, [⟨31, 0, .ro, 0⟩]⟩,
   ⟨38, [⟨31, 0, .ro, 0⟩]⟩,
   ⟨39, [⟨7, 0, .rw, 0⟩]⟩]

/-- The block registers of the pwr5 pages (17_power_and_supply.md R408 and the field tables of that chapter). -/
def regs_pwr5 : List RegD :=
  [⟨16, [⟨31, 0, .ro, 0⟩]⟩,
   ⟨17, [⟨17, 16, .rw, 0⟩, ⟨1, 1, .w1c, 0⟩, ⟨0, 0, .w1c, 0⟩]⟩,
   ⟨18, [⟨31, 0, .ro, 0⟩]⟩,
   ⟨19, [⟨31, 0, .ro, 0⟩]⟩,
   ⟨20, [⟨31, 0, .ro, 0⟩]⟩,
   ⟨21, [⟨31, 0, .ro, 0⟩]⟩,
   ⟨22, [⟨31, 0, .ro, 0⟩]⟩,
   ⟨23, [⟨31, 0, .ro, 0⟩]⟩,
   ⟨24, [⟨31, 16, .ro, 0⟩, ⟨15, 0, .ro, 0⟩]⟩,
   ⟨25, [⟨31, 16, .ro, 0⟩, ⟨15, 0, .ro, 0⟩]⟩,
   ⟨26, [⟨31, 16, .ro, 0⟩, ⟨15, 0, .ro, 0⟩]⟩,
   ⟨27, [⟨31, 16, .ro, 0⟩, ⟨15, 0, .ro, 0⟩]⟩,
   ⟨28, [⟨31, 16, .ro, 0⟩, ⟨15, 0, .ro, 0⟩]⟩,
   ⟨29, [⟨31, 16, .ro, 0⟩, ⟨15, 0, .ro, 0⟩]⟩,
   ⟨30, [⟨31, 16, .ro, 0⟩, ⟨15, 0, .ro, 0⟩]⟩,
   ⟨31, [⟨31, 16, .ro, 0⟩, ⟨15, 0, .ro, 0⟩]⟩] ++
  [⟨32, [⟨31, 16, .ro, 0⟩, ⟨15, 0, .ro, 0⟩]⟩,
   ⟨33, [⟨31, 16, .ro, 0⟩, ⟨15, 0, .ro, 0⟩]⟩,
   ⟨34, [⟨31, 16, .ro, 0⟩, ⟨15, 0, .ro, 0⟩]⟩,
   ⟨35, [⟨31, 16, .ro, 0⟩, ⟨15, 0, .ro, 0⟩]⟩,
   ⟨36, [⟨31, 16, .ro, 0⟩, ⟨15, 0, .ro, 0⟩]⟩,
   ⟨37, [⟨31, 16, .ro, 0⟩, ⟨15, 0, .ro, 0⟩]⟩,
   ⟨38, [⟨31, 16, .ro, 0⟩, ⟨15, 0, .ro, 0⟩]⟩,
   ⟨39, [⟨31, 16, .ro, 0⟩, ⟨15, 0, .ro, 0⟩]⟩]

/-- The block registers of the pwr6 pages (17_power_and_supply.md R408 and the field tables of that chapter). -/
def regs_pwr6 : List RegD :=
  [⟨16, [⟨31, 0, .ro, 0⟩]⟩,
   ⟨17, [⟨31, 0, .ro, 0⟩]⟩,
   ⟨18, [⟨31, 0, .ro, 0⟩]⟩,
   ⟨19, [⟨31, 0, .ro, 0⟩]⟩,
   ⟨20, [⟨31, 0, .ro, 0⟩]⟩,
   ⟨21, [⟨31, 0, .ro, 0⟩]⟩,
   ⟨22, [⟨31, 0, .ro, 0⟩]⟩,
   ⟨23, [⟨31, 0, .ro, 0⟩]⟩,
   ⟨24, [⟨31, 0, .ro, 0⟩]⟩,
   ⟨25, [⟨31, 0, .ro, 0⟩]⟩,
   ⟨26, [⟨31, 0, .ro, 0⟩]⟩,
   ⟨27, [⟨31, 0, .ro, 0⟩]⟩,
   ⟨28, [⟨31, 0, .ro, 0⟩]⟩,
   ⟨29, [⟨31, 0, .ro, 0⟩]⟩,
   ⟨30, [⟨31, 0, .ro, 0⟩]⟩,
   ⟨31, [⟨31, 0, .ro, 0⟩]⟩] ++
  [⟨32, [⟨0, 0, .wo, 0⟩]⟩,
   ⟨33, [⟨31, 0, .ro, 0⟩]⟩,
   ⟨34, [⟨31, 0, .ro, 0⟩]⟩,
   ⟨35, [⟨31, 0, .ro, 0⟩]⟩,
   ⟨36, [⟨31, 0, .ro, 0⟩]⟩,
   ⟨37, [⟨31, 0, .ro, 0⟩]⟩,
   ⟨38, [⟨31, 0, .rw, 0⟩]⟩,
   ⟨39, [⟨31, 0, .ro, 0⟩]⟩]

/-- The block registers of the sen pages (17_power_and_supply.md R408 and the field tables of that chapter). -/
def regs_sen : List RegD :=
  [⟨16, [⟨31, 31, .rw, 1⟩, ⟨29, 29, .rw, 0⟩, ⟨15, 0, .rw, 2300⟩]⟩,
   ⟨17, [⟨31, 31, .ro, 0⟩, ⟨30, 30, .ro, 0⟩, ⟨8, 0, .ro, 0⟩]⟩,
   ⟨18, [⟨24, 16, .rw, 511⟩, ⟨8, 8, .w1c, 0⟩, ⟨7, 7, .w1c, 0⟩, ⟨6, 6, .w1c, 0⟩, ⟨5, 5, .w1c, 0⟩, ⟨4, 4, .w1c, 0⟩, ⟨3, 3, .w1c, 0⟩, ⟨2, 2, .w1c, 0⟩, ⟨1, 1, .w1c, 0⟩, ⟨0, 0, .w1c, 0⟩]⟩,
   ⟨19, [⟨31, 24, .rw, 90⟩, ⟨23, 16, .rw, 110⟩, ⟨15, 8, .rw, 5⟩, ⟨7, 4, .rw, 2⟩, ⟨3, 0, .rw, 3⟩]⟩,
   ⟨20, [⟨31, 16, .rw, 2040⟩, ⟨15, 0, .rw, 1920⟩]⟩,
   ⟨21, [⟨31, 29, .rw, 7⟩, ⟨23, 16, .rw, 20⟩, ⟨15, 8, .rw, 10⟩, ⟨7, 0, .rw, 20⟩]⟩,
   ⟨22, [⟨31, 0, .ro, 0⟩]⟩,
   ⟨23, [⟨31, 0, .ro, 0⟩]⟩,
   ⟨24, [⟨31, 0, .ro, 0⟩]⟩,
   ⟨25, [⟨31, 0, .ro, 0⟩]⟩,
   ⟨26, [⟨31, 0, .ro, 0⟩]⟩,
   ⟨27, [⟨31, 0, .ro, 0⟩]⟩,
   ⟨28, [⟨31, 0, .ro, 0⟩]⟩,
   ⟨29, [⟨31, 0, .ro, 0⟩]⟩,
   ⟨30, [⟨31, 0, .ro, 0⟩]⟩,
   ⟨31, [⟨3, 0, .rw, 0⟩]⟩] ++
  [⟨32, [⟨31, 16, .rw, 0⟩, ⟨15, 0, .rw, 0⟩]⟩,
   ⟨33, [⟨31, 0, .ro, 0⟩]⟩,
   ⟨34, [⟨31, 24, .ro, 0⟩, ⟨8, 8, .wo, 0⟩, ⟨3, 0, .rw, 0⟩]⟩,
   ⟨35, [⟨31, 31, .ro, 0⟩, ⟨30, 30, .ro, 0⟩, ⟨27, 24, .ro, 0⟩, ⟨15, 0, .ro, 0⟩]⟩,
   ⟨36, [⟨31, 0, .ro, 0⟩]⟩,
   ⟨37, [⟨31, 0, .ro, 0⟩]⟩,
   ⟨38, [⟨31, 0, .ro, 0⟩]⟩,
   ⟨39, [⟨31, 31, .ro, 0⟩, ⟨7, 0, .ro, 0⟩]⟩]

/-- The block registers of the hp0 pages (11_host_port.md R275 and the field tables of that chapter). -/
def regs_hp0 : List RegD :=
  [⟨16, [⟨31, 16, .ro, 21056⟩, ⟨15, 0, .ro, 7996⟩]⟩,
   ⟨17, [⟨31, 31, .ro, 0⟩, ⟨27, 24, .ro, 0⟩, ⟨19, 16, .ro, 0⟩, ⟨5, 0, .ro, 0⟩]⟩,
   ⟨18, [⟨31, 31, .rw, 0⟩, ⟨25, 16, .rw, 40⟩]⟩,
   ⟨19, [⟨31, 31, .ro, 0⟩, ⟨30, 30, .ro, 1⟩, ⟨22, 16, .ro, 0⟩, ⟨9, 0, .ro, 0⟩]⟩,
   ⟨20, [⟨22, 16, .rw, 127⟩, ⟨6, 6, .w1c, 0⟩, ⟨5, 5, .w1c, 0⟩, ⟨4, 4, .w1c, 0⟩, ⟨3, 3, .w1c, 0⟩, ⟨2, 2, .w1c, 0⟩, ⟨1, 1, .w1c, 0⟩, ⟨0, 0, .w1c, 0⟩]⟩,
   ⟨21, [⟨31, 0, .ro, 0⟩]⟩,
   ⟨22, [⟨31, 0, .ro, 0⟩]⟩,
   ⟨23, [⟨31, 0, .rw, 0⟩]⟩,
   ⟨24, [⟨31, 0, .rw, 0⟩]⟩,
   ⟨25, [⟨31, 0, .rw, 0⟩]⟩,
   ⟨26, [⟨31, 0, .rw, 0⟩]⟩,
   ⟨27, [⟨12, 0, .rw, 0⟩]⟩,
   ⟨28, [⟨31, 0, .rw, 0⟩]⟩,
   ⟨29, [⟨31, 0, .rw, 0⟩]⟩,
   ⟨30, [⟨31, 0, .ro, 0⟩]⟩,
   ⟨31, [⟨31, 0, .ro, 0⟩]⟩] ++
  [⟨32, [⟨31, 0, .ro, 0⟩]⟩,
   ⟨33, [⟨31, 0, .ro, 0⟩]⟩,
   ⟨34, [⟨31, 28, .ro, 0⟩, ⟨15, 0, .ro, 0⟩]⟩,
   ⟨35, [⟨31, 28, .ro, 0⟩, ⟨15, 0, .ro, 0⟩]⟩,
   ⟨36, [⟨31, 28, .ro, 0⟩, ⟨15, 0, .ro, 0⟩]⟩,
   ⟨37, [⟨31, 28, .ro, 0⟩, ⟨15, 0, .ro, 0⟩]⟩,
   ⟨38, [⟨31, 28, .ro, 0⟩, ⟨15, 0, .ro, 0⟩]⟩,
   ⟨39, [⟨31, 28, .ro, 0⟩, ⟨15, 0, .ro, 0⟩]⟩,
   ⟨40, [⟨31, 28, .ro, 0⟩, ⟨15, 0, .ro, 0⟩]⟩,
   ⟨41, [⟨31, 28, .ro, 0⟩, ⟨15, 0, .ro, 0⟩]⟩,
   ⟨42, [⟨31, 0, .ro, 0⟩]⟩,
   ⟨43, [⟨31, 0, .ro, 0⟩]⟩,
   ⟨44, [⟨31, 0, .ro, 0⟩]⟩,
   ⟨45, [⟨31, 0, .ro, 0⟩]⟩,
   ⟨46, [⟨31, 0, .ro, 0⟩]⟩,
   ⟨47, [⟨31, 0, .ro, 0⟩]⟩] ++
  [⟨48, [⟨31, 0, .ro, 0⟩]⟩,
   ⟨49, [⟨31, 0, .ro, 0⟩]⟩,
   ⟨50, [⟨31, 0, .ro, 0⟩]⟩,
   ⟨51, [⟨31, 0, .ro, 0⟩]⟩,
   ⟨52, [⟨31, 0, .ro, 0⟩]⟩,
   ⟨53, [⟨31, 0, .ro, 0⟩]⟩,
   ⟨54, [⟨31, 0, .ro, 0⟩]⟩,
   ⟨55, [⟨31, 0, .ro, 0⟩]⟩]

/-- The block registers of the hp1 pages (11_host_port.md R275 and the field tables of that chapter). -/
def regs_hp1 : List RegD :=
  [⟨16, [⟨31, 30, .ro, 0⟩, ⟨29, 28, .ro, 0⟩, ⟨27, 16, .ro, 0⟩, ⟨12, 0, .ro, 0⟩]⟩,
   ⟨17, [⟨31, 30, .ro, 0⟩, ⟨29, 28, .ro, 0⟩, ⟨27, 16, .ro, 0⟩, ⟨12, 0, .ro, 0⟩]⟩,
   ⟨18, [⟨31, 30, .ro, 0⟩, ⟨29, 28, .ro, 0⟩, ⟨27, 16, .ro, 0⟩, ⟨12, 0, .ro, 0⟩]⟩,
   ⟨19, [⟨31, 30, .ro, 0⟩, ⟨29, 28, .ro, 0⟩, ⟨27, 16, .ro, 0⟩, ⟨12, 0, .ro, 0⟩]⟩,
   ⟨20, [⟨31, 30, .ro, 0⟩, ⟨29, 28, .ro, 0⟩, ⟨27, 16, .ro, 0⟩, ⟨12, 0, .ro, 0⟩]⟩,
   ⟨21, [⟨31, 30, .ro, 0⟩, ⟨29, 28, .ro, 0⟩, ⟨27, 16, .ro, 0⟩, ⟨12, 0, .ro, 0⟩]⟩,
   ⟨22, [⟨31, 30, .ro, 0⟩, ⟨29, 28, .ro, 0⟩, ⟨27, 16, .ro, 0⟩, ⟨12, 0, .ro, 0⟩]⟩,
   ⟨23, [⟨31, 30, .ro, 0⟩, ⟨29, 28, .ro, 0⟩, ⟨27, 16, .ro, 0⟩, ⟨12, 0, .ro, 0⟩]⟩,
   ⟨24, [⟨31, 30, .ro, 0⟩, ⟨29, 28, .ro, 0⟩, ⟨27, 16, .ro, 0⟩, ⟨12, 0, .ro, 0⟩]⟩,
   ⟨25, [⟨31, 30, .ro, 0⟩, ⟨29, 28, .ro, 0⟩, ⟨27, 16, .ro, 0⟩, ⟨12, 0, .ro, 0⟩]⟩,
   ⟨26, [⟨31, 30, .ro, 0⟩, ⟨29, 28, .ro, 0⟩, ⟨27, 16, .ro, 0⟩, ⟨12, 0, .ro, 0⟩]⟩,
   ⟨27, [⟨31, 30, .ro, 0⟩, ⟨29, 28, .ro, 0⟩, ⟨27, 16, .ro, 0⟩, ⟨12, 0, .ro, 0⟩]⟩,
   ⟨28, [⟨31, 30, .ro, 0⟩, ⟨29, 28, .ro, 0⟩, ⟨27, 16, .ro, 0⟩, ⟨12, 0, .ro, 0⟩]⟩,
   ⟨29, [⟨31, 30, .ro, 0⟩, ⟨29, 28, .ro, 0⟩, ⟨27, 16, .ro, 0⟩, ⟨12, 0, .ro, 0⟩]⟩,
   ⟨30, [⟨31, 30, .ro, 0⟩, ⟨29, 28, .ro, 0⟩, ⟨27, 16, .ro, 0⟩, ⟨12, 0, .ro, 0⟩]⟩,
   ⟨31, [⟨31, 30, .ro, 0⟩, ⟨29, 28, .ro, 0⟩, ⟨27, 16, .ro, 0⟩, ⟨12, 0, .ro, 0⟩]⟩] ++
  [⟨32, [⟨31, 28, .ro, 0⟩, ⟨27, 16, .ro, 0⟩]⟩,
   ⟨33, [⟨31, 28, .ro, 0⟩, ⟨27, 16, .ro, 0⟩]⟩,
   ⟨34, [⟨31, 28, .ro, 0⟩, ⟨27, 16, .ro, 0⟩]⟩,
   ⟨35, [⟨31, 28, .ro, 0⟩, ⟨27, 16, .ro, 0⟩]⟩,
   ⟨36, [⟨31, 28, .ro, 0⟩, ⟨27, 16, .ro, 0⟩]⟩,
   ⟨37, [⟨31, 28, .ro, 0⟩, ⟨27, 16, .ro, 0⟩]⟩,
   ⟨38, [⟨31, 28, .ro, 0⟩, ⟨27, 16, .ro, 0⟩]⟩,
   ⟨39, [⟨31, 28, .ro, 0⟩, ⟨27, 16, .ro, 0⟩]⟩,
   ⟨40, [⟨31, 28, .ro, 0⟩, ⟨27, 16, .ro, 0⟩]⟩,
   ⟨41, [⟨31, 28, .ro, 0⟩, ⟨27, 16, .ro, 0⟩]⟩,
   ⟨42, [⟨31, 28, .ro, 0⟩, ⟨27, 16, .ro, 0⟩]⟩,
   ⟨43, [⟨31, 28, .ro, 0⟩, ⟨27, 16, .ro, 0⟩]⟩,
   ⟨44, [⟨31, 28, .ro, 0⟩, ⟨27, 16, .ro, 0⟩]⟩,
   ⟨45, [⟨31, 28, .ro, 0⟩, ⟨27, 16, .ro, 0⟩]⟩,
   ⟨46, [⟨31, 28, .ro, 0⟩, ⟨27, 16, .ro, 0⟩]⟩,
   ⟨47, [⟨31, 28, .ro, 0⟩, ⟨27, 16, .ro, 0⟩]⟩] ++
  [⟨48, [⟨15, 0, .ro, 0⟩]⟩,
   ⟨49, [⟨31, 0, .ro, 0⟩]⟩,
   ⟨50, [⟨31, 0, .ro, 0⟩]⟩,
   ⟨51, [⟨31, 0, .ro, 0⟩]⟩,
   ⟨52, [⟨31, 24, .ro, 0⟩, ⟨19, 16, .ro, 0⟩, ⟨15, 0, .ro, 0⟩]⟩,
   ⟨53, [⟨31, 0, .ro, 0⟩]⟩,
   ⟨54, [⟨31, 0, .ro, 0⟩]⟩,
   ⟨55, [⟨31, 0, .ro, 0⟩]⟩]

/-- The block registers of the hp2 pages (11_host_port.md R275 and the field tables of that chapter). -/
def regs_hp2 : List RegD :=
  [⟨16, [⟨31, 31, .ro, 0⟩, ⟨30, 30, .ro, 0⟩, ⟨27, 16, .ro, 0⟩, ⟨11, 0, .ro, 0⟩]⟩,
   ⟨17, [⟨31, 31, .ro, 0⟩, ⟨30, 30, .ro, 0⟩, ⟨27, 16, .ro, 0⟩, ⟨11, 0, .ro, 0⟩]⟩,
   ⟨18, [⟨31, 31, .ro, 0⟩, ⟨30, 30, .ro, 0⟩, ⟨27, 16, .ro, 0⟩, ⟨11, 0, .ro, 0⟩]⟩,
   ⟨19, [⟨31, 31, .ro, 0⟩, ⟨30, 30, .ro, 0⟩, ⟨27, 16, .ro, 0⟩, ⟨11, 0, .ro, 0⟩]⟩,
   ⟨20, [⟨31, 31, .ro, 0⟩, ⟨30, 30, .ro, 0⟩, ⟨27, 16, .ro, 0⟩, ⟨11, 0, .ro, 0⟩]⟩,
   ⟨21, [⟨31, 31, .ro, 0⟩, ⟨30, 30, .ro, 0⟩, ⟨27, 16, .ro, 0⟩, ⟨11, 0, .ro, 0⟩]⟩,
   ⟨22, [⟨31, 31, .ro, 0⟩, ⟨30, 30, .ro, 0⟩, ⟨27, 16, .ro, 0⟩, ⟨11, 0, .ro, 0⟩]⟩,
   ⟨23, [⟨31, 31, .ro, 0⟩, ⟨30, 30, .ro, 0⟩, ⟨27, 16, .ro, 0⟩, ⟨11, 0, .ro, 0⟩]⟩,
   ⟨24, [⟨31, 31, .ro, 0⟩, ⟨30, 30, .ro, 0⟩, ⟨27, 16, .ro, 0⟩, ⟨11, 0, .ro, 0⟩]⟩,
   ⟨25, [⟨31, 31, .ro, 0⟩, ⟨30, 30, .ro, 0⟩, ⟨27, 16, .ro, 0⟩, ⟨11, 0, .ro, 0⟩]⟩,
   ⟨26, [⟨31, 31, .ro, 0⟩, ⟨30, 30, .ro, 0⟩, ⟨27, 16, .ro, 0⟩, ⟨11, 0, .ro, 0⟩]⟩,
   ⟨27, [⟨31, 31, .ro, 0⟩, ⟨30, 30, .ro, 0⟩, ⟨27, 16, .ro, 0⟩, ⟨11, 0, .ro, 0⟩]⟩,
   ⟨28, [⟨31, 31, .ro, 0⟩, ⟨30, 30, .ro, 0⟩, ⟨27, 16, .ro, 0⟩, ⟨11, 0, .ro, 0⟩]⟩,
   ⟨29, [⟨31, 31, .ro, 0⟩, ⟨30, 30, .ro, 0⟩, ⟨27, 16, .ro, 0⟩, ⟨11, 0, .ro, 0⟩]⟩,
   ⟨30, [⟨31, 31, .ro, 0⟩, ⟨30, 30, .ro, 0⟩, ⟨27, 16, .ro, 0⟩, ⟨11, 0, .ro, 0⟩]⟩,
   ⟨31, [⟨31, 31, .ro, 0⟩, ⟨30, 30, .ro, 0⟩, ⟨27, 16, .ro, 0⟩, ⟨11, 0, .ro, 0⟩]⟩] ++
  [⟨32, [⟨31, 24, .ro, 0⟩, ⟨23, 16, .ro, 0⟩, ⟨7, 0, .ro, 0⟩]⟩,
   ⟨33, [⟨31, 24, .ro, 0⟩, ⟨23, 16, .ro, 0⟩, ⟨7, 0, .ro, 0⟩]⟩,
   ⟨34, [⟨31, 24, .ro, 0⟩, ⟨23, 16, .ro, 0⟩, ⟨7, 0, .ro, 0⟩]⟩,
   ⟨35, [⟨31, 24, .ro, 0⟩, ⟨23, 16, .ro, 0⟩, ⟨7, 0, .ro, 0⟩]⟩,
   ⟨36, [⟨31, 24, .ro, 0⟩, ⟨23, 16, .ro, 0⟩, ⟨7, 0, .ro, 0⟩]⟩,
   ⟨37, [⟨31, 24, .ro, 0⟩, ⟨23, 16, .ro, 0⟩, ⟨7, 0, .ro, 0⟩]⟩,
   ⟨38, [⟨31, 24, .ro, 0⟩, ⟨23, 16, .ro, 0⟩, ⟨7, 0, .ro, 0⟩]⟩,
   ⟨39, [⟨31, 24, .ro, 0⟩, ⟨23, 16, .ro, 0⟩, ⟨7, 0, .ro, 0⟩]⟩,
   ⟨40, [⟨31, 24, .ro, 0⟩, ⟨23, 16, .ro, 0⟩, ⟨7, 0, .ro, 0⟩]⟩,
   ⟨41, [⟨31, 24, .ro, 0⟩, ⟨23, 16, .ro, 0⟩, ⟨7, 0, .ro, 0⟩]⟩,
   ⟨42, [⟨31, 24, .ro, 0⟩, ⟨23, 16, .ro, 0⟩, ⟨7, 0, .ro, 0⟩]⟩,
   ⟨43, [⟨31, 24, .ro, 0⟩, ⟨23, 16, .ro, 0⟩, ⟨7, 0, .ro, 0⟩]⟩,
   ⟨44, [⟨31, 24, .ro, 0⟩, ⟨23, 16, .ro, 0⟩, ⟨7, 0, .ro, 0⟩]⟩,
   ⟨45, [⟨31, 24, .ro, 0⟩, ⟨23, 16, .ro, 0⟩, ⟨7, 0, .ro, 0⟩]⟩,
   ⟨46, [⟨31, 24, .ro, 0⟩, ⟨23, 16, .ro, 0⟩, ⟨7, 0, .ro, 0⟩]⟩,
   ⟨47, [⟨31, 24, .ro, 0⟩, ⟨23, 16, .ro, 0⟩, ⟨7, 0, .ro, 0⟩]⟩] ++
  [⟨48, [⟨31, 0, .ro, 0⟩]⟩,
   ⟨49, [⟨31, 0, .ro, 0⟩]⟩,
   ⟨50, [⟨31, 0, .ro, 0⟩]⟩,
   ⟨51, [⟨31, 0, .ro, 0⟩]⟩,
   ⟨52, [⟨31, 0, .ro, 0⟩]⟩,
   ⟨53, [⟨31, 0, .ro, 0⟩]⟩,
   ⟨54, [⟨31, 0, .ro, 0⟩]⟩,
   ⟨55, [⟨31, 0, .ro, 0⟩]⟩]

/-- The block registers of the hp3 pages (11_host_port.md R275 and the field tables of that chapter). -/
def regs_hp3 : List RegD :=
  [⟨16, [⟨31, 12, .rw, 0⟩]⟩,
   ⟨17, [⟨31, 0, .rw, 0⟩]⟩,
   ⟨18, [⟨31, 31, .rw, 0⟩, ⟨23, 16, .rw, 0⟩, ⟨12, 0, .rw, 0⟩]⟩,
   ⟨19, [⟨31, 16, .rw, 0⟩, ⟨7, 0, .rw, 0⟩]⟩,
   ⟨20, [⟨31, 31, .ro, 1⟩, ⟨30, 30, .ro, 0⟩, ⟨27, 16, .ro, 0⟩, ⟨11, 0, .ro, 0⟩]⟩,
   ⟨21, [⟨31, 0, .ro, 0⟩]⟩,
   ⟨22, [⟨31, 0, .ro, 0⟩]⟩,
   ⟨23, [⟨31, 0, .ro, 0⟩]⟩,
   ⟨24, [⟨31, 0, .ro, 0⟩]⟩,
   ⟨25, [⟨9, 0, .ro, 0⟩]⟩,
   ⟨26, [⟨31, 12, .rw, 0⟩]⟩,
   ⟨27, [⟨31, 0, .rw, 0⟩]⟩,
   ⟨28, [⟨31, 31, .rw, 0⟩, ⟨23, 16, .rw, 0⟩, ⟨12, 0, .rw, 0⟩]⟩,
   ⟨29, [⟨31, 16, .rw, 0⟩, ⟨7, 0, .rw, 0⟩]⟩,
   ⟨30, [⟨31, 31, .ro, 1⟩, ⟨30, 30, .ro, 0⟩, ⟨27, 16, .ro, 0⟩, ⟨11, 0, .ro, 0⟩]⟩,
   ⟨31, [⟨31, 0, .ro, 0⟩]⟩] ++
  [⟨32, [⟨31, 0, .ro, 0⟩]⟩,
   ⟨33, [⟨31, 0, .ro, 0⟩]⟩,
   ⟨34, [⟨31, 0, .ro, 0⟩]⟩,
   ⟨35, [⟨9, 0, .ro, 0⟩]⟩,
   ⟨36, [⟨31, 12, .rw, 0⟩]⟩,
   ⟨37, [⟨31, 0, .rw, 0⟩]⟩,
   ⟨38, [⟨31, 31, .rw, 0⟩, ⟨23, 16, .rw, 0⟩, ⟨12, 0, .rw, 0⟩]⟩,
   ⟨39, [⟨31, 16, .rw, 0⟩, ⟨7, 0, .rw, 0⟩]⟩,
   ⟨40, [⟨31, 31, .ro, 1⟩, ⟨30, 30, .ro, 0⟩, ⟨27, 16, .ro, 0⟩, ⟨11, 0, .ro, 0⟩]⟩,
   ⟨41, [⟨31, 0, .ro, 0⟩]⟩,
   ⟨42, [⟨31, 0, .ro, 0⟩]⟩,
   ⟨43, [⟨31, 0, .ro, 0⟩]⟩,
   ⟨44, [⟨31, 0, .ro, 0⟩]⟩,
   ⟨45, [⟨9, 0, .ro, 0⟩]⟩,
   ⟨46, [⟨31, 12, .rw, 0⟩]⟩,
   ⟨47, [⟨31, 0, .rw, 0⟩]⟩] ++
  [⟨48, [⟨31, 31, .rw, 0⟩, ⟨23, 16, .rw, 0⟩, ⟨12, 0, .rw, 0⟩]⟩,
   ⟨49, [⟨31, 16, .rw, 0⟩, ⟨7, 0, .rw, 0⟩]⟩,
   ⟨50, [⟨31, 31, .ro, 1⟩, ⟨30, 30, .ro, 0⟩, ⟨27, 16, .ro, 0⟩, ⟨11, 0, .ro, 0⟩]⟩,
   ⟨51, [⟨31, 0, .ro, 0⟩]⟩,
   ⟨52, [⟨31, 0, .ro, 0⟩]⟩,
   ⟨53, [⟨31, 0, .ro, 0⟩]⟩,
   ⟨54, [⟨31, 0, .ro, 0⟩]⟩,
   ⟨55, [⟨9, 0, .ro, 0⟩]⟩]

/-- The block registers of the ext pages (14_external_memory_and_inline_crypto.md R340 and the field tables of that chapter). -/
def regs_ext : List RegD :=
  [⟨16, [⟨31, 30, .rw, 3⟩, ⟨9, 0, .rw, 40⟩]⟩,
   ⟨17, [⟨31, 29, .ro, 0⟩, ⟨28, 27, .ro, 0⟩, ⟨26, 22, .ro, 0⟩, ⟨21, 20, .ro, 0⟩]⟩,
   ⟨18, [⟨25, 16, .rw, 958⟩, ⟨9, 9, .w1c, 0⟩, ⟨8, 8, .w1c, 0⟩, ⟨7, 7, .w1c, 0⟩, ⟨6, 6, .w1c, 0⟩, ⟨5, 5, .w1c, 0⟩, ⟨4, 4, .w1c, 0⟩, ⟨3, 3, .w1c, 0⟩, ⟨2, 2, .w1c, 0⟩, ⟨1, 1, .w1c, 0⟩, ⟨0, 0, .w1c, 0⟩]⟩,
   ⟨19, [⟨31, 31, .ro, 0⟩, ⟨21, 0, .ro, 0⟩]⟩,
   ⟨20, [⟨23, 16, .ro, 0⟩, ⟨6, 0, .ro, 0⟩]⟩,
   ⟨21, [⟨31, 0, .ro, 0⟩]⟩,
   ⟨22, [⟨31, 0, .ro, 0⟩]⟩,
   ⟨23, [⟨31, 0, .ro, 0⟩]⟩,
   ⟨24, [⟨31, 0, .ro, 0⟩]⟩,
   ⟨25, [⟨31, 0, .ro, 0⟩]⟩,
   ⟨26, [⟨31, 0, .ro, 0⟩]⟩,
   ⟨27, [⟨31, 0, .ro, 0⟩]⟩,
   ⟨28, [⟨31, 0, .ro, 0⟩]⟩,
   ⟨29, [⟨31, 0, .ro, 0⟩]⟩,
   ⟨30, [⟨31, 0, .ro, 0⟩]⟩,
   ⟨31, [⟨31, 24, .ro, 0⟩, ⟨8, 8, .wo, 0⟩, ⟨3, 0, .rw, 0⟩]⟩] ++
  [⟨32, [⟨31, 0, .ro, 0⟩]⟩,
   ⟨33, [⟨31, 0, .ro, 0⟩]⟩,
   ⟨34, [⟨31, 31, .ro, 0⟩, ⟨30, 29, .ro, 0⟩, ⟨18, 9, .ro, 0⟩]⟩,
   ⟨35, [⟨31, 30, .ro, 0⟩, ⟨9, 0, .ro, 0⟩]⟩,
   ⟨36, [⟨25, 16, .ro, 0⟩, ⟨7, 0, .ro, 0⟩]⟩,
   ⟨37, [⟨25, 16, .ro, 0⟩, ⟨7, 0, .ro, 0⟩]⟩,
   ⟨38, [⟨25, 16, .ro, 0⟩, ⟨7, 0, .ro, 0⟩]⟩,
   ⟨39, [⟨25, 16, .ro, 0⟩, ⟨7, 0, .ro, 0⟩]⟩,
   ⟨40, [⟨25, 16, .ro, 0⟩, ⟨7, 0, .ro, 0⟩]⟩,
   ⟨41, [⟨25, 16, .ro, 0⟩, ⟨7, 0, .ro, 0⟩]⟩,
   ⟨42, [⟨25, 16, .ro, 0⟩, ⟨7, 0, .ro, 0⟩]⟩,
   ⟨43, [⟨25, 16, .ro, 0⟩, ⟨7, 0, .ro, 0⟩]⟩,
   ⟨44, [⟨2, 0, .ro, 0⟩]⟩,
   ⟨45, [⟨0, 0, .rw, 1⟩]⟩,
   ⟨46, [⟨31, 31, .ro, 0⟩]⟩,
   ⟨47, [⟨0, 0, .ro, 0⟩]⟩]

/-- The block registers of the cry pages (14_external_memory_and_inline_crypto.md R340 and the field tables of that chapter). -/
def regs_cry : List RegD :=
  [⟨16, [⟨5, 4, .rw, 0⟩, ⟨1, 0, .rw, 0⟩]⟩,
   ⟨17, [⟨31, 31, .ro, 0⟩, ⟨30, 30, .ro, 0⟩, ⟨4, 0, .ro, 0⟩]⟩,
   ⟨18, [⟨20, 16, .rw, 0⟩, ⟨4, 4, .w1c, 0⟩, ⟨3, 3, .w1c, 0⟩, ⟨2, 2, .w1c, 0⟩, ⟨1, 1, .w1c, 0⟩, ⟨0, 0, .w1c, 0⟩]⟩,
   ⟨19, [⟨31, 31, .wo, 0⟩, ⟨10, 8, .rw, 2⟩, ⟨4, 0, .rw, 0⟩]⟩,
   ⟨20, [⟨17, 0, .ro, 0⟩]⟩,
   ⟨21, [⟨4, 0, .rw, 0⟩]⟩,
   ⟨22, [⟨31, 31, .ro, 0⟩, ⟨30, 30, .ro, 0⟩, ⟨29, 29, .ro, 0⟩, ⟨7, 0, .ro, 0⟩]⟩,
   ⟨23, [⟨31, 0, .ro, 0⟩]⟩,
   ⟨24, [⟨31, 0, .ro, 0⟩]⟩,
   ⟨25, [⟨31, 0, .ro, 0⟩]⟩,
   ⟨26, [⟨31, 0, .ro, 0⟩]⟩,
   ⟨27, [⟨31, 0, .ro, 0⟩]⟩,
   ⟨28, [⟨31, 0, .ro, 0⟩]⟩,
   ⟨29, [⟨31, 0, .ro, 0⟩]⟩,
   ⟨30, [⟨31, 0, .ro, 0⟩]⟩,
   ⟨31, [⟨31, 0, .ro, 0⟩]⟩] ++
  [⟨32, [⟨31, 0, .ro, 0⟩]⟩,
   ⟨33, [⟨31, 0, .ro, 0⟩]⟩,
   ⟨34, [⟨31, 0, .ro, 0⟩]⟩,
   ⟨35, [⟨31, 0, .ro, 0⟩]⟩,
   ⟨36, [⟨31, 0, .ro, 0⟩]⟩,
   ⟨37, [⟨31, 0, .ro, 0⟩]⟩,
   ⟨38, [⟨31, 0, .ro, 0⟩]⟩,
   ⟨39, [⟨31, 0, .ro, 0⟩]⟩,
   ⟨40, [⟨31, 0, .ro, 0⟩]⟩,
   ⟨41, [⟨7, 0, .ro, 0⟩]⟩,
   ⟨42, [⟨31, 31, .ro, 0⟩]⟩,
   ⟨43, [⟨31, 0, .ro, 0⟩]⟩,
   ⟨44, [⟨31, 31, .ro, 0⟩, ⟨1, 0, .ro, 0⟩]⟩,
   ⟨45, [⟨31, 0, .ro, 0⟩]⟩,
   ⟨46, [⟨31, 31, .ro, 0⟩, ⟨30, 30, .ro, 0⟩]⟩,
   ⟨47, [⟨31, 31, .ro, 0⟩]⟩]

/-- The block registers of the ctr pages (14_external_memory_and_inline_crypto.md R340 and the field tables of that chapter). -/
def regs_ctr : List RegD :=
  [⟨16, [⟨31, 30, .ro, 0⟩, ⟨15, 0, .ro, 0⟩]⟩,
   ⟨17, [⟨17, 16, .rw, 0⟩, ⟨1, 1, .w1c, 0⟩, ⟨0, 0, .w1c, 0⟩]⟩,
   ⟨18, [⟨31, 0, .ro, 0⟩]⟩,
   ⟨19, [⟨31, 0, .ro, 0⟩]⟩,
   ⟨20, [⟨8, 8, .wo, 0⟩, ⟨3, 0, .rw, 0⟩]⟩,
   ⟨21, [⟨31, 31, .ro, 0⟩, ⟨30, 30, .ro, 0⟩, ⟨1, 0, .ro, 0⟩]⟩,
   ⟨22, [⟨31, 0, .ro, 0⟩]⟩,
   ⟨23, [⟨31, 0, .ro, 0⟩]⟩,
   ⟨24, [⟨31, 0, .ro, 0⟩]⟩,
   ⟨25, [⟨31, 0, .ro, 0⟩]⟩,
   ⟨26, [⟨31, 0, .ro, 0⟩]⟩,
   ⟨27, [⟨31, 0, .ro, 0⟩]⟩,
   ⟨28, [⟨31, 0, .ro, 0⟩]⟩,
   ⟨29, [⟨31, 0, .ro, 0⟩]⟩,
   ⟨30, [⟨31, 0, .ro, 0⟩]⟩,
   ⟨31, [⟨31, 0, .ro, 0⟩]⟩] ++
  [⟨32, [⟨31, 0, .ro, 0⟩]⟩,
   ⟨33, [⟨31, 0, .ro, 0⟩]⟩,
   ⟨34, [⟨31, 0, .ro, 0⟩]⟩,
   ⟨35, [⟨31, 0, .ro, 0⟩]⟩,
   ⟨36, [⟨31, 0, .ro, 0⟩]⟩,
   ⟨37, [⟨31, 0, .ro, 0⟩]⟩,
   ⟨38, [⟨31, 0, .ro, 0⟩]⟩,
   ⟨39, [⟨31, 0, .ro, 0⟩]⟩,
   ⟨40, [⟨0, 0, .wo, 0⟩]⟩,
   ⟨41, [⟨31, 0, .ro, 0⟩]⟩,
   ⟨42, [⟨31, 0, .ro, 0⟩]⟩,
   ⟨43, [⟨31, 0, .ro, 0⟩]⟩,
   ⟨44, [⟨31, 0, .ro, 0⟩]⟩,
   ⟨45, [⟨31, 0, .ro, 0⟩]⟩,
   ⟨46, [⟨31, 0, .ro, 0⟩]⟩,
   ⟨47, [⟨31, 0, .ro, 0⟩]⟩]

/-- The block registers of the fl pages (15_machine_io.md R362 and the field tables of that chapter). -/
def regs_fl : List RegD :=
  [⟨16, [⟨26, 0, .rw, 0⟩]⟩,
   ⟨17, [⟨1, 0, .wo, 0⟩]⟩,
   ⟨18, [⟨31, 31, .ro, 0⟩, ⟨30, 30, .ro, 0⟩, ⟨1, 0, .ro, 0⟩]⟩,
   ⟨19, [⟨19, 16, .rw, 0⟩, ⟨3, 3, .w1c, 0⟩, ⟨2, 2, .w1c, 0⟩, ⟨1, 1, .w1c, 0⟩, ⟨0, 0, .w1c, 0⟩]⟩,
   ⟨20, [⟨31, 0, .ro, 0⟩]⟩,
   ⟨21, [⟨31, 0, .ro, 0⟩]⟩,
   ⟨22, [⟨26, 0, .ro, 0⟩]⟩,
   ⟨23, [⟨31, 0, .ro, 0⟩]⟩,
   ⟨24, [⟨31, 0, .ro, 0⟩]⟩,
   ⟨25, [⟨31, 0, .ro, 0⟩]⟩,
   ⟨26, [⟨23, 16, .ro, 0⟩, ⟨15, 0, .ro, 0⟩]⟩,
   ⟨27, [⟨31, 0, .ro, 0⟩]⟩]

/-- The block registers of the eth pages (15_machine_io.md R358 and the field tables of that chapter). -/
def regs_eth : List RegD :=
  [⟨16, [⟨31, 31, .rw, 0⟩, ⟨2, 2, .rw, 0⟩, ⟨1, 0, .rw, 0⟩]⟩,
   ⟨17, [⟨31, 31, .ro, 0⟩, ⟨30, 30, .ro, 0⟩, ⟨29, 29, .ro, 0⟩, ⟨28, 28, .ro, 0⟩]⟩,
   ⟨18, [⟨22, 16, .rw, 0⟩, ⟨6, 6, .w1c, 0⟩, ⟨5, 5, .w1c, 0⟩, ⟨4, 4, .w1c, 0⟩, ⟨3, 3, .w1c, 0⟩, ⟨2, 2, .w1c, 0⟩, ⟨1, 1, .w1c, 0⟩, ⟨0, 0, .w1c, 0⟩]⟩,
   ⟨19, [⟨31, 0, .rw, 0⟩]⟩,
   ⟨20, [⟨31, 0, .rw, 0⟩]⟩,
   ⟨21, [⟨13, 0, .rw, 1522⟩]⟩,
   ⟨22, [⟨31, 0, .rw, 0⟩]⟩,
   ⟨23, [⟨31, 0, .rw, 0⟩]⟩,
   ⟨24, [⟨31, 31, .rw, 0⟩, ⟨8, 8, .wo, 0⟩, ⟨1, 1, .ro, 0⟩, ⟨0, 0, .ro, 0⟩]⟩,
   ⟨25, [⟨31, 0, .rw, 0⟩]⟩,
   ⟨26, [⟨31, 0, .rw, 0⟩]⟩,
   ⟨27, [⟨31, 0, .rw, 0⟩]⟩,
   ⟨28, [⟨8, 0, .rw, 0⟩]⟩,
   ⟨29, [⟨31, 0, .ro, 0⟩]⟩,
   ⟨30, [⟨31, 0, .ro, 0⟩]⟩,
   ⟨31, [⟨31, 0, .rw, 0⟩]⟩] ++
  [⟨32, [⟨31, 0, .rw, 0⟩]⟩,
   ⟨33, [⟨31, 0, .rw, 0⟩]⟩,
   ⟨34, [⟨31, 0, .rw, 0⟩]⟩,
   ⟨35, [⟨15, 8, .ro, 0⟩, ⟨7, 0, .ro, 0⟩]⟩,
   ⟨36, [⟨31, 16, .ro, 0⟩, ⟨15, 0, .ro, 0⟩]⟩,
   ⟨40, [⟨31, 0, .ro, 0⟩]⟩,
   ⟨41, [⟨31, 0, .ro, 0⟩]⟩,
   ⟨42, [⟨31, 0, .ro, 0⟩]⟩,
   ⟨43, [⟨31, 0, .ro, 0⟩]⟩,
   ⟨44, [⟨31, 0, .ro, 0⟩]⟩,
   ⟨45, [⟨31, 0, .ro, 0⟩]⟩,
   ⟨46, [⟨31, 0, .ro, 0⟩]⟩,
   ⟨47, [⟨31, 0, .ro, 0⟩]⟩,
   ⟨48, [⟨31, 0, .ro, 0⟩]⟩,
   ⟨49, [⟨31, 0, .ro, 0⟩]⟩,
   ⟨50, [⟨31, 0, .ro, 0⟩]⟩] ++
  [⟨51, [⟨31, 0, .ro, 0⟩]⟩,
   ⟨52, [⟨31, 0, .ro, 0⟩]⟩,
   ⟨53, [⟨31, 0, .ro, 0⟩]⟩,
   ⟨54, [⟨31, 0, .ro, 0⟩]⟩,
   ⟨55, [⟨31, 0, .ro, 0⟩]⟩,
   ⟨56, [⟨31, 0, .ro, 0⟩]⟩,
   ⟨57, [⟨31, 0, .ro, 0⟩]⟩,
   ⟨58, [⟨31, 0, .ro, 0⟩]⟩,
   ⟨59, [⟨31, 0, .ro, 0⟩]⟩,
   ⟨60, [⟨31, 0, .ro, 0⟩]⟩,
   ⟨61, [⟨31, 0, .ro, 0⟩]⟩,
   ⟨62, [⟨31, 0, .ro, 0⟩]⟩,
   ⟨63, [⟨31, 0, .ro, 0⟩]⟩]

/-- The block registers of the ser pages (15_machine_io.md R351 and the field tables of that chapter). -/
def regs_ser : List RegD :=
  [⟨16, [⟨1, 0, .rw, 0⟩, ⟨4, 4, .rw, 0⟩]⟩,
   ⟨17, [⟨15, 0, .rw, 2604⟩]⟩,
   ⟨18, [⟨3, 0, .rw, 8⟩, ⟨5, 4, .rw, 0⟩, ⟨6, 6, .rw, 0⟩]⟩,
   ⟨19, [⟨31, 31, .ro, 0⟩, ⟨22, 16, .ro, 0⟩, ⟨6, 0, .ro, 0⟩]⟩,
   ⟨20, [⟨20, 16, .rw, 30⟩, ⟨4, 4, .w1c, 0⟩, ⟨3, 3, .w1c, 0⟩, ⟨2, 2, .w1c, 0⟩, ⟨1, 1, .w1c, 0⟩, ⟨0, 0, .w1c, 0⟩]⟩,
   ⟨21, [⟨31, 0, .wo, 0⟩]⟩,
   ⟨22, [⟨31, 0, .ro, 0⟩]⟩,
   ⟨23, [⟨1, 0, .rw, 0⟩, ⟨12, 8, .rw, 0⟩, ⟨31, 16, .rw, 0⟩]⟩,
   ⟨24, [⟨31, 0, .ro, 0⟩]⟩,
   ⟨25, [⟨31, 0, .ro, 0⟩]⟩]

/-- The block registers of the io pages (15_machine_io.md R354 and the field tables of that chapter). -/
def regs_io : List RegD :=
  [⟨16, [⟨5, 0, .ro, 0⟩, ⟨10, 8, .ro, 0⟩, ⟨14, 12, .ro, 0⟩]⟩,
   ⟨17, [⟨2, 0, .rw, 0⟩]⟩,
   ⟨18, [⟨19, 16, .rw, 15⟩, ⟨3, 3, .w1c, 0⟩, ⟨2, 2, .w1c, 0⟩, ⟨1, 1, .w1c, 0⟩, ⟨0, 0, .w1c, 0⟩]⟩,
   ⟨19, [⟨5, 0, .rw, 0⟩]⟩,
   ⟨20, [⟨31, 31, .ro, 0⟩, ⟨24, 16, .ro, 0⟩, ⟨8, 0, .rw, 0⟩]⟩,
   ⟨21, [⟨31, 0, .ro, 0⟩]⟩,
   ⟨22, [⟨15, 0, .ro, 0⟩]⟩,
   ⟨23, [⟨31, 31, .ro, 0⟩, ⟨7, 0, .ro, 0⟩]⟩,
   ⟨24, [⟨31, 31, .rw, 0⟩, ⟨1, 0, .rw, 0⟩]⟩,
   ⟨25, [⟨31, 31, .wo, 0⟩, ⟨14, 12, .wo, 0⟩, ⟨10, 8, .wo, 0⟩, ⟨6, 0, .wo, 0⟩]⟩,
   ⟨26, [⟨31, 0, .rw, 0⟩]⟩,
   ⟨27, [⟨31, 31, .ro, 0⟩, ⟨2, 0, .ro, 0⟩]⟩]

/-- The block registers of the lnk pages (12_device_link_fabric.md R299 and the field tables of that chapter). -/
def regs_lnk : List RegD :=
  [⟨16, [⟨31, 31, .rw, 0⟩, ⟨30, 30, .rw, 0⟩, ⟨29, 29, .rw, 1⟩, ⟨28, 28, .rw, 1⟩, ⟨27, 27, .rw, 0⟩, ⟨26, 26, .wo, 0⟩]⟩,
   ⟨17, [⟨31, 28, .ro, 0⟩, ⟨27, 27, .ro, 0⟩, ⟨26, 26, .ro, 0⟩]⟩,
   ⟨18, [⟨24, 16, .rw, 447⟩, ⟨8, 8, .w1c, 0⟩, ⟨7, 7, .w1c, 0⟩, ⟨6, 6, .w1c, 0⟩, ⟨5, 5, .w1c, 0⟩, ⟨4, 4, .w1c, 0⟩, ⟨3, 3, .w1c, 0⟩, ⟨2, 2, .w1c, 0⟩, ⟨1, 1, .w1c, 0⟩, ⟨0, 0, .w1c, 0⟩]⟩,
   ⟨19, [⟨31, 31, .ro, 0⟩, ⟨30, 30, .ro, 0⟩, ⟨27, 24, .ro, 0⟩, ⟨13, 0, .ro, 0⟩]⟩,
   ⟨20, [⟨31, 0, .ro, 0⟩]⟩,
   ⟨21, [⟨31, 16, .ro, 0⟩, ⟨15, 0, .ro, 0⟩]⟩,
   ⟨22, [⟨31, 0, .ro, 0⟩]⟩,
   ⟨23, [⟨28, 16, .ro, 0⟩, ⟨8, 0, .ro, 0⟩]⟩,
   ⟨24, [⟨31, 0, .ro, 0⟩]⟩,
   ⟨25, [⟨31, 0, .ro, 0⟩]⟩,
   ⟨26, [⟨31, 0, .ro, 0⟩]⟩,
   ⟨27, [⟨31, 0, .ro, 0⟩]⟩,
   ⟨28, [⟨31, 30, .ro, 0⟩, ⟨23, 16, .ro, 0⟩]⟩,
   ⟨29, [⟨31, 0, .ro, 0⟩]⟩,
   ⟨30, [⟨31, 0, .ro, 0⟩]⟩,
   ⟨31, [⟨31, 31, .rw, 0⟩, ⟨27, 24, .rw, 15⟩, ⟨23, 16, .rw, 50⟩, ⟨13, 0, .rw, 0⟩]⟩] ++
  [⟨32, [⟨31, 30, .ro, 0⟩, ⟨29, 26, .ro, 0⟩, ⟨9, 9, .wo, 0⟩, ⟨8, 8, .rw, 0⟩, ⟨6, 0, .rw, 0⟩]⟩,
   ⟨33, [⟨31, 31, .rw, 0⟩, ⟨13, 0, .rw, 0⟩]⟩,
   ⟨34, [⟨31, 0, .rw, 0⟩]⟩,
   ⟨35, [⟨25, 16, .rw, 0⟩, ⟨11, 2, .rw, 0⟩]⟩]

/-- The block registers of the ln pages (13_serial_lanes.md R315 and the field tables of that chapter). -/
def regs_ln : List RegD :=
  [⟨16, [⟨29, 28, .rw, 2⟩, ⟨9, 9, .rw, 0⟩, ⟨8, 8, .rw, 0⟩]⟩,
   ⟨17, [⟨31, 28, .ro, 0⟩, ⟨27, 26, .ro, 0⟩, ⟨25, 25, .ro, 0⟩, ⟨24, 24, .ro, 0⟩, ⟨23, 23, .ro, 0⟩, ⟨22, 22, .ro, 0⟩, ⟨21, 21, .ro, 0⟩, ⟨20, 20, .ro, 0⟩]⟩,
   ⟨18, [⟨24, 16, .rw, 191⟩, ⟨8, 8, .w1c, 0⟩, ⟨7, 7, .w1c, 0⟩, ⟨6, 6, .w1c, 0⟩, ⟨5, 5, .w1c, 0⟩, ⟨4, 4, .w1c, 0⟩, ⟨3, 3, .w1c, 0⟩, ⟨2, 2, .w1c, 0⟩, ⟨1, 1, .w1c, 0⟩, ⟨0, 0, .w1c, 0⟩]⟩,
   ⟨19, [⟨21, 16, .rw, 51⟩, ⟨12, 8, .rw, 8⟩, ⟨3, 0, .rw, 4⟩]⟩,
   ⟨20, [⟨31, 31, .rw, 1⟩, ⟨30, 30, .rw, 0⟩, ⟨29, 29, .rw, 0⟩, ⟨19, 16, .rw, 0⟩, ⟨15, 0, .rw, 20⟩]⟩,
   ⟨21, [⟨3, 0, .ro, 0⟩]⟩,
   ⟨22, [⟨31, 0, .ro, 0⟩]⟩,
   ⟨23, [⟨7, 0, .ro, 0⟩]⟩,
   ⟨24, [⟨31, 16, .ro, 0⟩, ⟨6, 0, .ro, 0⟩]⟩,
   ⟨25, [⟨31, 31, .ro, 0⟩, ⟨30, 23, .ro, 0⟩, ⟨22, 16, .ro, 0⟩, ⟨9, 0, .ro, 0⟩]⟩,
   ⟨26, [⟨31, 31, .rw, 1⟩, ⟨22, 16, .rw, 20⟩, ⟨9, 0, .rw, 30⟩]⟩,
   ⟨27, [⟨22, 16, .rw, 64⟩, ⟨9, 0, .rw, 1023⟩]⟩,
   ⟨28, [⟨31, 30, .rw, 0⟩, ⟨29, 27, .rw, 0⟩, ⟨26, 24, .rw, 0⟩, ⟨23, 23, .wo, 0⟩, ⟨22, 22, .wo, 0⟩]⟩,
   ⟨29, [⟨31, 0, .ro, 0⟩]⟩,
   ⟨30, [⟨31, 0, .ro, 0⟩]⟩,
   ⟨31, [⟨31, 0, .ro, 0⟩]⟩] ++
  [⟨32, [⟨31, 16, .ro, 0⟩, ⟨15, 0, .ro, 0⟩]⟩,
   ⟨33, [⟨21, 16, .rc, 0⟩, ⟨13, 8, .rc, 0⟩, ⟨5, 0, .ro, 0⟩]⟩,
   ⟨34, [⟨31, 0, .ro, 0⟩]⟩,
   ⟨35, [⟨31, 0, .ro, 0⟩]⟩,
   ⟨36, [⟨31, 0, .ro, 0⟩]⟩,
   ⟨37, [⟨18, 16, .ro, 0⟩, ⟨4, 0, .ro, 0⟩]⟩,
   ⟨38, [⟨31, 31, .rw, 0⟩]⟩,
   ⟨39, [⟨31, 31, .ro, 0⟩, ⟨30, 30, .ro, 0⟩]⟩,
   ⟨40, [⟨31, 0, .ro, 0⟩]⟩,
   ⟨41, [⟨31, 0, .ro, 0⟩]⟩,
   ⟨42, [⟨31, 0, .ro, 0⟩]⟩,
   ⟨43, [⟨31, 0, .ro, 0⟩]⟩]

/-- The block registers of the rgn pages (04_contexts.md R120 and the field tables of that chapter). -/
def regs_rgn : List RegD :=
  [⟨16, [⟨19, 17, .ro, 0⟩, ⟨16, 16, .ro, 0⟩, ⟨12, 12, .ro, 0⟩, ⟨11, 10, .ro, 0⟩, ⟨9, 8, .ro, 0⟩, ⟨7, 4, .ro, 0⟩, ⟨3, 0, .ro, 0⟩]⟩,
   ⟨17, [⟨15, 14, .rw, 1⟩, ⟨12, 12, .rw, 1⟩, ⟨11, 11, .rw, 0⟩, ⟨10, 8, .rw, 0⟩, ⟨3, 3, .rw, 0⟩, ⟨2, 0, .rw, 0⟩]⟩,
   ⟨18, [⟨31, 31, .ro, 0⟩, ⟨3, 3, .wo, 0⟩, ⟨2, 0, .rw, 0⟩]⟩,
   ⟨19, [⟨31, 16, .ro, 0⟩, ⟨12, 12, .ro, 0⟩, ⟨11, 11, .ro, 0⟩, ⟨10, 8, .ro, 0⟩, ⟨6, 4, .ro, 0⟩, ⟨2, 0, .ro, 0⟩]⟩,
   ⟨20, [⟨30, 28, .ro, 7⟩, ⟨26, 24, .ro, 7⟩, ⟨22, 20, .ro, 7⟩, ⟨18, 16, .ro, 7⟩, ⟨14, 12, .ro, 7⟩, ⟨10, 8, .ro, 7⟩, ⟨6, 4, .ro, 7⟩, ⟨2, 0, .ro, 7⟩]⟩,
   ⟨21, [⟨31, 16, .ro, 0⟩, ⟨15, 0, .ro, 0⟩]⟩,
   ⟨22, [⟨31, 16, .ro, 0⟩, ⟨15, 0, .ro, 0⟩]⟩,
   ⟨23, [⟨31, 16, .ro, 0⟩, ⟨15, 0, .ro, 0⟩]⟩,
   ⟨24, [⟨31, 16, .ro, 0⟩, ⟨15, 0, .ro, 0⟩]⟩,
   ⟨25, [⟨31, 0, .rw, 0⟩]⟩,
   ⟨26, [⟨31, 0, .rw, 0⟩]⟩,
   ⟨27, [⟨8, 8, .ro, 0⟩, ⟨4, 4, .rw, 0⟩, ⟨2, 0, .rw, 0⟩]⟩,
   ⟨28, [⟨31, 0, .ro, 0⟩]⟩,
   ⟨29, [⟨31, 0, .ro, 0⟩]⟩,
   ⟨30, [⟨31, 0, .ro, 0⟩]⟩,
   ⟨31, [⟨31, 16, .ro, 0⟩, ⟨11, 8, .ro, 0⟩, ⟨6, 4, .ro, 0⟩, ⟨2, 0, .ro, 0⟩]⟩] ++
  [⟨32, [⟨31, 0, .ro, 0⟩]⟩,
   ⟨33, [⟨31, 0, .ro, 0⟩]⟩,
   ⟨34, [⟨19, 16, .rwl, 8⟩, ⟨15, 8, .ro, 0⟩, ⟨0, 0, .ro, 0⟩]⟩,
   ⟨35, [⟨23, 16, .rw, 0⟩, ⟨10, 8, .rw, 0⟩, ⟨0, 0, .wo, 0⟩]⟩,
   ⟨36, [⟨31, 31, .ro, 0⟩, ⟨30, 28, .ro, 0⟩, ⟨27, 20, .ro, 0⟩, ⟨19, 16, .ro, 0⟩]⟩,
   ⟨37, [⟨31, 0, .ro, 0⟩]⟩,
   ⟨38, [⟨21, 16, .rw, 62⟩, ⟨5, 5, .w1c, 0⟩, ⟨4, 4, .w1c, 0⟩, ⟨3, 3, .w1c, 0⟩, ⟨2, 2, .w1c, 0⟩, ⟨1, 1, .w1c, 0⟩, ⟨0, 0, .w1c, 0⟩]⟩,
   ⟨39, [⟨20, 16, .rw, 30⟩, ⟨4, 4, .w1c, 0⟩, ⟨3, 3, .w1c, 0⟩, ⟨2, 2, .w1c, 0⟩, ⟨1, 1, .w1c, 0⟩, ⟨0, 0, .w1c, 0⟩]⟩,
   ⟨40, [⟨31, 29, .ro, 0⟩, ⟨28, 28, .ro, 0⟩, ⟨27, 26, .ro, 0⟩, ⟨15, 0, .ro, 0⟩]⟩,
   ⟨41, [⟨31, 31, .ro, 0⟩, ⟨30, 24, .ro, 0⟩, ⟨15, 0, .ro, 0⟩]⟩,
   ⟨42, [⟨31, 0, .ro, 0⟩]⟩,
   ⟨43, [⟨2, 2, .ro, 0⟩, ⟨1, 1, .ro, 0⟩, ⟨0, 0, .wo, 0⟩]⟩,
   ⟨44, [⟨16, 16, .rw, 1⟩, ⟨11, 11, .wo, 0⟩, ⟨10, 8, .rw, 0⟩, ⟨5, 5, .wo, 0⟩, ⟨4, 4, .wo, 0⟩, ⟨2, 0, .rw, 0⟩]⟩,
   ⟨45, [⟨31, 31, .ro, 0⟩, ⟨30, 30, .ro, 0⟩, ⟨29, 29, .ro, 0⟩, ⟨28, 28, .ro, 0⟩, ⟨27, 27, .ro, 0⟩, ⟨26, 26, .ro, 0⟩, ⟨25, 25, .ro, 0⟩, ⟨24, 24, .ro, 0⟩, ⟨23, 21, .ro, 0⟩, ⟨20, 16, .ro, 0⟩, ⟨14, 8, .ro, 0⟩, ⟨7, 0, .ro, 0⟩]⟩,
   ⟨46, [⟨31, 16, .ro, 0⟩, ⟨14, 12, .ro, 0⟩, ⟨11, 11, .ro, 0⟩, ⟨10, 8, .ro, 0⟩, ⟨2, 0, .ro, 0⟩]⟩,
   ⟨47, [⟨31, 16, .rw, 0⟩, ⟨7, 0, .ro, 0⟩]⟩] ++
  [⟨48, [⟨23, 16, .rw, 252⟩, ⟨7, 7, .w1c, 0⟩, ⟨6, 6, .w1c, 0⟩, ⟨5, 5, .w1c, 0⟩, ⟨4, 4, .w1c, 0⟩, ⟨3, 3, .w1c, 0⟩, ⟨2, 2, .w1c, 0⟩, ⟨1, 1, .w1c, 0⟩, ⟨0, 0, .w1c, 0⟩]⟩,
   ⟨49, [⟨31, 0, .ro, 0⟩]⟩,
   ⟨50, [⟨31, 0, .ro, 0⟩]⟩,
   ⟨51, [⟨31, 30, .ro, 0⟩, ⟨29, 27, .ro, 0⟩, ⟨26, 24, .ro, 0⟩, ⟨23, 16, .ro, 0⟩, ⟨7, 0, .ro, 0⟩]⟩,
   ⟨52, [⟨31, 28, .ro, 0⟩, ⟨23, 16, .ro, 0⟩, ⟨15, 15, .ro, 0⟩, ⟨10, 0, .ro, 0⟩]⟩,
   ⟨53, [⟨31, 26, .ro, 0⟩, ⟨25, 16, .ro, 0⟩, ⟨15, 8, .ro, 255⟩, ⟨7, 0, .ro, 0⟩]⟩,
   ⟨54, [⟨31, 0, .ro, 0⟩]⟩,
   ⟨55, [⟨31, 31, .ro, 0⟩, ⟨15, 0, .rw, 0⟩]⟩]

/-- The block registers of the ni pages (10_tile_network.md R252 and the field tables of that chapter). -/
def regs_ni : List RegD :=
  [⟨16, [⟨31, 16, .rw, 64⟩, ⟨8, 8, .rw, 0⟩, ⟨5, 4, .rw, 1⟩, ⟨1, 1, .rw, 1⟩]⟩,
   ⟨17, [⟨31, 30, .ro, 1⟩, ⟨29, 24, .ro, 0⟩, ⟨21, 16, .ro, 0⟩, ⟨12, 8, .ro, 0⟩, ⟨7, 4, .ro, 0⟩]⟩,
   ⟨18, [⟨24, 16, .rw, 383⟩, ⟨8, 8, .w1c, 0⟩, ⟨7, 7, .w1c, 0⟩, ⟨6, 6, .w1c, 0⟩, ⟨5, 5, .w1c, 0⟩, ⟨4, 4, .w1c, 0⟩, ⟨3, 3, .w1c, 0⟩, ⟨2, 2, .w1c, 0⟩, ⟨1, 1, .w1c, 0⟩, ⟨0, 0, .w1c, 0⟩]⟩,
   ⟨19, [⟨31, 28, .ro, 0⟩, ⟨27, 24, .ro, 0⟩, ⟨23, 14, .ro, 0⟩, ⟨13, 8, .ro, 0⟩]⟩,
   ⟨20, [⟨31, 0, .ro, 0⟩]⟩,
   ⟨21, [⟨15, 0, .ro, 0⟩]⟩,
   ⟨22, [⟨31, 24, .rw, 16⟩, ⟨8, 0, .rw, 256⟩]⟩,
   ⟨23, [⟨31, 24, .rw, 16⟩, ⟨8, 0, .rw, 256⟩]⟩,
   ⟨24, [⟨31, 24, .rw, 16⟩, ⟨8, 0, .rw, 256⟩]⟩,
   ⟨25, [⟨31, 24, .rw, 16⟩, ⟨8, 0, .rw, 256⟩]⟩,
   ⟨26, [⟨31, 30, .ro, 0⟩, ⟨29, 26, .ro, 0⟩, ⟨8, 8, .wo, 0⟩, ⟨5, 0, .rw, 0⟩]⟩,
   ⟨27, [⟨14, 8, .ro, 0⟩, ⟨6, 0, .rw, 0⟩]⟩,
   ⟨28, [⟨31, 0, .ro, 0⟩]⟩,
   ⟨29, [⟨31, 0, .ro, 0⟩]⟩,
   ⟨30, [⟨31, 0, .ro, 0⟩]⟩,
   ⟨31, [⟨31, 0, .ro, 0⟩]⟩]

/-- The block registers of the vlt pages (07_memory_tier.md R184 and the field tables of that chapter). -/
def regs_vlt : List RegD :=
  [⟨16, [⟨31, 31, .ro, 0⟩, ⟨30, 30, .ro, 0⟩, ⟨29, 27, .ro, 0⟩, ⟨26, 16, .ro, 0⟩, ⟨15, 12, .ro, 0⟩, ⟨4, 0, .ro, 0⟩]⟩,
   ⟨17, [⟨31, 31, .rw, 1⟩, ⟨23, 16, .rw, 0⟩, ⟨15, 0, .rw, 600⟩]⟩,
   ⟨18, [⟨31, 21, .ro, 0⟩, ⟨20, 20, .ro, 0⟩, ⟨19, 0, .ro, 0⟩]⟩,
   ⟨19, [⟨24, 16, .rw, 166⟩, ⟨8, 8, .w1c, 0⟩, ⟨7, 7, .w1c, 0⟩, ⟨6, 6, .w1c, 0⟩, ⟨5, 5, .w1c, 0⟩, ⟨4, 4, .w1c, 0⟩, ⟨3, 3, .w1c, 0⟩, ⟨2, 2, .w1c, 0⟩, ⟨1, 1, .w1c, 0⟩, ⟨0, 0, .w1c, 0⟩]⟩,
   ⟨20, [⟨31, 24, .rw, 0⟩, ⟨23, 16, .rw, 0⟩, ⟨15, 8, .rw, 0⟩, ⟨7, 0, .rw, 0⟩]⟩,
   ⟨21, [⟨31, 24, .rw, 0⟩, ⟨23, 16, .rw, 0⟩, ⟨15, 8, .rw, 0⟩, ⟨7, 0, .rw, 0⟩]⟩,
   ⟨22, [⟨31, 28, .rw, 0⟩, ⟨27, 24, .rw, 0⟩, ⟨23, 20, .rw, 0⟩, ⟨19, 16, .rw, 0⟩, ⟨15, 12, .rw, 0⟩, ⟨11, 8, .rw, 0⟩, ⟨7, 4, .rw, 0⟩, ⟨3, 0, .rw, 0⟩]⟩,
   ⟨23, [⟨31, 24, .ro, 0⟩, ⟨8, 8, .wo, 0⟩, ⟨3, 0, .rw, 0⟩]⟩,
   ⟨24, [⟨20, 20, .ro, 0⟩, ⟨19, 0, .ro, 0⟩]⟩,
   ⟨25, [⟨31, 31, .ro, 0⟩, ⟨30, 30, .ro, 0⟩, ⟨29, 28, .ro, 0⟩, ⟨27, 18, .ro, 0⟩, ⟨17, 11, .ro, 0⟩, ⟨10, 8, .ro, 0⟩, ⟨7, 0, .ro, 0⟩]⟩,
   ⟨26, [⟨31, 31, .rwl, 0⟩, ⟨30, 30, .wo, 0⟩, ⟨28, 26, .rw, 0⟩, ⟨25, 20, .rwl, 0⟩, ⟨19, 0, .rwl, 0⟩]⟩,
   ⟨27, [⟨25, 14, .rw, 0⟩]⟩,
   ⟨28, [⟨31, 31, .rw, 0⟩, ⟨30, 30, .wo, 0⟩, ⟨29, 28, .ro, 0⟩, ⟨27, 24, .ro, 0⟩, ⟨21, 16, .ro, 0⟩, ⟨13, 8, .rw, 0⟩, ⟨5, 0, .ro, 0⟩]⟩,
   ⟨29, [⟨31, 31, .rw, 0⟩, ⟨30, 30, .wo, 0⟩, ⟨29, 28, .ro, 0⟩, ⟨27, 24, .ro, 0⟩, ⟨21, 16, .ro, 0⟩, ⟨13, 8, .rw, 0⟩, ⟨5, 0, .ro, 0⟩]⟩,
   ⟨30, [⟨31, 31, .rw, 0⟩, ⟨30, 30, .wo, 0⟩, ⟨29, 28, .ro, 0⟩, ⟨27, 24, .ro, 0⟩, ⟨21, 16, .ro, 0⟩, ⟨13, 8, .rw, 0⟩, ⟨5, 0, .ro, 0⟩]⟩,
   ⟨31, [⟨31, 31, .rw, 0⟩, ⟨30, 30, .wo, 0⟩, ⟨29, 28, .ro, 0⟩, ⟨27, 24, .ro, 0⟩, ⟨21, 16, .ro, 0⟩, ⟨13, 8, .rw, 0⟩, ⟨5, 0, .ro, 0⟩]⟩]

/-- The block registers of the eng pages (08_sequencer_engines.md R217 and the field tables of that chapter). -/
def regs_eng : List RegD :=
  [⟨16, [⟨8, 8, .rw, 1⟩, ⟨1, 1, .wo, 0⟩, ⟨0, 0, .wo, 0⟩]⟩,
   ⟨17, [⟨31, 29, .ro, 0⟩, ⟨28, 25, .ro, 0⟩, ⟨24, 21, .ro, 0⟩, ⟨20, 20, .ro, 0⟩, ⟨19, 19, .ro, 0⟩, ⟨18, 18, .ro, 0⟩, ⟨17, 17, .w1c, 0⟩]⟩,
   ⟨18, [⟨31, 2, .rw, 0⟩]⟩,
   ⟨19, [⟨31, 16, .ro, 0⟩, ⟨15, 15, .ro, 0⟩, ⟨14, 14, .ro, 0⟩, ⟨13, 13, .ro, 0⟩, ⟨7, 0, .ro, 0⟩]⟩,
   ⟨20, [⟨31, 0, .ro, 0⟩]⟩,
   ⟨21, [⟨31, 31, .rwl, 0⟩, ⟨30, 30, .rw, 0⟩, ⟨29, 28, .rw, 0⟩, ⟨20, 16, .rw, 20⟩, ⟨15, 0, .wo, 0⟩]⟩,
   ⟨22, [⟨31, 0, .ro, 0⟩]⟩,
   ⟨23, [⟨31, 16, .wo, 0⟩, ⟨15, 0, .w1c, 0⟩]⟩,
   ⟨24, [⟨20, 16, .rw, 23⟩, ⟨4, 4, .w1c, 0⟩, ⟨3, 3, .w1c, 0⟩, ⟨2, 2, .w1c, 0⟩, ⟨1, 1, .w1c, 0⟩, ⟨0, 0, .w1c, 0⟩]⟩,
   ⟨25, [⟨31, 24, .ro, 255⟩, ⟨23, 16, .ro, 0⟩, ⟨15, 8, .ro, 255⟩, ⟨7, 0, .ro, 0⟩]⟩,
   ⟨26, [⟨31, 24, .rw, 0⟩, ⟨23, 23, .w1c, 0⟩, ⟨22, 22, .ro, 0⟩, ⟨13, 0, .ro, 0⟩]⟩,
   ⟨27, [⟨3, 0, .rw, 0⟩]⟩,
   ⟨28, [⟨31, 16, .rw, 0⟩, ⟨15, 11, .rw, 16⟩, ⟨5, 5, .rw, 0⟩, ⟨4, 4, .rw, 0⟩, ⟨3, 3, .rw, 0⟩, ⟨2, 2, .rw, 0⟩, ⟨1, 1, .rw, 0⟩, ⟨0, 0, .rw, 0⟩]⟩,
   ⟨29, [⟨31, 0, .rw, 0⟩]⟩]

/-- The block registers of a kind of page. -/
def Kind.regs : Kind → List RegD
  | .dev => regs_dev
  | .stw1 => regs_stw1
  | .stw2 => regs_stw2
  | .stw3 => regs_stw3
  | .stw4 => regs_stw4
  | .dbg => regs_dbg
  | .st6 => regs_st6
  | .st7 => regs_st7
  | .evt => regs_evt
  | .time => regs_time
  | .clkD => regs_clkD
  | .clkE => regs_clkE
  | .clkF => regs_clkF
  | .clk10 => regs_clk10
  | .pwr1 => regs_pwr1
  | .pwr2 => regs_pwr2
  | .pwr3 => regs_pwr3
  | .pwr4 => regs_pwr4
  | .pwr5 => regs_pwr5
  | .pwr6 => regs_pwr6
  | .sen => regs_sen
  | .hp0 => regs_hp0
  | .hp1 => regs_hp1
  | .hp2 => regs_hp2
  | .hp3 => regs_hp3
  | .ext => regs_ext
  | .cry => regs_cry
  | .ctr => regs_ctr
  | .fl => regs_fl
  | .eth => regs_eth
  | .ser => regs_ser
  | .io => regs_io
  | .lnk => regs_lnk
  | .ln => regs_ln
  | .rgn => regs_rgn
  | .ni => regs_ni
  | .vlt => regs_vlt
  | .eng => regs_eng

/-- The tables that stand inside pages: (first word, number of words, one entry's fields). Event route entries (R51),
waymarks and their shadows (R252, R299), calibration arrays (R488), gate lists (R358), the flash page buffer (R361). -/
def Kind.tables : Kind → List (Nat × Nat × List FieldD)
  | .evt => [(256, 165, [⟨31, 30, .rw, 0⟩, ⟨19, 12, .rw, 0⟩, ⟨11, 8, .rw, 0⟩, ⟨1, 0, .rw, 0⟩])]
  | .ni => [(256, 64, [⟨31, 0, .ro, 0⟩]), (320, 64, [⟨31, 0, .rw, 0⟩])]
  | .lnk => [(256, 256, [⟨31, 0, .ro, 0⟩]), (512, 256, [⟨31, 0, .rw, 0⟩])]
  | .clkF => [(256, 2, [⟨31, 0, .ro, 0⟩])]
  | .sen => [(256, 12, [⟨31, 0, .ro, 0⟩])]
  | .vlt => [(256, 8, [⟨31, 0, .ro, 0⟩])]
  | .io => [(256, 48, [⟨31, 0, .ro, 0⟩])]
  | .ext => [(256, 64, [⟨31, 0, .ro, 0⟩])]
  | .ln => [(256, 8, [⟨31, 0, .ro, 0⟩])]
  | .eth => [(256, 512, [⟨31, 0, .rw, 0⟩])]
  | .fl => [(256, 64, [⟨31, 0, .rw, 0⟩])]
  | _ => []

/-- The registers that the read of a word latches (R509): the _HI of a pair for its _LO; of TIME_LO, TIME_HI and TIME_SUB. -/
def Kind.latches : Kind → Nat → List Nat
  | .stw1, w => if [26].contains w then [w + 1] else []
  | .stw2, w => if [27, 30].contains w then [w + 1] else []
  | .stw3, w => if [25].contains w then [w + 1] else []
  | .stw4, w => if [17, 19].contains w then [w + 1] else []
  | .st7, w => if [17, 19, 29].contains w then [w + 1] else []
  | .time, w => if w = 16 then [17, 18] else []
  | .clkD, w => if [23].contains w then [w + 1] else []
  | .clk10, w => if w = 16 then [17, 18] else if [26].contains w then [w + 1] else []
  | .pwr1, w => if [22, 26].contains w then [w + 1] else []
  | .pwr6, w => if [16, 18, 20, 22, 24, 26, 28, 30, 35].contains w then [w + 1] else []
  | .sen, w => if [36].contains w then [w + 1] else []
  | .hp0, w => if [21, 23, 25, 28].contains w then [w + 1] else []
  | .hp3, w => if [16, 26, 36, 46].contains w then [w + 1] else []
  | .ext, w => if [32].contains w then [w + 1] else []
  | .cry, w => if [23].contains w then [w + 1] else []
  | .ctr, w => if [22, 32, 34].contains w then [w + 1] else []
  | .eth, w => if [19, 25, 29].contains w then [w + 1] else []
  | .ser, w => if [24].contains w then [w + 1] else []
  | .io, w => if [21].contains w then [w + 1] else []
  | .lnk, w => if [26].contains w then [w + 1] else []
  | .ln, w => if [30].contains w then [w + 1] else []
  | .rgn, w => if [25, 29, 32].contains w then [w + 1] else []
  | .ni, w => if [20].contains w then [w + 1] else []
  | _, _ => []

/-! Word offsets of registers, by the names of the register tables. -/

namespace R
def CLK_ERR : Nat := 26
def CLK_FAIL : Nat := 22
def CLK_FAILCNT : Nat := 28
def CLK_FAILTIME_LO : Nat := 23
def CLK_FATAL : Nat := 25
def CLK_GRP0 : Nat := 16
def CLK_MONCTL : Nat := 17
def CLK_MONSTAT : Nat := 18
def CLK_OSCF : Nat := 16
def CLK_OSCFCNT : Nat := 21
def CLK_OSCS : Nat := 20
def CLK_PLL : Nat := 16
def CLK_REFCNT : Nat := 19
def CLK_ROOTCNT : Nat := 20
def CLK_STOPTIME : Nat := 27
def CLK_SWCNT : Nat := 21
def CLK_TRIM : Nat := 18
def CLK_TRIMCNT : Nat := 21
def CRY_ALARMCNT : Nat := 45
def CRY_BLSTAT : Nat := 42
def CRY_EV : Nat := 18
def CRY_KEYREQ : Nat := 40
def CRY_KRCNT_HI : Nat := 24
def CRY_KRCNT_LO : Nat := 23
def CRY_KRGEN0 : Nat := 27
def CRY_KRINFO : Nat := 22
def CRY_KRPCT0 : Nat := 31
def CRY_KRQUEUE : Nat := 26
def CRY_KRSTALL : Nat := 25
def CRY_MODE : Nat := 16
def CRY_RAMBLE : Nat := 19
def CRY_RAMBLECNT : Nat := 39
def CRY_RSTAT : Nat := 20
def CRY_SECREF : Nat := 43
def CRY_STAT : Nat := 17
def CTR_CCCTL : Nat := 40
def CTR_CCERR : Nat := 41
def CTR_CCFIX : Nat := 42
def CTR_CCRD0 : Nat := 24
def CTR_CCWB0 : Nat := 26
def CTR_EV : Nat := 17
def CTR_INITPOS0 : Nat := 38
def CTR_INITPOS1 : Nat := 39
def CTR_LASTERR : Nat := 43
def CTR_LOSTADDR_HI : Nat := 23
def CTR_LOSTADDR_LO : Nat := 22
def CTR_LOSTCNT0 : Nat := 36
def CTR_LOSTINFO : Nat := 21
def CTR_LOSTSEL : Nat := 20
def CTR_MAXPC0_LO : Nat := 32
def CTR_ROOTPAR0 : Nat := 46
def CTR_ROOTPAR1 : Nat := 47
def CTR_ROOTUPD0 : Nat := 18
def CTR_STAT : Nat := 16
def CTR_TMACERR0 : Nat := 44
def CTR_TREERD0 : Nat := 28
def CTR_TREEWR0 : Nat := 30
def DBG_BRKCTL : Nat := 23
def DBG_BRKHI : Nat := 25
def DBG_BRKLO : Nat := 24
def DBG_BRKSEL : Nat := 22
def DBG_BRKTAG : Nat := 26
def DBG_ENGCTL : Nat := 18
def DBG_ENGREG : Nat := 20
def DBG_ENGSEL : Nat := 17
def DBG_ENGSTAT : Nat := 19
def DBG_EV : Nat := 31
def DBG_LIVE : Nat := 21
def DBG_SNAPADDR : Nat := 30
def DBG_SNAPCTL : Nat := 29
def DBG_STAT : Nat := 16
def DBG_VTIN : Nat := 28
def DBG_VTOUT : Nat := 27
def DEV_BOOTERR : Nat := 18
def DEV_ID : Nat := 16
def DEV_LOADID : Nat := 26
def DEV_LOADSTAT : Nat := 25
def DEV_READYTIME : Nat := 29
def ENG_BOOT : Nat := 18
def ENG_CTL : Nat := 16
def ENG_EV : Nat := 24
def ENG_IRQ : Nat := 23
def ENG_SPORT : Nat := 25
def ENG_STAT : Nat := 17
def ENG_TRAPPC : Nat := 20
def ENG_WDT : Nat := 21
def ENG_WDTCNT : Nat := 22
def ENG_WINA : Nat := 28
def ENG_WINB : Nat := 29
def ETH_ADDR_LO : Nat := 19
def ETH_CBS4 : Nat := 31
def ETH_CNT0 : Nat := 40
def ETH_CTL : Nat := 16
def ETH_ERR : Nat := 18
def ETH_GCLBASE_LO : Nat := 25
def ETH_GCLCHG_LO : Nat := 29
def ETH_GCLCTL : Nat := 24
def ETH_GCLCYCLE : Nat := 27
def ETH_QSTAT : Nat := 35
def ETH_STAT : Nat := 17
def ETH_TSCORR_RX : Nat := 23
def ETH_TSCORR_TX : Nat := 22
def EVT_CTL : Nat := 16
def EVT_DELIV : Nat := 28
def EVT_FORCE : Nat := 27
def EVT_HELD : Nat := 29
def EVT_NETSUM : Nat := 26
def EVT_NMI : Nat := 19
def EVT_NMISEQ : Nat := 31
def EVT_PSUM0 : Nat := 20
def EXT_ALARMCNT : Nat := 22
def EXT_CCHIT : Nat := 25
def EXT_CCMISS : Nat := 26
def EXT_CFG : Nat := 16
def EXT_CNT0 : Nat := 27
def EXT_DQ0 : Nat := 36
def EXT_ERR : Nat := 18
def EXT_OUTST : Nat := 20
def EXT_OVFCNT : Nat := 23
def EXT_PLOGADDR_HI : Nat := 33
def EXT_PLOGADDR_LO : Nat := 32
def EXT_PLOGCTL : Nat := 31
def EXT_PLOGINFO : Nat := 34
def EXT_PWR : Nat := 47
def EXT_RETRYCNT : Nat := 21
def EXT_STALLCNT : Nat := 24
def EXT_STAT : Nat := 17
def EXT_SWEEP : Nat := 19
def EXT_TRAIN : Nat := 35
def FL_CMD : Nat := 17
def FL_ECCCNT : Nat := 20
def FL_ERCNT : Nat := 25
def FL_ERR : Nat := 19
def FL_ID : Nat := 26
def FL_LASTERR : Nat := 22
def FL_OPTIME : Nat := 23
def FL_PGCNT : Nat := 24
def FL_PROT : Nat := 27
def FL_STAT : Nat := 18
def FL_UECNT : Nat := 21
def HP_AQ_CQBASE_LO : Nat := 25
def HP_AQ_SIZE : Nat := 27
def HP_AQ_SQBASE_LO : Nat := 23
def HP_CMDCNT : Nat := 49
def HP_CNT0 : Nat := 46
def HP_CQ0 : Nat := 16
def HP_CQVEC0 : Nat := 32
def HP_CTL : Nat := 18
def HP_CTO : Nat := 30
def HP_ERR : Nat := 20
def HP_ERRADDR_LO : Nat := 21
def HP_FAILCNT : Nat := 50
def HP_HWBASE_LO : Nat := 28
def HP_LANE0 : Nat := 34
def HP_LATECNT : Nat := 31
def HP_LINK : Nat := 17
def HP_OPCNT0 : Nat := 53
def HP_OPCNT1 : Nat := 54
def HP_OPCNT2 : Nat := 55
def HP_QEXIST : Nat := 48
def HP_REPLAYCNT : Nat := 32
def HP_RING0BASE_LO : Nat := 16
def HP_RING0CTL : Nat := 18
def HP_RING0LOST : Nat := 22
def HP_RING0NMICNT : Nat := 24
def HP_RING0SEQ : Nat := 21
def HP_RING0WRCNT : Nat := 23
def HP_RXERRCNT : Nat := 33
def HP_SQ0 : Nat := 16
def HP_SQERR0 : Nat := 32
def HP_STAT : Nat := 19
def HP_TBUSYCNT : Nat := 51
def HP_TLPLOG0 : Nat := 42
def HP_VECPEND0 : Nat := 48
def IO_DLYVAL : Nat := 20
def IO_ERR : Nat := 18
def IO_INFO : Nat := 16
def IO_IN_HI : Nat := 22
def IO_IN_LO : Nat := 21
def IO_STBY : Nat := 17
def LNK_CTL : Nat := 16
def LNK_DEV : Nat := 31
def LNK_DOWNCNT : Nat := 22
def LNK_ERR : Nat := 18
def LNK_FRAMECTR_LO : Nat := 26
def LNK_LATECNT : Nat := 24
def LNK_OUTST : Nat := 23
def LNK_PROXY : Nat := 33
def LNK_PROXYBASE : Nat := 34
def LNK_REPLAYCNT : Nat := 20
def LNK_STAT : Nat := 17
def LNK_TIMEDLY : Nat := 30
def LNK_TIMEOFS : Nat := 29
def LNK_TOCNT : Nat := 25
def LNK_WMCTL : Nat := 32
def LN_BLKERR : Nat := 34
def LN_CDR : Nat := 24
def LN_CNT0 : Nat := 40
def LN_CTL : Nat := 16
def LN_DFE0 : Nat := 22
def LN_DFE1 : Nat := 23
def LN_EBUF : Nat := 33
def LN_ERR : Nat := 18
def LN_ETHSEL : Nat := 38
def LN_EYE : Nat := 25
def LN_LOCKCNT : Nat := 35
def LN_PRBSBITS_HI : Nat := 31
def LN_PRBSBITS_LO : Nat := 30
def LN_PRBSERR : Nat := 29
def LN_RXCTL : Nat := 20
def LN_SKIPCNT : Nat := 32
def LN_TEST : Nat := 28
def LN_TRAINTIME : Nat := 36
def LN_TXEQ : Nat := 19
def MB_CMD : Nat := 25
def MB_DATA : Nat := 26
def NI_BUSYCNT : Nat := 31
def NI_CTL : Nat := 16
def NI_DROPCNT : Nat := 28
def NI_ERR : Nat := 18
def NI_ERRADDR_LO : Nat := 20
def NI_LATECNT : Nat := 29
def NI_RFCNT : Nat := 30
def NI_RTRCTL : Nat := 27
def NI_STAT : Nat := 17
def NI_TB0 : Nat := 22
def NI_WMCTL : Nat := 26
def PWR_ALERTCNT : Nat := 37
def PWR_AONMV : Nat := 36
def PWR_AVG : Nat := 37
def PWR_BUDGET : Nat := 38
def PWR_DEVCTL : Nat := 16
def PWR_DOMBUSY0 : Nat := 21
def PWR_DOMCTL : Nat := 17
def PWR_DOMSTAT0 : Nat := 18
def PWR_DOMSTAT1 : Nat := 19
def PWR_DOMSTAT2 : Nat := 20
def PWR_ENCTL : Nat := 32
def PWR_ENERGY0_LO : Nat := 16
def PWR_ERR : Nat := 18
def PWR_EXITTIME : Nat := 34
def PWR_NAPCNT : Nat := 34
def PWR_OFFCNT : Nat := 35
def PWR_OVERCNT : Nat := 39
def PWR_P3CNT : Nat := 31
def PWR_P3TIME : Nat := 32
def PWR_PEAK : Nat := 34
def PWR_PEAKTIME_LO : Nat := 35
def PWR_PMBCMD : Nat := 33
def PWR_PMBDATA : Nat := 34
def PWR_PMBERRCNT : Nat := 36
def PWR_POWER : Nat := 33
def PWR_RAILFLTCNT : Nat := 35
def PWR_RAILMAX0 : Nat := 26
def PWR_RAILSTAT : Nat := 25
def PWR_RAMPMAX : Nat := 36
def PWR_RAMPQ : Nat := 37
def PWR_REBUILD : Nat := 30
def PWR_REFCNT : Nat := 39
def PWR_REG0 : Nat := 16
def PWR_REQCNT : Nat := 38
def PWR_RESTSTAT : Nat := 23
def PWR_RGNREQ : Nat := 16
def PWR_RGNST0 : Nat := 24
def PWR_SAVESTAT : Nat := 21
def PWR_SAVETIME : Nat := 22
def PWR_SEQPOS : Nat := 39
def PWR_SEQTIME : Nat := 38
def PWR_SHADOW0 : Nat := 32
def PWR_STOPHELD0 : Nat := 28
def PWR_STOPHELD1 : Nat := 29
def PWR_SUPCTL : Nat := 20
def PWR_THCECNT : Nat := 18
def PWR_THERR : Nat := 17
def PWR_THLASTERR : Nat := 20
def PWR_THSTAT : Nat := 16
def PWR_TJ0 : Nat := 36
def PWR_TJ1 : Nat := 37
def PWR_TJMAX : Nat := 38
def PWR_WAKE : Nat := 21
def PWR_WAKETIME_LO : Nat := 22
def PWR_WARNCNT : Nat := 33
def PWR_WARNTIME_LO : Nat := 26
def RGN_BORDERPOL : Nat := 55
def RGN_CORRCNT : Nat := 42
def RGN_CTXCFG : Nat := 17
def RGN_CTXEV : Nat := 38
def RGN_CTXSEL : Nat := 18
def RGN_FAULT : Nat := 39
def RGN_FETCH : Nat := 35
def RGN_FETCHTIME : Nat := 37
def RGN_HAMPER : Nat := 34
def RGN_HOLD : Nat := 43
def RGN_IMGID : Nat := 54
def RGN_INFO : Nat := 16
def RGN_MISSTIME_LO : Nat := 32
def RGN_SCHED_CTL : Nat := 27
def RGN_SCHED_LO : Nat := 25
def RGN_SLOTSTAT : Nat := 20
def RGN_SLOTTAG0 : Nat := 21
def RGN_SPECABORTS : Nat := 50
def RGN_SPECCOMMITS : Nat := 49
def RGN_SPECCTL : Nat := 44
def RGN_SPECEV : Nat := 48
def RGN_SPECSTAT : Nat := 45
def RGN_SWCNT : Nat := 28
def RGN_SWLAST_LO : Nat := 29
def SEN_CHCFG : Nat := 32
def SEN_CTL : Nat := 16
def SEN_EV : Nat := 18
def SEN_FREQ : Nat := 22
def SEN_HOLDUP : Nat := 30
def SEN_LOGCTL : Nat := 34
def SEN_LOGDUR : Nat := 38
def SEN_LOGINFO : Nat := 35
def SEN_LOGTIME_HI : Nat := 37
def SEN_LOGTIME_LO : Nat := 36
def SEN_RAW : Nat := 33
def SEN_RMS0 : Nat := 23
def SEN_RMS3 : Nat := 26
def SEN_RMS6 : Nat := 29
def SEN_STAT : Nat := 17
def SER_DIV : Nat := 17
def SER_ERR : Nat := 20
def SER_RX : Nat := 22
def SER_RXTIME_LO : Nat := 24
def SER_STAT : Nat := 19
def SER_TX : Nat := 21
def STW_AGREECNT : Nat := 31
def STW_AGREEFAIL : Nat := 32
def STW_ATTADDR_LO : Nat := 30
def STW_ATTCTL : Nat := 29
def STW_ATTSTAT : Nat := 32
def STW_DBGCTL : Nat := 34
def STW_EV2 : Nat := 33
def STW_EV3 : Nat := 30
def STW_EV4 : Nat := 24
def STW_EXTADDR_LO : Nat := 27
def STW_EXTCTL : Nat := 26
def STW_KEYGEN : Nat := 28
def STW_KEYSTAT : Nat := 16
def STW_LCREQ : Nat := 18
def STW_LCS : Nat := 17
def STW_LINKTIME : Nat := 38
def STW_MEAS0 : Nat := 17
def STW_MEASSEL : Nat := 16
def STW_NONCE : Nat := 35
def STW_OWNER0 : Nat := 17
def STW_PROVADDR_LO : Nat := 25
def STW_RNGCNT : Nat := 34
def STW_RNGSTAT : Nat := 33
def STW_ROLLCTL : Nat := 30
def STW_ROLLMIN2 : Nat := 31
def STW_ROLLSTW : Nat := 29
def STW_SCRUBTIME_LO : Nat := 26
def STW_SESSION : Nat := 39
def STW_STAT : Nat := 16
def STW_SVCBUSYCNT : Nat := 37
def STW_SVCCNT : Nat := 25
def STW_SVCCTL : Nat := 16
def STW_SVCDST_LO : Nat := 19
def STW_SVCERRCNT : Nat := 26
def STW_SVCLABEL0 : Nat := 28
def STW_SVCLEN : Nat := 21
def STW_SVCOUT : Nat := 38
def STW_SVCSEQ : Nat := 39
def STW_SVCSRC_LO : Nat := 17
def STW_SVCTIME : Nat := 36
def STW_TOKCTL : Nat := 37
def STW_TOKDATA : Nat := 36
def STW_TOKSTAT : Nat := 38
def STW_WDT : Nat := 20
def STW_WDTCAUSE : Nat := 23
def STW_WDTCNT : Nat := 22
def STW_WDTKICK : Nat := 21
def ST_ABNCNT : Nat := 29
def ST_CALQ : Nat := 33
def ST_COV0 : Nat := 24
def ST_COV1 : Nat := 25
def ST_CTL : Nat := 16
def ST_EV : Nat := 19
def ST_EXPCLR : Nat := 32
def ST_EXPCNT : Nat := 22
def ST_EXPID : Nat := 23
def ST_FAILCNT : Nat := 27
def ST_LBPAT : Nat := 28
def ST_LBSEED_HI : Nat := 30
def ST_LBSEED_LO : Nat := 29
def ST_REFCNT : Nat := 28
def ST_RESULT : Nat := 21
def ST_RETENT : Nat := 34
def ST_RLOC : Nat := 22
def ST_RTIME : Nat := 23
def ST_RUNCNT : Nat := 26
def ST_SCANCNT : Nat := 27
def ST_SCANCTL : Nat := 24
def ST_SCANDATA : Nat := 26
def ST_SCANSTAT : Nat := 25
def ST_SIGACT_HI : Nat := 18
def ST_SIGACT_LO : Nat := 17
def ST_SIGEXP_HI : Nat := 20
def ST_SIGEXP_LO : Nat := 19
def ST_SIGFAIL0 : Nat := 33
def ST_SIGSTAT : Nat := 21
def ST_STAT : Nat := 18
def TIME_ADJ : Nat := 25
def TIME_CTL : Nat := 24
def TIME_ERR : Nat := 29
def TIME_HI : Nat := 17
def TIME_HOLD : Nat := 21
def TIME_LASTSTEP : Nat := 23
def TIME_LO : Nat := 16
def TIME_RATE : Nat := 20
def TIME_STAT : Nat := 19
def TIME_STEPCNT : Nat := 22
def TIME_STEPCTL : Nat := 28
def TIME_STEP_LO : Nat := 26
def TIME_SUB : Nat := 18
def VLT_CECNT0 : Nat := 20
def VLT_DMA0 : Nat := 28
def VLT_DMABASE : Nat := 27
def VLT_ERREV : Nat := 19
def VLT_LOGADDR : Nat := 24
def VLT_LOGCTL : Nat := 23
def VLT_LOGINFO : Nat := 25
def VLT_REMAP : Nat := 26
def VLT_SCRUB : Nat := 17
def VLT_STAT : Nat := 16
def VLT_UECNT : Nat := 22
end R

/-! Fields, by the names of the register tables. -/

namespace F
def CLK_ERR.trim_held : Fld := ⟨26, 4, 4⟩
def CLK_FAIL.forced : Fld := ⟨22, 16, 16⟩
def CLK_FAIL.groups : Fld := ⟨22, 28, 24⟩
def CLK_FAIL.record : Fld := ⟨22, 0, 0⟩
def CLK_FAIL.stopped : Fld := ⟨22, 17, 17⟩
def CLK_FAIL.trip : Fld := ⟨22, 20, 18⟩
def CLK_FATAL.cause : Fld := ⟨25, 1, 0⟩
def CLK_FATAL.groups : Fld := ⟨25, 12, 8⟩
def CLK_FATAL.valid : Fld := ⟨25, 31, 31⟩
def CLK_GRP0.abandoned : Fld := ⟨16, 28, 28⟩
def CLK_GRP0.div : Fld := ⟨16, 9, 0⟩
def CLK_GRP0.on_oscf : Fld := ⟨16, 29, 29⟩
def CLK_GRP0.pend : Fld := ⟨16, 30, 30⟩
def CLK_GRP0.src : Fld := ⟨16, 31, 31⟩
def CLK_GRP1.div : Fld := ⟨17, 9, 0⟩
def CLK_GRP1.divmin : Fld := ⟨17, 25, 16⟩
def CLK_GRP1.on_oscf : Fld := ⟨17, 29, 29⟩
def CLK_OSCF.ready : Fld := ⟨16, 31, 31⟩
def CLK_OSCF.restart : Fld := ⟨16, 0, 0⟩
def CLK_PLL.lock : Fld := ⟨16, 31, 31⟩
def CLK_PLL.relock : Fld := ⟨16, 0, 0⟩
def CLK_TRIM.code : Fld := ⟨18, 11, 0⟩
def CLK_TRIMCTL.ref : Fld := ⟨17, 1, 0⟩
def CLK_TRIMRES.residual : Fld := ⟨19, 15, 0⟩
def CLK_TRIMRES.seq : Fld := ⟨19, 23, 16⟩
def CLK_TRIMRES.valid : Fld := ⟨19, 31, 31⟩
def CRY_ALARMLAST.ch : Fld := ⟨44, 31, 31⟩
def CRY_ALARMLAST.kind : Fld := ⟨44, 1, 0⟩
def CRY_BLSTAT.drawn : Fld := ⟨42, 31, 31⟩
def CRY_KAT.passed : Fld := ⟨47, 31, 31⟩
def CRY_KRSEL.sel : Fld := ⟨21, 4, 0⟩
def CRY_MODE.mode0 : Fld := ⟨16, 1, 0⟩
def CRY_MODE.mode1 : Fld := ⟨16, 5, 4⟩
def CRY_RAMBLE.force : Fld := ⟨19, 31, 31⟩
def CRY_RAMBLE.region : Fld := ⟨19, 4, 0⟩
def CRY_RAMBLE.share : Fld := ⟨19, 10, 8⟩
def CRY_RSTAT.boundary : Fld := ⟨20, 17, 0⟩
def CRY_SAVE.restored : Fld := ⟨46, 30, 30⟩
def CRY_SAVE.saved : Fld := ⟨46, 31, 31⟩
def CRY_STAT.busy : Fld := ⟨17, 30, 30⟩
def CRY_STAT.keys : Fld := ⟨17, 31, 31⟩
def CRY_STAT.region : Fld := ⟨17, 4, 0⟩
def CTR_CCCTL.flush : Fld := ⟨40, 0, 0⟩
def CTR_LOSTSEL.free : Fld := ⟨20, 8, 8⟩
def CTR_LOSTSEL.sel : Fld := ⟨20, 3, 0⟩
def CTR_STAT.lost : Fld := ⟨16, 15, 0⟩
def CTR_STAT.tree : Fld := ⟨16, 31, 30⟩
def DBG_BRKSEL.sel : Fld := ⟨22, 2, 0⟩
def DBG_ENGCTL.catch_brk : Fld := ⟨18, 2, 2⟩
def DBG_ENGCTL.halt : Fld := ⟨18, 31, 31⟩
def DBG_ENGCTL.resume : Fld := ⟨18, 30, 30⟩
def DBG_ENGCTL.step : Fld := ⟨18, 29, 29⟩
def DBG_ENGCTL.step_mask : Fld := ⟨18, 3, 3⟩
def DBG_ENGSEL.class : Fld := ⟨17, 15, 14⟩
def DBG_ENGSEL.engine : Fld := ⟨17, 23, 16⟩
def DBG_ENGSEL.num : Fld := ⟨17, 11, 0⟩
def DBG_SNAPCTL.bram : Fld := ⟨29, 28, 28⟩
def DBG_SNAPCTL.busy : Fld := ⟨29, 27, 27⟩
def DBG_SNAPCTL.go : Fld := ⟨29, 31, 31⟩
def DBG_SNAPCTL.halt : Fld := ⟨29, 30, 30⟩
def DBG_SNAPCTL.halted : Fld := ⟨29, 22, 22⟩
def DBG_SNAPCTL.region : Fld := ⟨29, 5, 0⟩
def DBG_SNAPCTL.result : Fld := ⟨29, 26, 24⟩
def DBG_SNAPCTL.resume : Fld := ⟨29, 29, 29⟩
def DBG_SNAPCTL.torn : Fld := ⟨29, 23, 23⟩
def DBG_STAT.bus_err : Fld := ⟨16, 5, 5⟩
def DBG_STAT.by_token : Fld := ⟨16, 29, 29⟩
def DBG_STAT.denied : Fld := ⟨16, 7, 7⟩
def DBG_STAT.in_p3 : Fld := ⟨16, 28, 28⟩
def DBG_STAT.level : Fld := ⟨16, 31, 30⟩
def DBG_STAT.peek_refused : Fld := ⟨16, 4, 4⟩
def DBG_STAT.poison : Fld := ⟨16, 6, 6⟩
def DBG_STAT.session_lost : Fld := ⟨16, 8, 8⟩
def DBG_STAT.vt_overrun : Fld := ⟨16, 9, 9⟩
def DBG_VTIN.byte : Fld := ⟨28, 7, 0⟩
def DBG_VTIN.valid : Fld := ⟨28, 31, 31⟩
def DBG_VTOUT.byte : Fld := ⟨27, 7, 0⟩
def DBG_VTOUT.valid : Fld := ⟨27, 31, 31⟩
def DBG_VTOUT.writer : Fld := ⟨27, 25, 16⟩
def DEV_BOOTERR.cause : Fld := ⟨18, 1, 0⟩
def DEV_BOOTERR.valid : Fld := ⟨18, 31, 31⟩
def DEV_BOOTIMG.ms : Fld := ⟨31, 15, 0⟩
def DEV_BOOTIMG.skipped : Fld := ⟨31, 31, 31⟩
def DEV_BOOTSLOT.other_failed : Fld := ⟨19, 1, 1⟩
def DEV_BOOTSLOT.slot : Fld := ⟨19, 0, 0⟩
def DEV_CALSRC.items : Fld := ⟨27, 11, 0⟩
def DEV_CALSRC.src : Fld := ⟨27, 31, 30⟩
def DEV_CALTIME.step4 : Fld := ⟨30, 31, 16⟩
def DEV_CALTIME.step7b : Fld := ⟨30, 15, 0⟩
def DEV_CHKSTAT.crypto : Fld := ⟨28, 5, 5⟩
def DEV_CHKSTAT.done : Fld := ⟨28, 31, 31⟩
def DEV_CHKSTAT.first : Fld := ⟨28, 21, 16⟩
def DEV_CHKSTAT.pool : Fld := ⟨28, 1, 1⟩
def DEV_CHKSTAT.scrub : Fld := ⟨28, 2, 2⟩
def DEV_CHKSTAT.tcm : Fld := ⟨28, 3, 3⟩
def DEV_CHKSTAT.thermos : Fld := ⟨28, 4, 4⟩
def DEV_CHKSTAT.vault : Fld := ⟨28, 0, 0⟩
def DEV_LOADSTAT.cause : Fld := ⟨25, 7, 0⟩
def DEV_LOADSTAT.chain_pos : Fld := ⟨25, 27, 20⟩
def DEV_LOADSTAT.section : Fld := ⟨25, 19, 10⟩
def DEV_LOADSTAT.src : Fld := ⟨25, 9, 8⟩
def DEV_LOADSTAT.state : Fld := ⟨25, 31, 28⟩
def DEV_STAT.cal_restored : Fld := ⟨17, 29, 29⟩
def DEV_STAT.fault : Fld := ⟨17, 30, 30⟩
def DEV_STAT.ready : Fld := ⟨17, 31, 31⟩
def DEV_STAT.step : Fld := ⟨17, 3, 0⟩
def DEV_SWCTL.stagger : Fld := ⟨24, 0, 0⟩
def ENG_CTL.auto_start : Fld := ⟨16, 8, 8⟩
def ENG_CTL.park : Fld := ⟨16, 1, 1⟩
def ENG_CTL.run : Fld := ⟨16, 0, 0⟩
def ENG_MEMERR.corr_count : Fld := ⟨26, 31, 24⟩
def ENG_MEMERR.mem : Fld := ⟨26, 22, 22⟩
def ENG_MEMERR.uncorr : Fld := ⟨26, 23, 23⟩
def ENG_MEMERR.word : Fld := ⟨26, 13, 0⟩
def ENG_STAT.state : Fld := ⟨17, 31, 29⟩
def ENG_STAT.win_refused : Fld := ⟨17, 17, 17⟩
def ENG_TRAP.cause : Fld := ⟨19, 7, 0⟩
def ENG_TRAP.count : Fld := ⟨19, 31, 16⟩
def ENG_TRAP.double : Fld := ⟨19, 15, 15⟩
def ENG_TRAP.imprecise : Fld := ⟨19, 13, 13⟩
def ENG_TRAP.unrecov : Fld := ⟨19, 14, 14⟩
def ENG_WDT.action : Fld := ⟨21, 29, 28⟩
def ENG_WDT.en : Fld := ⟨21, 31, 31⟩
def ENG_WDT.exp : Fld := ⟨21, 20, 16⟩
def ENG_WDT.kick : Fld := ⟨21, 15, 0⟩
def ENG_WINSEL.sel : Fld := ⟨27, 3, 0⟩
def ETH_CTL.en : Fld := ⟨16, 31, 31⟩
def ETH_CTL.promisc : Fld := ⟨16, 2, 2⟩
def ETH_CTL.rate : Fld := ⟨16, 1, 0⟩
def ETH_GCLCTL.change : Fld := ⟨24, 8, 8⟩
def ETH_GCLCTL.en : Fld := ⟨24, 31, 31⟩
def ETH_GCLCTL.oper : Fld := ⟨24, 1, 1⟩
def ETH_GCLCTL.pending : Fld := ⟨24, 0, 0⟩
def ETH_GCLLEN.len : Fld := ⟨28, 8, 0⟩
def ETH_MAXLEN.len : Fld := ⟨21, 13, 0⟩
def ETH_RXBUF.fill : Fld := ⟨36, 15, 0⟩
def ETH_RXBUF.peak : Fld := ⟨36, 31, 16⟩
def ETH_STAT.lock : Fld := ⟨17, 30, 30⟩
def ETH_STAT.up : Fld := ⟨17, 31, 31⟩
def EVT_CTL.deliver_en : Fld := ⟨16, 0, 0⟩
def EVT_FORCE.source : Fld := ⟨27, 9, 0⟩
def EVT_LAST.source : Fld := ⟨18, 9, 0⟩
def EVT_REFADDR.offset : Fld := ⟨30, 11, 0⟩
def EVT_STAT.route_refused : Fld := ⟨17, 1, 1⟩
def EVT_STAT.withheld : Fld := ⟨17, 0, 0⟩
def EXT_CFG.margin_min : Fld := ⟨16, 9, 0⟩
def EXT_CFG.max_rate : Fld := ⟨16, 31, 30⟩
def EXT_PLOGCTL.free : Fld := ⟨31, 8, 8⟩
def EXT_PLOGCTL.lost : Fld := ⟨31, 31, 24⟩
def EXT_PLOGCTL.sel : Fld := ⟨31, 3, 0⟩
def EXT_PWR.selfref : Fld := ⟨47, 0, 0⟩
def EXT_STAT.mode : Fld := ⟨17, 28, 27⟩
def EXT_STAT.rate : Fld := ⟨17, 21, 20⟩
def EXT_STAT.size : Fld := ⟨17, 26, 22⟩
def EXT_STAT.state : Fld := ⟨17, 31, 29⟩
def EXT_SWEEP.boundary : Fld := ⟨19, 21, 0⟩
def EXT_SWEEP.sweeping : Fld := ⟨19, 31, 31⟩
def EXT_TEMP.code : Fld := ⟨44, 2, 0⟩
def EXT_TEST.test : Fld := ⟨46, 31, 31⟩
def EXT_TRAIN.margin : Fld := ⟨35, 9, 0⟩
def EXT_TRAIN.rate : Fld := ⟨35, 31, 30⟩
def FL_ADDR.addr : Fld := ⟨16, 26, 0⟩
def FL_CMD.op : Fld := ⟨17, 1, 0⟩
def FL_STAT.busy : Fld := ⟨18, 31, 31⟩
def FL_STAT.plane : Fld := ⟨18, 30, 30⟩
def FL_STAT.result : Fld := ⟨18, 1, 0⟩
def HP_AQ_SIZE.size : Fld := ⟨27, 12, 0⟩
def HP_CQ0.full : Fld := ⟨16, 30, 30⟩
def HP_CQ0.head : Fld := ⟨16, 11, 0⟩
def HP_CQ0.phase : Fld := ⟨16, 31, 31⟩
def HP_CQ0.tail : Fld := ⟨16, 27, 16⟩
def HP_CQVEC0.count : Fld := ⟨32, 23, 16⟩
def HP_CQVEC0.time : Fld := ⟨32, 31, 24⟩
def HP_CQVEC0.vector : Fld := ⟨32, 7, 0⟩
def HP_CTL.en : Fld := ⟨18, 31, 31⟩
def HP_CTL.itmo : Fld := ⟨18, 25, 16⟩
def HP_LASTFAIL.cid : Fld := ⟨52, 15, 0⟩
def HP_LASTFAIL.queue : Fld := ⟨52, 19, 16⟩
def HP_LASTFAIL.status : Fld := ⟨52, 31, 24⟩
def HP_LINK.rate : Fld := ⟨17, 19, 16⟩
def HP_LINK.state : Fld := ⟨17, 5, 0⟩
def HP_LINK.up : Fld := ⟨17, 31, 31⟩
def HP_LINK.width : Fld := ⟨17, 27, 24⟩
def HP_RING0COAL.count : Fld := ⟨19, 7, 0⟩
def HP_RING0CTL.en : Fld := ⟨18, 31, 31⟩
def HP_RING0CTL.size : Fld := ⟨18, 12, 0⟩
def HP_RING0CTL.vec : Fld := ⟨18, 23, 16⟩
def HP_RING0LAST.source : Fld := ⟨25, 9, 0⟩
def HP_RING0STAT.full : Fld := ⟨20, 30, 30⟩
def HP_RING0STAT.head : Fld := ⟨20, 11, 0⟩
def HP_RING0STAT.phase : Fld := ⟨20, 31, 31⟩
def HP_RING0STAT.tail : Fld := ⟨20, 27, 16⟩
def HP_SQ0.head : Fld := ⟨16, 27, 16⟩
def HP_SQ0.prio : Fld := ⟨16, 29, 28⟩
def HP_SQ0.size : Fld := ⟨16, 12, 0⟩
def HP_SQ0.state : Fld := ⟨16, 31, 30⟩
def HP_SQERR0.cause : Fld := ⟨32, 31, 28⟩
def HP_SQERR0.index : Fld := ⟨32, 27, 16⟩
def HP_STAT.exec : Fld := ⟨19, 22, 16⟩
def HP_STAT.np : Fld := ⟨19, 9, 0⟩
def HP_STAT.quiesced : Fld := ⟨19, 30, 30⟩
def HP_STAT.rdy : Fld := ⟨19, 31, 31⟩
def IO_CALSTAT.calibrated : Fld := ⟨23, 31, 31⟩
def IO_CALSTAT.residual : Fld := ⟨23, 7, 0⟩
def IO_DLYSEL.pin : Fld := ⟨19, 5, 0⟩
def IO_DLYVAL.target : Fld := ⟨20, 8, 0⟩
def IO_INFO.declared : Fld := ⟨16, 10, 8⟩
def IO_INFO.measured : Fld := ⟨16, 14, 12⟩
def IO_INFO.owner : Fld := ⟨16, 5, 0⟩
def IO_STBY.mode : Fld := ⟨17, 2, 0⟩
def LNK_CRCCNT.auth : Fld := ⟨21, 31, 16⟩
def LNK_CRCCNT.crc : Fld := ⟨21, 15, 0⟩
def LNK_CTL.en : Fld := ⟨16, 31, 31⟩
def LNK_CTL.enc_req : Fld := ⟨16, 30, 30⟩
def LNK_CTL.retrain : Fld := ⟨16, 26, 26⟩
def LNK_CTL.rx_ext : Fld := ⟨16, 28, 28⟩
def LNK_CTL.rx_mem : Fld := ⟨16, 29, 29⟩
def LNK_CTL.rx_reg : Fld := ⟨16, 27, 27⟩
def LNK_DEV.cor : Fld := ⟨31, 31, 31⟩
def LNK_DEV.devnum : Fld := ⟨31, 13, 0⟩
def LNK_DEV.e2e_tmo : Fld := ⟨31, 23, 16⟩
def LNK_DEV.tparent : Fld := ⟨31, 27, 24⟩
def LNK_KEYSTAT.epoch : Fld := ⟨28, 23, 16⟩
def LNK_KEYSTAT.state : Fld := ⟨28, 31, 30⟩
def LNK_PEER.dev : Fld := ⟨19, 13, 0⟩
def LNK_PEER.enc_req : Fld := ⟨19, 30, 30⟩
def LNK_PEER.port : Fld := ⟨19, 27, 24⟩
def LNK_PEER.valid : Fld := ⟨19, 31, 31⟩
def LNK_PROXY.dev : Fld := ⟨33, 13, 0⟩
def LNK_PROXY.en : Fld := ⟨33, 31, 31⟩
def LNK_PROXYSIG.offset : Fld := ⟨35, 11, 2⟩
def LNK_PROXYSIG.page : Fld := ⟨35, 25, 16⟩
def LNK_STAT.enc : Fld := ⟨17, 27, 27⟩
def LNK_STAT.state : Fld := ⟨17, 31, 28⟩
def LNK_STAT.tparent : Fld := ⟨17, 26, 26⟩
def LNK_WMCTL.cause : Fld := ⟨32, 29, 26⟩
def LNK_WMCTL.entry : Fld := ⟨32, 6, 0⟩
def LNK_WMCTL.flip : Fld := ⟨32, 9, 9⟩
def LNK_WMCTL.result : Fld := ⟨32, 31, 30⟩
def LNK_WMCTL.tbl : Fld := ⟨32, 8, 8⟩
def LN_ALIGN.index : Fld := ⟨37, 18, 16⟩
def LN_ALIGN.skew : Fld := ⟨37, 4, 0⟩
def LN_CALSTAT.accepted : Fld := ⟨39, 30, 30⟩
def LN_CALSTAT.written : Fld := ⟨39, 31, 31⟩
def LN_CTL.rate : Fld := ⟨16, 29, 28⟩
def LN_CTLE.code : Fld := ⟨21, 3, 0⟩
def LN_ETHSEL.eth : Fld := ⟨38, 31, 31⟩
def LN_EYE.height : Fld := ⟨25, 9, 0⟩
def LN_EYE.seq : Fld := ⟨25, 30, 23⟩
def LN_EYE.valid : Fld := ⟨25, 31, 31⟩
def LN_EYE.width : Fld := ⟨25, 22, 16⟩
def LN_EYEMIN.height : Fld := ⟨27, 9, 0⟩
def LN_EYEMIN.width : Fld := ⟨27, 22, 16⟩
def LN_EYETHR.height_min : Fld := ⟨26, 9, 0⟩
def LN_EYETHR.scan_en : Fld := ⟨26, 31, 31⟩
def LN_EYETHR.width_min : Fld := ⟨26, 22, 16⟩
def LN_RXCTL.cont : Fld := ⟨20, 31, 31⟩
def LN_RXCTL.ctle_code : Fld := ⟨20, 19, 16⟩
def LN_RXCTL.ctle_hold : Fld := ⟨20, 30, 30⟩
def LN_RXCTL.dfe_hold : Fld := ⟨20, 29, 29⟩
def LN_RXCTL.train_tmo : Fld := ⟨20, 15, 0⟩
def LN_STAT.owner : Fld := ⟨17, 27, 26⟩
def LN_STAT.peer_ready : Fld := ⟨17, 23, 23⟩
def LN_STAT.pll_lock : Fld := ⟨17, 24, 24⟩
def LN_STAT.ref_ok : Fld := ⟨17, 25, 25⟩
def LN_STAT.restored : Fld := ⟨17, 21, 21⟩
def LN_STAT.state : Fld := ⟨17, 31, 28⟩
def LN_STAT.training_rx : Fld := ⟨17, 22, 22⟩
def LN_STAT.under_test : Fld := ⟨17, 20, 20⟩
def LN_TEST.chk : Fld := ⟨28, 26, 24⟩
def LN_TEST.clear : Fld := ⟨28, 22, 22⟩
def LN_TEST.gen : Fld := ⟨28, 29, 27⟩
def LN_TEST.inject : Fld := ⟨28, 23, 23⟩
def LN_TEST.loop : Fld := ⟨28, 31, 30⟩
def LN_TXEQ.main : Fld := ⟨19, 21, 16⟩
def LN_TXEQ.post : Fld := ⟨19, 12, 8⟩
def LN_TXEQ.pre : Fld := ⟨19, 3, 0⟩
def MB_CMD.addr : Fld := ⟨25, 6, 0⟩
def MB_CMD.rlen : Fld := ⟨25, 14, 12⟩
def MB_CMD.start : Fld := ⟨25, 31, 31⟩
def MB_CMD.wlen : Fld := ⟨25, 10, 8⟩
def MB_CTL.en : Fld := ⟨24, 31, 31⟩
def MB_STAT.busy : Fld := ⟨27, 31, 31⟩
def MB_STAT.result : Fld := ⟨27, 2, 0⟩
def NI_CTL.link_agent : Fld := ⟨16, 8, 8⟩
def NI_CTL.nt_en : Fld := ⟨16, 1, 1⟩
def NI_CTL.tmo : Fld := ⟨16, 31, 16⟩
def NI_ERRSRC.initiator : Fld := ⟨19, 23, 14⟩
def NI_ERRSRC.kind : Fld := ⟨19, 27, 24⟩
def NI_ERRSRC.router : Fld := ⟨19, 13, 8⟩
def NI_ERRSRC.status : Fld := ⟨19, 31, 28⟩
def NI_RTRCTL.dis : Fld := ⟨27, 6, 0⟩
def NI_STAT.eng_tags : Fld := ⟨17, 21, 16⟩
def NI_STAT.fab_tags : Fld := ⟨17, 29, 24⟩
def NI_STAT.held : Fld := ⟨17, 12, 8⟩
def NI_STAT.state : Fld := ⟨17, 31, 30⟩
def NI_STAT.tq : Fld := ⟨17, 7, 4⟩
def NI_TB0.burst : Fld := ⟨22, 31, 24⟩
def NI_TB0.rate : Fld := ⟨22, 8, 0⟩
def NI_WMCTL.cause : Fld := ⟨26, 29, 26⟩
def NI_WMCTL.entry : Fld := ⟨26, 5, 0⟩
def NI_WMCTL.flip : Fld := ⟨26, 8, 8⟩
def NI_WMCTL.result : Fld := ⟨26, 31, 30⟩
def PWR_DEVCTL.p3 : Fld := ⟨16, 31, 31⟩
def PWR_DEVCTL.p3_stop : Fld := ⟨16, 30, 30⟩
def PWR_DEVSTAT.forbid : Fld := ⟨17, 27, 27⟩
def PWR_DEVSTAT.ready : Fld := ⟨17, 28, 28⟩
def PWR_DEVSTAT.state : Fld := ⟨17, 31, 29⟩
def PWR_ENCTL.clear : Fld := ⟨32, 0, 0⟩
def PWR_PMBCMD.addr : Fld := ⟨33, 6, 0⟩
def PWR_PMBCMD.cmd : Fld := ⟨33, 15, 8⟩
def PWR_PMBCMD.rlen : Fld := ⟨33, 22, 20⟩
def PWR_PMBCMD.start : Fld := ⟨33, 31, 31⟩
def PWR_PMBCMD.wlen : Fld := ⟨33, 18, 16⟩
def PWR_PMBCTL.en : Fld := ⟨32, 31, 31⟩
def PWR_PMBSTAT.busy : Fld := ⟨35, 31, 31⟩
def PWR_PMBSTAT.result : Fld := ⟨35, 2, 0⟩
def PWR_RAIL0.live : Fld := ⟨16, 15, 0⟩
def PWR_RAIL0.lowest : Fld := ⟨16, 31, 16⟩
def PWR_REBUILD.go : Fld := ⟨30, 31, 31⟩
def PWR_REBUILD.region : Fld := ⟨30, 5, 0⟩
def PWR_REBUILD.slot : Fld := ⟨30, 10, 8⟩
def PWR_REFUSE.cause : Fld := ⟨19, 31, 28⟩
def PWR_REFUSE.domain : Fld := ⟨19, 6, 0⟩
def PWR_REFUSE.request : Fld := ⟨19, 27, 24⟩
def PWR_REG0.addr : Fld := ⟨16, 29, 23⟩
def PWR_REG0.en : Fld := ⟨16, 31, 31⟩
def PWR_REG0.off_p3 : Fld := ⟨16, 30, 30⟩
def PWR_REG0.page : Fld := ⟨16, 19, 16⟩
def PWR_REG0.timeout : Fld := ⟨16, 15, 8⟩
def PWR_REGSTAT0.good : Fld := ⟨24, 31, 31⟩
def PWR_REGSTAT0.status : Fld := ⟨24, 15, 0⟩
def PWR_RESETCAUSE.cause : Fld := ⟨35, 2, 0⟩
def PWR_RGNREQ.busy : Fld := ⟨16, 30, 30⟩
def PWR_RGNREQ.go : Fld := ⟨16, 31, 31⟩
def PWR_RGNREQ.region : Fld := ⟨16, 5, 0⟩
def PWR_RGNREQ.state : Fld := ⟨16, 21, 20⟩
def PWR_SAVEDIR0.length : Fld := ⟨24, 15, 0⟩
def PWR_SAVEDIR0.offset : Fld := ⟨24, 31, 16⟩
def PWR_SEQFAULT.cause : Fld := ⟨25, 1, 0⟩
def PWR_SEQFAULT.entry : Fld := ⟨25, 10, 8⟩
def PWR_SEQFAULT.valid : Fld := ⟨25, 31, 31⟩
def PWR_STRAPS.boot_noimg : Fld := ⟨37, 2, 2⟩
def PWR_STRAPS.io_pull_sel : Fld := ⟨37, 1, 1⟩
def PWR_STRAPS.pcie_en : Fld := ⟨37, 3, 3⟩
def PWR_STRAPS.pwr_seq : Fld := ⟨37, 0, 0⟩
def PWR_SUPCTL.release : Fld := ⟨20, 31, 31⟩
def PWR_SUPCTL.stop_lead : Fld := ⟨20, 9, 0⟩
def PWR_TJWARN.thr : Fld := ⟨39, 7, 0⟩
def PWR_WAKESRC.src : Fld := ⟨24, 2, 0⟩
def RGN_BORDERPOL.cells_loaded : Fld := ⟨55, 31, 31⟩
def RGN_BORDERPOL.edges : Fld := ⟨55, 15, 0⟩
def RGN_CTXCFG.fault_policy : Fld := ⟨17, 15, 14⟩
def RGN_CTXCFG.port_en : Fld := ⟨17, 12, 12⟩
def RGN_CTXCFG.safe_en : Fld := ⟨17, 11, 11⟩
def RGN_CTXCFG.safe_slot : Fld := ⟨17, 10, 8⟩
def RGN_CTXCFG.stop_en : Fld := ⟨17, 3, 3⟩
def RGN_CTXCFG.stop_slot : Fld := ⟨17, 2, 0⟩
def RGN_CTXSEL.next_slot : Fld := ⟨18, 2, 0⟩
def RGN_CTXSEL.pend : Fld := ⟨18, 31, 31⟩
def RGN_CTXSEL.req : Fld := ⟨18, 3, 3⟩
def RGN_CTXSTAT.active_slot : Fld := ⟨19, 2, 0⟩
def RGN_CTXSTAT.active_tag : Fld := ⟨19, 31, 16⟩
def RGN_CTXSTAT.deferred : Fld := ⟨19, 12, 12⟩
def RGN_CTXSTAT.last_src : Fld := ⟨19, 10, 8⟩
def RGN_CTXSTAT.prev_slot : Fld := ⟨19, 6, 4⟩
def RGN_CTXSTAT.staggered : Fld := ⟨19, 11, 11⟩
def RGN_FAULTLOC.codeword : Fld := ⟨40, 27, 26⟩
def RGN_FAULTLOC.element : Fld := ⟨40, 15, 0⟩
def RGN_FAULTLOC.pair : Fld := ⟨40, 28, 28⟩
def RGN_FAULTLOC.slot : Fld := ⟨40, 31, 29⟩
def RGN_FETCH.entry : Fld := ⟨35, 23, 16⟩
def RGN_FETCH.slot : Fld := ⟨35, 10, 8⟩
def RGN_FETCH.start : Fld := ⟨35, 0, 0⟩
def RGN_FETCHSTAT.busy : Fld := ⟨36, 31, 31⟩
def RGN_FETCHSTAT.entry : Fld := ⟨36, 27, 20⟩
def RGN_FETCHSTAT.result : Fld := ⟨36, 19, 16⟩
def RGN_FETCHSTAT.slot : Fld := ⟨36, 30, 28⟩
def RGN_HAMPER.entries : Fld := ⟨34, 15, 8⟩
def RGN_HAMPER.fetch_blocked : Fld := ⟨34, 0, 0⟩
def RGN_HAMPER.size : Fld := ⟨34, 19, 16⟩
def RGN_HOLD.fault_hold : Fld := ⟨43, 2, 2⟩
def RGN_HOLD.release : Fld := ⟨43, 0, 0⟩
def RGN_HOLD.stop_hold : Fld := ⟨43, 1, 1⟩
def RGN_INFO.depth : Fld := ⟨16, 3, 0⟩
def RGN_INFO.loaded : Fld := ⟨16, 16, 16⟩
def RGN_INFO.pri_tree : Fld := ⟨16, 9, 8⟩
def RGN_INFO.pstate : Fld := ⟨16, 19, 17⟩
def RGN_INFO.sec_en : Fld := ⟨16, 12, 12⟩
def RGN_INFO.sec_tree : Fld := ⟨16, 11, 10⟩
def RGN_LOADERR.cause : Fld := ⟨53, 7, 0⟩
def RGN_LOADERR.count : Fld := ⟨53, 31, 26⟩
def RGN_LOADERR.entry : Fld := ⟨53, 15, 8⟩
def RGN_LOADERR.section : Fld := ⟨53, 25, 16⟩
def RGN_LOADSTAT.entry : Fld := ⟨52, 23, 16⟩
def RGN_LOADSTAT.hamper_busy : Fld := ⟨52, 15, 15⟩
def RGN_LOADSTAT.sections : Fld := ⟨52, 10, 0⟩
def RGN_LOADSTAT.state : Fld := ⟨52, 31, 28⟩
def RGN_RISERCUT.count : Fld := ⟨41, 30, 24⟩
def RGN_RISERCUT.cut_active : Fld := ⟨41, 31, 31⟩
def RGN_RISERCUT.riser : Fld := ⟨41, 15, 0⟩
def RGN_SCHED_CTL.arm : Fld := ⟨27, 4, 4⟩
def RGN_SCHED_CTL.late : Fld := ⟨27, 8, 8⟩
def RGN_SCHED_CTL.slot : Fld := ⟨27, 2, 0⟩
def RGN_SPECCTL.abort : Fld := ⟨44, 11, 11⟩
def RGN_SPECCTL.commit : Fld := ⟨44, 5, 5⟩
def RGN_SPECCTL.corr_slot : Fld := ⟨44, 10, 8⟩
def RGN_SPECCTL.open : Fld := ⟨44, 4, 4⟩
def RGN_SPECCTL.port_en : Fld := ⟨44, 16, 16⟩
def RGN_SPECCTL.pred_slot : Fld := ⟨44, 2, 0⟩
def RGN_SPECLAST.cause : Fld := ⟨51, 29, 27⟩
def RGN_SPECLAST.corr_slot : Fld := ⟨51, 26, 24⟩
def RGN_SPECLAST.outcome : Fld := ⟨51, 31, 30⟩
def RGN_SPECLAST.stall : Fld := ⟨51, 23, 16⟩
def RGN_SPECLAST.window : Fld := ⟨51, 7, 0⟩
def RGN_SPECPRED.pred_slot : Fld := ⟨46, 2, 0⟩
def RGN_SPECPRED.pred_tag : Fld := ⟨46, 31, 16⟩
def RGN_SPECPRED.prior_slot : Fld := ⟨46, 10, 8⟩
def RGN_SPECPRED.run_ahead : Fld := ⟨46, 11, 11⟩
def RGN_SPECPRED.src : Fld := ⟨46, 14, 12⟩
def RGN_SPECSTAT.buf : Fld := ⟨45, 7, 0⟩
def RGN_SPECSTAT.buf_full : Fld := ⟨45, 26, 26⟩
def RGN_SPECSTAT.draining : Fld := ⟨45, 25, 25⟩
def RGN_SPECSTAT.held : Fld := ⟨45, 20, 16⟩
def RGN_SPECSTAT.held_full : Fld := ⟨45, 27, 27⟩
def RGN_SPECSTAT.log : Fld := ⟨45, 14, 8⟩
def RGN_SPECSTAT.log_full : Fld := ⟨45, 28, 28⟩
def RGN_SPECSTAT.open : Fld := ⟨45, 31, 31⟩
def RGN_SPECSTAT.refuse_cause : Fld := ⟨45, 23, 21⟩
def RGN_SPECSTAT.reg_pend : Fld := ⟨45, 24, 24⟩
def RGN_SPECSTAT.stalled : Fld := ⟨45, 30, 30⟩
def RGN_SPECSTAT.win_full : Fld := ⟨45, 29, 29⟩
def RGN_SPECWIN.cycles : Fld := ⟨47, 7, 0⟩
def RGN_SPECWIN.stall_limit : Fld := ⟨47, 31, 16⟩
def RGN_SWMISS.cause : Fld := ⟨31, 11, 8⟩
def RGN_SWMISS.count : Fld := ⟨31, 31, 16⟩
def RGN_SWMISS.slot : Fld := ⟨31, 2, 0⟩
def RGN_SWMISS.src : Fld := ⟨31, 6, 4⟩
def SEN_CALSTAT.calibrated : Fld := ⟨39, 31, 31⟩
def SEN_CALSTAT.residual : Fld := ⟨39, 7, 0⟩
def SEN_CHSEL.ch : Fld := ⟨31, 3, 0⟩
def SEN_CTL.en : Fld := ⟨16, 31, 31⟩
def SEN_CTL.hz60 : Fld := ⟨16, 29, 29⟩
def SEN_CTL.udin : Fld := ⟨16, 15, 0⟩
def SEN_DCCFG.dc_min : Fld := ⟨20, 15, 0⟩
def SEN_DCCFG.dc_warn : Fld := ⟨20, 31, 16⟩
def SEN_LOGCTL.free : Fld := ⟨34, 8, 8⟩
def SEN_LOGCTL.lost : Fld := ⟨34, 31, 24⟩
def SEN_LOGCTL.sel : Fld := ⟨34, 3, 0⟩
def SEN_STAT.freq_valid : Fld := ⟨17, 30, 30⟩
def SEN_STAT.warn : Fld := ⟨17, 31, 31⟩
def SEN_THR.hyst : Fld := ⟨19, 7, 4⟩
def SEN_THR.imb : Fld := ⟨19, 3, 0⟩
def SEN_THR.int : Fld := ⟨19, 15, 8⟩
def SEN_THR.sag : Fld := ⟨19, 31, 24⟩
def SEN_THR.swell : Fld := ⟨19, 23, 16⟩
def SEN_WARNCFG.clear_time : Fld := ⟨21, 23, 16⟩
def SEN_WARNCFG.int_time : Fld := ⟨21, 15, 8⟩
def SEN_WARNCFG.trig : Fld := ⟨21, 31, 29⟩
def SEN_WARNCFG.warn_time : Fld := ⟨21, 7, 0⟩
def SER_CTL.flow : Fld := ⟨16, 4, 4⟩
def SER_CTL.mode : Fld := ⟨16, 1, 0⟩
def SER_DIV.div : Fld := ⟨17, 15, 0⟩
def SER_FMT.bits : Fld := ⟨18, 3, 0⟩
def SER_FMT.parity : Fld := ⟨18, 5, 4⟩
def SER_SPI.wlen : Fld := ⟨23, 12, 8⟩
def SER_SPI.words : Fld := ⟨23, 31, 16⟩
def STW_AGREELAST.dev : Fld := ⟨37, 13, 0⟩
def STW_AGREELAST.port : Fld := ⟨37, 27, 24⟩
def STW_ATTCTL.go : Fld := ⟨29, 31, 31⟩
def STW_ATTSTAT.busy : Fld := ⟨32, 30, 30⟩
def STW_ATTSTAT.cause : Fld := ⟨32, 27, 24⟩
def STW_ATTSTAT.length : Fld := ⟨32, 14, 0⟩
def STW_ATTSTAT.seq : Fld := ⟨32, 23, 16⟩
def STW_ATTSTAT.valid : Fld := ⟨32, 31, 31⟩
def STW_DBGCTL.new_nonce : Fld := ⟨34, 31, 31⟩
def STW_DBGCTL.nsel : Fld := ⟨34, 2, 0⟩
def STW_EXTCTL.go : Fld := ⟨26, 31, 31⟩
def STW_EXTCTL.refused : Fld := ⟨26, 30, 30⟩
def STW_EXTCTL.slot : Fld := ⟨26, 3, 0⟩
def STW_FAULT.cause : Fld := ⟨39, 7, 0⟩
def STW_FAULT.count : Fld := ⟨39, 31, 16⟩
def STW_FUSE.state : Fld := ⟨35, 1, 0⟩
def STW_IDSTAT.bytes : Fld := ⟨39, 15, 0⟩
def STW_IDSTAT.present : Fld := ⟨39, 31, 31⟩
def STW_KEYERR.cause : Fld := ⟨29, 7, 0⟩
def STW_LCREQ.go : Fld := ⟨18, 31, 31⟩
def STW_LCREQ.target : Fld := ⟨18, 1, 0⟩
def STW_LCRESULT.result : Fld := ⟨19, 31, 28⟩
def STW_LCS.rewritten : Fld := ⟨17, 29, 29⟩
def STW_LCS.state : Fld := ⟨17, 31, 30⟩
def STW_LCS.trial : Fld := ⟨17, 28, 28⟩
def STW_MEASSEL.slot : Fld := ⟨16, 3, 0⟩
def STW_MEASSTAT.seq : Fld := ⟨25, 23, 16⟩
def STW_MEASSTAT.slot : Fld := ⟨25, 3, 0⟩
def STW_MEASSTAT.valid : Fld := ⟨25, 31, 31⟩
def STW_POLICY.any_owner : Fld := ⟨27, 1, 1⟩
def STW_POLICY.open_any : Fld := ⟨27, 0, 0⟩
def STW_RECSTAT.valid : Fld := ⟨36, 31, 31⟩
def STW_RECSTAT.writes : Fld := ⟨36, 15, 0⟩
def STW_RNGSTAT.healthy : Fld := ⟨33, 31, 31⟩
def STW_ROLLCTL.go : Fld := ⟨30, 31, 31⟩
def STW_ROLLCTL.slot : Fld := ⟨30, 3, 0⟩
def STW_SCRUBGOLD.valid : Fld := ⟨28, 31, 31⟩
def STW_SCRUBLOG.events : Fld := ⟨25, 15, 0⟩
def STW_SCRUBLOG.last : Fld := ⟨25, 31, 30⟩
def STW_SCRUBSTAT.dead : Fld := ⟨24, 28, 28⟩
def STW_SCRUBSTAT.north : Fld := ⟨24, 31, 31⟩
def STW_SCRUBSTAT.passes : Fld := ⟨24, 15, 0⟩
def STW_SCRUBSTAT.south : Fld := ⟨24, 30, 30⟩
def STW_SCRUBSTAT.stopped : Fld := ⟨24, 29, 29⟩
def STW_STAT.busy : Fld := ⟨16, 30, 30⟩
def STW_STAT.ready : Fld := ⟨16, 31, 31⟩
def STW_STAT.sec_version : Fld := ⟨16, 15, 0⟩
def STW_SVCCTL.go : Fld := ⟨16, 31, 31⟩
def STW_SVCCTL.op : Fld := ⟨16, 2, 0⟩
def STW_SVCLAST.op : Fld := ⟨27, 2, 0⟩
def STW_SVCLAST.status : Fld := ⟨27, 23, 20⟩
def STW_SVCMASK.mask : Fld := ⟨22, 15, 0⟩
def STW_SVCSTAT.busy : Fld := ⟨23, 31, 31⟩
def STW_SVCSTAT.done : Fld := ⟨23, 30, 30⟩
def STW_SVCSTAT.init : Fld := ⟨23, 19, 10⟩
def STW_SVCSTAT.status : Fld := ⟨23, 23, 20⟩
def STW_TOKCTL.end : Fld := ⟨37, 2, 2⟩
def STW_TOKCTL.flush : Fld := ⟨37, 1, 1⟩
def STW_TOKCTL.submit : Fld := ⟨37, 0, 0⟩
def STW_TOKSTAT.result : Fld := ⟨38, 31, 28⟩
def STW_TOKSTAT.words : Fld := ⟨38, 9, 0⟩
def STW_WDT.dbg_pause : Fld := ⟨20, 30, 30⟩
def STW_WDT.en : Fld := ⟨20, 31, 31⟩
def STW_WDT.period : Fld := ⟨20, 15, 0⟩
def STW_WDTCAUSE.bitten : Fld := ⟨23, 31, 31⟩
def STW_WDTCAUSE.prebites : Fld := ⟨23, 15, 0⟩
def ST_ARG.arg : Fld := ⟨17, 15, 0⟩
def ST_ARG.retention : Fld := ⟨17, 31, 31⟩
def ST_CALRES.outcome : Fld := ⟨32, 1, 0⟩
def ST_CTL.go : Fld := ⟨16, 31, 31⟩
def ST_CTL.target : Fld := ⟨16, 9, 0⟩
def ST_CTL.test : Fld := ⟨16, 23, 16⟩
def ST_DESTROY.en : Fld := ⟨35, 0, 0⟩
def ST_EXPCLR.clear : Fld := ⟨32, 0, 0⟩
def ST_LASTTGT.page : Fld := ⟨31, 9, 0⟩
def ST_LBPAT.v : Fld := ⟨28, 31, 0⟩
def ST_RETENT.ms : Fld := ⟨34, 15, 0⟩
def ST_RSEL.slot : Fld := ⟨20, 1, 0⟩
def ST_SAVESTAT.clean : Fld := ⟨30, 31, 31⟩
def ST_SAVESTAT.saved : Fld := ⟨30, 22, 0⟩
def ST_SCANCLR.verified : Fld := ⟨35, 31, 31⟩
def ST_SCANCTL.chain : Fld := ⟨24, 7, 0⟩
def ST_SCANCTL.enter : Fld := ⟨24, 31, 31⟩
def ST_SIGSEL.depth : Fld := ⟨16, 3, 2⟩
def ST_SIGSEL.region : Fld := ⟨16, 13, 8⟩
def ST_SIGSEL.sig : Fld := ⟨16, 1, 0⟩
def TIME_CTL.sw_steer : Fld := ⟨24, 0, 0⟩
def TIME_STEPCTL.absolute : Fld := ⟨28, 1, 1⟩
def TIME_STEPCTL.go : Fld := ⟨28, 0, 0⟩
def VLT_DMA0.cause : Fld := ⟨28, 27, 24⟩
def VLT_DMA0.head : Fld := ⟨28, 21, 16⟩
def VLT_DMA0.outstanding : Fld := ⟨28, 5, 0⟩
def VLT_DMA0.resume : Fld := ⟨28, 30, 30⟩
def VLT_DMA0.run : Fld := ⟨28, 31, 31⟩
def VLT_DMA0.state : Fld := ⟨28, 29, 28⟩
def VLT_DMA0.tail : Fld := ⟨28, 13, 8⟩
def VLT_DMABASE.base : Fld := ⟨27, 25, 14⟩
def VLT_LOGCTL.free : Fld := ⟨23, 8, 8⟩
def VLT_LOGCTL.lost : Fld := ⟨23, 31, 24⟩
def VLT_LOGCTL.sel : Fld := ⟨23, 3, 0⟩
def VLT_REMAP.line : Fld := ⟨26, 19, 0⟩
def VLT_REMAP.sel : Fld := ⟨26, 28, 26⟩
def VLT_REMAP.slot : Fld := ⟨26, 25, 20⟩
def VLT_REMAP.valid : Fld := ⟨26, 31, 31⟩
def VLT_REMAP.wr : Fld := ⟨26, 30, 30⟩
def VLT_SCRUB.en : Fld := ⟨17, 31, 31⟩
def VLT_SCRUB.pass_time : Fld := ⟨17, 15, 0⟩
def VLT_SCRUBPOS.line : Fld := ⟨18, 19, 0⟩
def VLT_SCRUBPOS.passes : Fld := ⟨18, 31, 21⟩
def VLT_SCRUBPOS.spare : Fld := ⟨18, 20, 20⟩
def VLT_STAT.filled : Fld := ⟨16, 31, 31⟩
def VLT_STAT.log_used : Fld := ⟨16, 4, 0⟩
def VLT_STAT.remap_used : Fld := ⟨16, 15, 12⟩
def VLT_STAT.test_active : Fld := ⟨16, 30, 30⟩
def VLT_STAT.test_bank : Fld := ⟨16, 29, 27⟩
def VLT_STAT.test_row : Fld := ⟨16, 26, 16⟩
end F

end Sys2Proof.Machine
end

