-- ==== Sys2Proof/Machine/Sparse.lean ====
section
/-!
DEFINITION. Sparse maps in one canonical form: a list of (key, value) pairs with keys strictly rising and no entry
equal to what an unlisted key reads as. The register file and the memories of the device are held this way, so that
equal contents are equal data. The laws of reading and writing, and that writing keeps the form, stand beside the
operations.
-/

namespace Sys2Proof.Machine

/-- A sparse map: the listed keys, strictly rising. -/
abbrev Sparse (β : Type) := List (Nat × β)

/-- The value a key reads as: the listed one, or `dflt` of the key. -/
def sparseGet {β : Type} (dflt : Nat → β) : Sparse β → Nat → β
  | [], k => dflt k
  | (k', v) :: m, k => if k' = k then v else sparseGet dflt m k

/-- Put a pair in front, unless it says what the unlisted key reads as. -/
def sparseCons {β : Type} [DecidableEq β] (dflt : Nat → β) (k : Nat) (v : β) (m : Sparse β) : Sparse β :=
  if v = dflt k then m else (k, v) :: m

/-- Write one key, keeping the canonical form: the value an unlisted key reads as removes the entry. -/
def sparsePut {β : Type} [DecidableEq β] (dflt : Nat → β) : Sparse β → Nat → β → Sparse β
  | [], k, v => sparseCons dflt k v []
  | (k', v') :: m, k, v =>
    if k' < k then (k', v') :: sparsePut dflt m k v
    else if k' = k then sparseCons dflt k v m
    else sparseCons dflt k v ((k', v') :: m)

/-- Every key of the map is above `b`, keys rise strictly, and no entry says the unlisted value. -/
def sparseAbove {β : Type} [DecidableEq β] (dflt : Nat → β) : Option Nat → Sparse β → Bool
  | _, [] => true
  | b, (k, v) :: m =>
    (match b with
      | none => true
      | some j => decide (j < k)) && decide (v ≠ dflt k) && sparseAbove dflt (some k) m

/-- The canonical form. -/
def sparseWf {β : Type} [DecidableEq β] (dflt : Nat → β) (m : Sparse β) : Bool := sparseAbove dflt none m

section
variable {β : Type} [DecidableEq β] {dflt : Nat → β}

theorem sparseAbove_weaken {m : Sparse β} {b : Option Nat} {j : Nat} (h : sparseAbove dflt (some j) m = true)
    (hb : ∀ i, b = some i → i ≤ j) : sparseAbove dflt b m = true := by
  cases m with
  | nil => rfl
  | cons p m =>
    obtain ⟨k, v⟩ := p
    simp only [sparseAbove, Bool.and_eq_true, decide_eq_true_eq] at h ⊢
    refine ⟨⟨?_, h.1.2⟩, h.2⟩
    cases b with
    | none => rfl
    | some i => exact decide_eq_true (Nat.lt_of_le_of_lt (hb i rfl) h.1.1)

theorem sparseAbove_cons {m : Sparse β} {b : Option Nat} {k : Nat} {v : β}
    (hk : ∀ i, b = some i → i < k) (h : sparseAbove dflt (some k) m = true) :
    sparseAbove dflt b (sparseCons dflt k v m) = true := by
  unfold sparseCons
  split
  · exact sparseAbove_weaken h (fun i hi => Nat.le_of_lt (hk i hi))
  · rename_i hv
    simp only [sparseAbove, Bool.and_eq_true, decide_eq_true_eq]
    refine ⟨⟨?_, hv⟩, h⟩
    cases b with
    | none => rfl
    | some i => exact decide_eq_true (hk i rfl)

theorem sparseAbove_put {m : Sparse β} {k : Nat} {v : β} :
    ∀ {b : Option Nat}, sparseAbove dflt b m = true → (∀ i, b = some i → i < k) →
      sparseAbove dflt b (sparsePut dflt m k v) = true := by
  induction m with
  | nil => intro b _ hk; exact sparseAbove_cons hk rfl
  | cons p m ih =>
    intro b h hk
    obtain ⟨k', v'⟩ := p
    have h' := h
    simp only [sparseAbove, Bool.and_eq_true, decide_eq_true_eq] at h
    simp only [sparsePut]
    split
    · rename_i hlt
      simp only [sparseAbove, Bool.and_eq_true, decide_eq_true_eq]
      exact ⟨h.1, ih h.2 (fun i hi => by cases hi; exact hlt)⟩
    · split
      · rename_i _ he
        subst he
        exact sparseAbove_cons hk h.2
      · rename_i hge hne
        refine sparseAbove_cons hk ?_
        simp only [sparseAbove, Bool.and_eq_true, decide_eq_true_eq]
        exact ⟨⟨by omega, h.1.2⟩, h.2⟩

/-- A write keeps the canonical form. -/
theorem sparseWf_put {m : Sparse β} (h : sparseWf dflt m = true) (k : Nat) (v : β) :
    sparseWf dflt (sparsePut dflt m k v) = true :=
  sparseAbove_put h (fun _ hi => by cases hi)

theorem sparseGet_above {m : Sparse β} : ∀ {j k : Nat}, sparseAbove dflt (some j) m = true → k ≤ j →
    sparseGet dflt m k = dflt k := by
  induction m with
  | nil => intro j k _ _; rfl
  | cons p m ih =>
    intro j k h hk
    obtain ⟨k', v'⟩ := p
    simp only [sparseAbove, Bool.and_eq_true, decide_eq_true_eq] at h
    have : k' ≠ k := by omega
    simp only [sparseGet, this, if_false]
    exact ih h.2 (by omega)

theorem sparseGet_cons_same {m : Sparse β} {k : Nat} {v : β} (h : sparseAbove dflt (some k) m = true) :
    sparseGet dflt (sparseCons dflt k v m) k = v := by
  unfold sparseCons
  split
  · rename_i hv; rw [hv]; exact sparseGet_above h (Nat.le_refl _)
  · simp [sparseGet]

theorem sparseGet_cons_ne {m : Sparse β} {k j : Nat} {v : β} (h : k ≠ j) :
    sparseGet dflt (sparseCons dflt k v m) j = sparseGet dflt m j := by
  unfold sparseCons
  split
  · rfl
  · simp [sparseGet, h]

/-- A read of the key just written answers the value written. -/
theorem sparseGet_put_same {m : Sparse β} {k : Nat} {v : β} :
    ∀ {b : Option Nat}, sparseAbove dflt b m = true → sparseGet dflt (sparsePut dflt m k v) k = v := by
  induction m with
  | nil => intro b _; exact sparseGet_cons_same rfl
  | cons p m ih =>
    intro b h
    obtain ⟨k', v'⟩ := p
    simp only [sparseAbove, Bool.and_eq_true, decide_eq_true_eq] at h
    simp only [sparsePut]
    split
    · rename_i hlt
      have hne : k' ≠ k := by omega
      simp only [sparseGet, hne, if_false]
      exact ih h.2
    · split
      · rename_i _ he
        subst he
        exact sparseGet_cons_same h.2
      · refine sparseGet_cons_same ?_
        simp only [sparseAbove, Bool.and_eq_true, decide_eq_true_eq]
        exact ⟨⟨by omega, h.1.2⟩, h.2⟩

/-- A read of another key answers what it answered before. -/
theorem sparseGet_put_ne {m : Sparse β} {k j : Nat} {v : β} (hne : k ≠ j) :
    sparseGet dflt (sparsePut dflt m k v) j = sparseGet dflt m j := by
  induction m with
  | nil => exact sparseGet_cons_ne hne
  | cons p m ih =>
    obtain ⟨k', v'⟩ := p
    simp only [sparsePut]
    split
    · simp only [sparseGet, ih]
    · split
      · rename_i _ he
        subst he
        rw [sparseGet_cons_ne hne]
        simp [sparseGet, hne]
      · exact sparseGet_cons_ne hne

/-- In a canonical map every listed value satisfies what every written value and every unlisted value satisfies. -/
theorem sparse_all_put {P : Nat → β → Prop} {m : Sparse β} {k : Nat} {v : β}
    (hm : ∀ p ∈ m, P p.1 p.2) (hv : P k v) : ∀ p ∈ sparsePut dflt m k v, P p.1 p.2 := by
  have hcons : ∀ m' : Sparse β, (∀ p ∈ m', P p.1 p.2) → ∀ p ∈ sparseCons dflt k v m', P p.1 p.2 := by
    intro m' hm' p hp
    unfold sparseCons at hp
    split at hp
    · exact hm' p hp
    · rcases List.mem_cons.1 hp with h | h
      · rw [h]; exact hv
      · exact hm' p h
  induction m with
  | nil => exact hcons [] hm
  | cons q m ih =>
    obtain ⟨k', v'⟩ := q
    simp only [sparsePut]
    split
    · intro p hp
      rcases List.mem_cons.1 hp with h | h
      · rw [h]; exact hm (k', v') (List.mem_cons_self ..)
      · exact ih (fun p hp => hm p (List.mem_cons_of_mem _ hp)) p h
    · split
      · exact hcons m (fun p hp => hm p (List.mem_cons_of_mem _ hp))
      · exact hcons _ hm

theorem sparseAbove_filter {m : Sparse β} (keep : Nat × β → Bool) :
    ∀ {b : Option Nat}, sparseAbove dflt b m = true → sparseAbove dflt b (m.filter keep) = true := by
  induction m with
  | nil => intro b _; rfl
  | cons p m ih =>
    intro b h
    obtain ⟨k, v⟩ := p
    simp only [sparseAbove, Bool.and_eq_true, decide_eq_true_eq] at h
    simp only [List.filter_cons]
    split
    · simp only [sparseAbove, Bool.and_eq_true, decide_eq_true_eq]
      exact ⟨h.1, ih h.2⟩
    · refine sparseAbove_weaken (ih h.2) (fun i hi => ?_)
      subst hi
      exact Nat.le_of_lt (of_decide_eq_true h.1.1)

/-- Dropping entries keeps the canonical form. -/
theorem sparseWf_filter {m : Sparse β} (h : sparseWf dflt m = true) (keep : Nat × β → Bool) :
    sparseWf dflt (m.filter keep) = true :=
  sparseAbove_filter keep h
end

end Sys2Proof.Machine
end

