-- ==== Sys2Proof/Machine/State.lean ====
section
/-!
DEFINITION. The state of the part, as plain data. Every architectural register has its one home in `Device.regs`, a
sparse map over the register window (02); the memories have theirs in `Device.mem`, a sparse byte map over the
device address map (R32) and, above it, over the memories that no address of the map reaches (tightly coupled
memories, configuration stores, block RAMs, buffers); the general registers of the engines stand in `Device.gpr`;
what the spec gives the machine beside registers and memories stands in `Inner`.
-/

namespace Sys2Proof.Machine

/-! ### The register window -/

/-- The number of event sources a page owns (R48). -/
def srcCount (p : Nat) : Nat :=
  match kindOf p with
  | some .rgn => 3
  | some .eng | some .vlt | some .ln | some .lnk | some .ser | some .io | some .evt => 1
  | some .pwr1 | some .pwr2 | some .pwr3 | some .pwr4 | some .pwr5 | some .pwr6 => 1
  | some .hp0 | some .hp1 | some .hp2 | some .hp3 | some .ext | some .cry | some .ctr => 2
  | some .fl | some .eth | some .clkD | some .clkE | some .clkF | some .clk10 => 2
  | some .stw1 | some .stw2 | some .stw3 | some .stw4 | some .st6 | some .st7 => 2
  | some .sen => 6
  | some .dbg => 4
  | _ => 0

/-- The six privileged pages (R45). -/
def privilegedPage (p : Nat) : Bool := p == 3 || p == 4 || p == 0x26 || p == 0x27 || p == 6 || p == 7

/-- The pages whose gate is fixed open (R43). -/
def gateFixed (p : Nat) : Bool := p == 0 || p == 5 || (8 ≤ p && p ≤ 0x17)

/-- The fixed non-maskable sources, as (page, bit) (R53). -/
def nmiFixed (p b : Nat) : Bool :=
  (p == 0x0D && b == 0) || (p == 0x17 && b == 0) || (p == 0x24 && b == 0) || (p == 1 && (b == 0 || b == 1))

/-- The bits of a page's own sources. -/
def srcMask (p : Nat) : Nat := 2 ^ srcCount p - 1

/-- The EV_MASK bits that can be written: the page's sources less those fixed under R53 (R50). -/
def maskableMask (p : Nat) : Nat :=
  (List.range (srcCount p)).foldl (fun m b => if nmiFixed p b then m else m + 2 ^ b) 0

/-- The bits of one field. -/
def FieldD.mask (f : FieldD) : Nat := (2 ^ (f.hi + 1 - f.lo) - 1) <<< f.lo

/-- The register at a word offset of a page of some kind, with the tables inside pages. -/
def Kind.fieldsAt (k : Kind) (w : Nat) : List FieldD :=
  match k.regs.find? (fun r => r.off == w) with
  | some r => r.fields
  | none =>
    match k.tables.find? (fun t => t.1 ≤ w && w < t.1 + t.2.1) with
    | some t => t.2.2
    | none => []

/-- The header registers that hold a value: PG_GATE, PG_STAT, EV_RAW, EV_MASK, EV_PEND, PG_LOCK (02, page header). -/
def headerMask (p w : Nat) : Nat :=
  match w with
  | 2 => if gateFixed p then 0 else if p == 1 || p == 2 then 1 else 3
  | 3 => 7
  | 4 => srcMask p
  | 5 => maskableMask p
  | 6 => srcMask p
  | 7 => 0xC3FF0000
  | _ => 0

/-- Offsets that are reserved on this page of their kind: LNK_DEV to LNK_PROXYSIG and the link waymarks beyond page 0x050
(R299), EVT_NMI and EVT_NMISEQ beyond page 0x008, LN_ETHSEL beyond page 0x08C (R313), a management bus beyond the four
banks that have one (R352). -/
def onlyOn (k : Kind) (p w : Nat) : Bool :=
  match k with
  | .lnk => p != 80 && 31 ≤ w
  | .evt => p != 8 && (w == 19 || w == 31)
  | .ln => p != 140 && w == 38
  | .io => 67 < p && 24 ≤ w && w < 256
  | _ => false

/-- The bits of a register that hold a value; every other bit is reserved and reads 0 (R7). WO fields hold none (R8).
Registers and tables that stand on one page of their kind only are reserved on the others (`onlyOn`). -/
def regMask (p w : Nat) : Nat :=
  match kindOf p with
  | none => 0
  | some k =>
    if w < 8 then headerMask p w
    else if onlyOn k p w then 0
    else (k.fieldsAt w).foldl (fun m f => if f.acc = .wo then m else m ||| f.mask) 0

/-- The minimal route between two routers, first east or west and then north or south, as a waymark (R240). -/
def minRoute (n m : Nat) : Nat :=
  let ew := List.replicate (m % 8 - n % 8) 1 ++ List.replicate (n % 8 - m % 8) 3
  let ns := List.replicate (m / 8 - n / 8) 0 ++ List.replicate (n / 8 - m / 8) 2
  let ds := ew ++ ns
  ds.length * 2 ^ 28 + ds.foldr (fun x acc => x + 4 * acc) 0

/-- Values at POR that depend on the instance of a page: PWR_REGx.addr (0x40 + x), RGN_INFO.stagger_phase (R106), the
power domains and regions on (R419), the part's identity, the completion timeout of
Device Control 2 at its default (R261), the coverage figures of R476, the route entries of the fixed sources, 495 to 659 on page 0x00B (R51, R53). -/
def instanceReset (k : Kind) (p w : Nat) : Option Nat :=
  match k, w with
  | .rgn, 16 => some (((p - 256) / 16) <<< 4)
  | .pwr2, 18 => some 0xFFFFFFFF
  | .pwr2, 19 => some 0xFFFFFFFF
  | .pwr2, 20 => some 0xFFFF
  | .dev, 20 => some (Config.uid 0).toNat
  | .dev, 21 => some (Config.uid 1).toNat
  | .dev, 22 => some (Config.uid 2).toNat
  | .dev, 23 => some (Config.uid 3).toNat
  | .hp0, 30 => some 60
  | .st7, 31 => some 0x605C
  | .evt, _ => if p = 11 ∧ [341, 381, 395, 401, 402].contains w then some 0xC0000000 else none
  | .ni, _ => if 256 ≤ w ∧ w < 384 then some (minRoute (p - 320) (w % 64)) else none
  | _, _ => none

/-- The reset value of a register, before its reserved bits are dropped. -/
def regResetRaw (p w : Nat) : Nat :=
  match kindOf p with
  | none => 0
  | some k =>
    if w < 8 then
      (match w with
        | 2 => if privilegedPage p then 0 else 1
        | 5 => maskableMask p
        | _ => 0)
    else
      match instanceReset k p w with
      | some v => v
      | none =>
        let pwrReg : Nat := if k = .pwr3 ∧ 16 ≤ w ∧ w < 24 then (0x40 + (w - 16)) <<< 23 else 0
        (k.fieldsAt w).foldl (fun m f => m ||| (f.reset <<< f.lo)) pwrReg

/-- The key of a register in the sparse map: page × 1024 + word offset. -/
def regKey (p w : Nat) : Nat := p * 1024 + w

/-- The bits that the register of a key holds. -/
def keyMask (k : Nat) : Word := BitVec.ofNat 32 (regMask (k / 1024) (k % 1024))

/-- What a register reads as while nothing is listed for it: its reset value (R6). -/
def regDflt (k : Nat) : Word := BitVec.ofNat 32 (regResetRaw (k / 1024) (k % 1024)) &&& keyMask k

/-- What a byte of a memory reads as while nothing is listed for it: 0, as the vaults read after their fill (R170); in
flash the value of an erased byte (notes/assumptions/6.md). -/
def memDflt (a : Nat) : Byte := if 0x1200000000 ≤ a ∧ a < 0x1208000000 then 0xFF else 0

/-! ### What the part puts out -/

/-- The errors that the host port reports through AER: Completer Abort, Unexpected Completion, poisoned data (R47, R257, R261). -/
inductive Aer | completerAbort | unexpectedCompletion | poisoned
deriving DecidableEq, Repr

/-- One output of the part: what leaves it for the host, a peer device, the pins, the steward's program or a
personality. The model lists them oldest last (notes/assumptions/5.md). -/
inductive Out
  /-- a write to host memory -/
  | hostWrite (addr : Nat) (data : List Byte)
  /-- an MSI-X message of a vector -/
  | msix (vec : Nat)
  /-- a completion to a host request: data, or Completer Abort (R47), with the EP bit (R257) -/
  | hostCpl (ok : Bool) (ep : Bool) (data : List Byte)
  /-- an error reported to the host through AER (R47, R257, R261) -/
  | aer (what : Aer)
  /-- the answer to a configuration request: Retry Status, or completed with data (R254) -/
  | config (retry : Bool) (data : Nat)
  /-- a read of host memory, by tag (R260) -/
  | hostRead (tag : Nat) (addr : Nat) (n : Nat)
  /-- an event delivered to the steward (R51) -/
  | steward (src : Nat)
  /-- a frame sent on a Guleg port, by kind code and payload numbers -/
  | frame (port : Nat) (kind : Nat) (nums : List Nat)
  /-- a response or message presented to a personality, by region, kind and numbers -/
  | fabric (r : Nat) (kind : Nat) (nums : List Nat)
  /-- a character, word or frame on a user pin interface, by page and numbers -/
  | wire (page : Nat) (nums : List Nat)
  /-- a response of the debug port -/
  | debug (nums : List Nat)
  /-- the result of an image that came in a chain, to the host or through the upstream device: DEV_LOADSTAT (R151) -/
  | report (result : Word)
  /-- a command to the flash die, a regulator or a memory channel, by page and numbers -/
  | device (page : Nat) (nums : List Nat)
deriving DecidableEq, Repr

/-! ### Regions: contexts, switching, speculation (03, 04, 05, 06) -/

/-- The classes of a switch request, highest first (R99). -/
inductive SwClass | stop | safe | abort | sched | reg | port
deriving DecidableEq, Repr

/-- A switch request in the held place, or committed (R94, R99). -/
structure SwReq where
  cls : SwClass
  slot : SlotId
  /-- an opening request of a speculation, with RGN_SPECPRED.src (R123) -/
  opening : Option Nat := none
  /-- the target of a scheduled switch (R101) -/
  target : Option Nat := none
  /-- deferred by the governor (R105) -/
  deferred : Bool := false
  /-- delayed by its stagger phase (R106) -/
  staggered : Bool := false
  /-- the corrected-context switch of an abort, with RGN_SPECLAST.cause (R136) -/
  abort : Option Nat := none
  /-- its edge 0, in 1/48 ns of the region's copy of DEVTIME (R94, R101, R105, R106) -/
  at48 : Nat := 0
  /-- a fetch into the named slot completed at or after edge -2 (R97) -/
  lateFetch : Bool := false
deriving DecidableEq, Repr

/-- A register request to a speculation, not yet captured (R122): an opening, by RGN_SPECPRED.src, a commit, an abort. -/
inductive SpecReg | opn (src : Nat) | commit | abort
deriving DecidableEq, Repr

/-- What a region sends out through its network interface or vertical port while it is held (R28, R131). -/
inductive HeldReq
  | net (q : FabReq)
  | vp (line : Nat) (write : Bool) (tag : Nat) (be : Nat) (data : List Byte)
  | rsp (id : Nat) (err : Bool) (data : List Byte)
deriving DecidableEq, Repr

/-- A packet of the tile network (10, table Packet header). `dirs` are the directions still to go, next first; `rdirs`
the directions recorded for the way back, last first (R241, R242). -/
structure Packet where
  kind : Nat
  cls : Nat
  tag : Nat
  src : Nat
  dev : Nat
  addr : Nat
  be : Nat
  word : Word
  data : List Byte
  status : Nat := 0
  poison : Bool := false
  dirs : List Nat := []
  exit : Nat := 0
  rdirs : List Nat := []
  rexit : Nat := 0
  /-- the router it stands at, and whether it has left through that router's exit -/
  pos : Nat := 0
  out : Bool := false
  /-- which injection of its source it belongs to (the model's own field): a late response is told from one in time -/
  seq : Nat := 0
  /-- treated as a debug access (R470); the kind of the request that a response answers -/
  dbg : Bool := false
  req : Nat := 0
  /-- of a request that came over Guleg: its source device, etag and initiator there (R288) -/
  origin : Option (Nat × Nat × Nat) := none
deriving DecidableEq, Repr

/-- A request of a fabric without its response: the DEVTIME of its injection, its destination router, and whether it
waits to be retried after BUSY or BUSY_TEST (R239, R244). -/
structure FabPend where
  req : FabReq
  since : Nat
  router : Nat
  retry : Bool := false
  seq : Nat := 0
deriving DecidableEq, Repr

/-- The checkpoint plane (R126). The streaming FIFOs keep what a speculation popped and pushed themselves (`Fifo`). -/
structure Ckpt where
  ff : Sparse Bool
  arith : Sparse Dword
  pinOut : Nat
  pinOe : Nat
  bcell : Nat
deriving DecidableEq, Repr

/-- An open speculation (R121). -/
structure Spec where
  pred : SlotId
  prior : SlotId
  ckpt : Ckpt
  log : List BramWrite := []
  held : List HeldReq := []
  /-- stall cycles so far (R134) -/
  stallCycles : Nat := 0
deriving DecidableEq, Repr

/-- One entry of the border commit buffer (R127). -/
structure BorderEntry where
  committed : Bool
  lines : Nat
deriving DecidableEq, Repr

/-- A fetch in progress (R109). -/
structure Fetch where
  entry : Nat
  slot : SlotId
  headerOk : Bool := false
deriving DecidableEq, Repr

/-- What a context slot holds beside its configuration cells: private-state bits and arithmetic registers. -/
structure SlotS where
  /-- private-state bits by flip-flop number (R61) -/
  priv : Sparse Bool := []
  /-- pipeline registers and accumulators by register number (R75) -/
  arith : Sparse Dword := []
  /-- the speculable bit and the counts of its context descriptor (R144) -/
  speculable : Bool := false
  bramWe : Nat := 0
  buffered : Nat := 0
deriving DecidableEq, Repr

/-- One streaming FIFO between a region's fabric and an engine (R208). `popped` are the words the fabric popped and
`unc` counts the words it pushed during an open speculation (R132). -/
structure Fifo where
  q : List Word := []
  popped : List Word := []
  unc : Nat := 0
  /-- words popped so far, modulo 16: the read pointer (R126, R467) -/
  rd : Nat := 0
deriving DecidableEq, Repr

/-- A region: what context control, the fabric, the vertical port and the loader hold for it. -/
structure Region where
  /-- live flip-flops by number 2 × element + i (R56, R64) -/
  ff : Sparse Bool := []
  slots : Vector SlotS 8 := Vector.replicate 8 {}
  held : Option SwReq := none
  committed : Option SwReq := none
  /-- the armed scheduled switch: slot and target DEVTIME (R102) -/
  armed : Option (SlotId × Nat) := none
  /-- the register request that is pending, with its slot (R95, R99) -/
  regReq : Option SlotId := none
  /-- port requests held while a speculation is open, oldest first (R100) -/
  portWait : List SlotId := []
  /-- an armed switch fell due while a speculation was open (R100) -/
  schedDue : Bool := false
  /-- a register request to a speculation, and the primary edges until its capture; 0 for an opening that waits for the held place
  (R122, R124) -/
  specReg : Option (SpecReg × Nat) := none
  spec : Option Spec := none
  /-- the speculation whose abort is in progress; the enable stays low (R136) -/
  aborting : Option Spec := none
  /-- an uncorrectable error is recorded in the active slot (R96, R117) -/
  activeBad : Bool := false
  /-- the slots that SLOT sections of the image being loaded have written, with the manifest index of the last of them (R154) -/
  filled : List (SlotId × Nat) := []
  /-- the 32 down FIFOs (engine to fabric) and up FIFOs (fabric to engine) (R208) -/
  down : Vector Fifo 32 := Vector.replicate 32 {}
  up : Vector Fifo 32 := Vector.replicate 32 {}
  /-- requests handed to the network interface and not yet injected (R251) -/
  outbox : List HeldReq := []
  /-- fabric requests without their responses (R246), the target queue and the MSGs taken and not yet answered, by NT_ID
  (R251), the flits in the four token buckets (R245) -/
  pend : List FabPend := []
  netSeq : Nat := 0
  /-- responses that wait in the port for the regional enable: tag, status, data (R87) -/
  nrq : List (Nat × Nat × List Byte) := []
  tq : List (Nat × Packet) := []
  taken : List (Nat × Packet) := []
  bucket : Vector Nat 4 := Vector.replicate 4 16
  /-- committed entries of the border commit buffer and the values last delivered (R128) -/
  border : List BorderEntry := []
  delivered : Nat := 0
  /-- the registers of the border cells (R77, R126) -/
  bcell : Nat := 0
  /-- immediate lines and pins frozen at the opening edge (R127), the pins at these outputs and enables -/
  frozen : Bool := false
  pinHeld : Nat × Nat := (0, 0)
  /-- the registers of the 48 pins of its bank: inputs and outputs, two bits a pin (R344), output enables (R126) -/
  pinIn : Nat := 0
  pinOut : Nat := 0
  pinOe : Nat := 0
  /-- read outputs of the block RAM ports by 2 × block RAM + port, their error outputs, their collision outputs (R72, R73) -/
  bramOut : Sparse Nat := []
  bramErr : Nat := 0
  bramColl : Nat := 0
  fetch : Option Fetch := none
  /-- header writes of a hamper growth in progress, with the new size (R107) -/
  grow : Option Nat := none
  /-- cut risers (R82), and the shared risers that a corrupted bit lets both ends drive, by slot (R82, R83) -/
  cuts : List Nat := []
  contend : List (SlotId × Nat) := []
  /-- the enable input of the personality (R87) -/
  persEnable : Bool := true
  /-- debug halt (R465) -/
  dbgHalt : Bool := false
  /-- under a region test, from its quiet edge to its restore; a stop switch that fell due meanwhile (R481, R482) -/
  test : Bool := false
  stopDue : Bool := false
  /-- region reset and load reset (R90, R154) -/
  loadReset : Bool := true
  /-- in load reset from its assertion until release or failure: fetches are refused (R109) -/
  loading : Bool := false
  /-- the loader has full-load border and pin states in force (R157) -/
  fullLoad : Bool := true
  startSlot : SlotId := 0
  /-- the image_id of the image that will release the region, the manifest index of the region's last section, whether the region may be
  released on its next edge, and the tree whose edge it awaits (R155) -/
  rel : Option Nat := none
  relSec : Nat := 0
  relNow : Bool := false
  relTree : Option Nat := none
  /-- returned from P2 and waiting for a rebuild (R396); the power state to which a transition leads (R391) -/
  rebuild : Bool := false
  powGoal : Option Nat := none
  confidential : Bool := false
  /-- border line policies from the loaded image: 2 bits a line, force 0 before any image (R157) -/
  linePol : Nat := 0
  /-- the policies of the image being loaded, which take effect at release (R157) -/
  newPol : Nat := 0
  /-- the pairs of its bank's pins whose inputs are terminated, from the loaded image and from the one being loaded (R499) -/
  term : Nat := 0
  newTerm : Nat := 0
  /-- drive strength, two bits a pin, and fast slew, one bit a pin, of its bank's pins: of the loaded image, and of the one being loaded
  (R498) -/
  pads : Nat × Nat := (0, 0)
  newPads : Nat × Nat := (0, 0)
  /-- the taps that the delay lines of its bank's pins take at release (R345) -/
  taps : List Nat := []
  /-- one-cycle signals to the personality -/
  ctxMiss : Bool := false
  ctxSwitched : Bool := false
  specRefused : Bool := false
  specAborted : Bool := false
  ctxPending : Bool := false
  /-- vertical-port requests accepted and not yet answered: offset, write, tag, data (R164) -/
  vp : List HeldReq := []
  /-- vertical-port requests that a load reset ended and the vault has not answered yet (R249) -/
  vpEnded : List HeldReq := []
  /-- the region's copy of DEVTIME, and its fraction in 1/48 ns (R101) -/
  devtime : Nat := 0
  devpart : Nat := 0
deriving DecidableEq, Repr


/-! ### Host commands, the loader, the steward (06, 11, 19) -/

/-- What a host command that has been started waits for: a fetch, a power state of a region or of the device (64), the
end of the open image, a report, the park of an engine, a self-test slot, the taking of the bytes of a LOAD. -/
inductive Wait
  | fetch (r : Nat)
  | power (k : Nat) (st : Nat)
  | load
  | attest
  | park (e : Nat)
  | test (slot : Nat)
  | bytes (cid : Nat)
  | own
  | queue (q : Nat)
deriving DecidableEq, Repr

/-- A host command that the host port has taken (R266, R267, table Submission entry). `ended` is its status and result
once it has ended, `order` when it did; `sqHead` the submission head after it was taken; `aborted` its completion is not to be issued;
`deleted` its queue was deleted while it ran. -/
structure HostCmd where
  q : Nat
  cid : Nat
  opcode : Nat
  flags : Nat
  target : Nat
  haddr : Nat
  daddr : Nat
  length : Nat
  p0 : Nat
  p1 : Nat
  zeroOk : Bool
  sqHead : Nat
  wait : Option Wait := none
  ended : Option (Nat × Nat) := none
  order : Nat := 0
  aborted : Bool := false
  deleted : Bool := false
deriving DecidableEq, Repr

/-- The loader (06): the image that is open and how far it has come. -/
structure Loader where
  /-- source of the open image: 0 host, 1 flash, 2 chain; the host queue that carries it -/
  src : Option Nat := none
  queue : Nat := 0
  bytes : List Byte := []
  /-- bytes of LOAD commands that the section buffer has no room for yet, by command identifier, oldest first (R148) -/
  rest : List (Nat × List Byte) := []
  /-- the host has sent its last part; the image has been rejected and what is left of it is discarded -/
  lastIn : Bool := false
  rejected : Bool := false
  headerOk : Bool := false
  verified : Bool := false
  /-- the manifest index being handled; its section has passed and is being written -/
  idx : Nat := 0
  writing : Bool := false
  /-- regions whose REGION section passed, targets that failed, regions whose REGION section failed, engines written -/
  good : List Nat := []
  bad : List Nat := []
  skipped : List Nat := []
  engines : List Nat := []
  badEngines : List Nat := []
  /-- hamper entries whose section failed, by region and entry -/
  badEntries : List (Nat × Nat) := []
  failed : Bool := false
  /-- the rest of the image is skipped, its DEVICE section having failed -/
  stopped : Bool := false
  /-- the global-release tree of the DEVICE section -/
  tree : Nat := 0
  /-- a chain stream: bytes not yet parsed, count and total of the header received, forwarding has begun -/
  chainIn : List Byte := []
  chain : Option (Nat × Nat) := none
  forwarded : Bool := false
  /-- the bytes of the device's own image in it, and those of the images after it that have gone by -/
  own : List Byte := []
  fwd : List Byte := []
  /-- the images after it are dropped, not forwarded; a stream that cannot be parsed is dropped up to the next chain header -/
  mute : Bool := false
  lost : Bool := false
deriving DecidableEq, Repr

/-- An attestation request that has been captured: buffer address, initiator, report without its signature (R436). -/
structure AttReq where
  addr : Nat
  who : Nat
  report : List Byte
deriving DecidableEq, Repr

/-- A sealing-service operation in progress (R444). -/
structure SvcReq where
  who : Nat
  op : Nat
  status : Nat
  out : Nat
deriving DecidableEq, Repr

/-- The steward (19): fuses, steward record, key store, measurement slots, nonce, token FIFO, work in progress. -/
structure StwS where
  fuseLcs : Nat := 0
  recLcs : Nat := 0
  owner : List Byte := []
  secretGone : Bool := false
  rollStw : Nat := 0
  rollMin : Vector Nat 8 := Vector.replicate 8 0
  /-- preferred slot of the record, slot on trial (R431), record writes -/
  preferred : Nat := 0
  trial : Option Nat := none
  recWrites : Nat := 0
  chain : List Byte := []
  /-- key store: identity key, seal root, memory keys (R428) -/
  identity : Bool := false
  sealRoot : Bool := false
  memKeys : Bool := false
  /-- measurement slots, their extend counts, the sec_version last measured into slots 2 to 9 -/
  slots : Vector (List Byte) 16 := Vector.replicate 16 (List.replicate 32 0)
  seqs : Vector Nat 16 := Vector.replicate 16 0
  lastVer : Vector (Option Nat) 8 := Vector.replicate 8 none
  nonce : List Byte := List.replicate 32 0
  tok : List Word := []
  /-- the device watchdog was paused at the last cycle; what of a millisecond it has counted, in 1/48 ns (R445) -/
  wdtPaused : Bool := false
  /-- The device watchdog has raised its pre-bite since its count was last loaded (R445). -/
  preBitten : Bool := false
  wdtPart : Nat := 0
  /-- a token is being checked -/
  checking : Bool := false
  att : Option AttReq := none
  reports : Nat := 0
  /-- the last buffer of a debugger's request (R436) -/
  dbgBuf : Option (Nat × Nat) := none
  /-- the device number of the remote device whose register request is being served (R437) -/
  asker : Nat := 0
  svc : Option SvcReq := none
  /-- a REFCLK stop of start-up (R412) -/
  refStop : Bool := false
  /-- this start runs the slot on trial (R431) -/
  trying : Bool := false
deriving DecidableEq, Repr
/-! ### The host port (11) -/

/-- A queue pair beside HP_SQ, HP_CQ and HP_CQVEC: bases in host memory, the submission tail, entries not yet signalled
(R273), commands aborted by its deletion; the entry at its head has been read and waits for its fence (R266). -/
structure HQueue where
  sqBase : Nat := 0
  cqBase : Nat := 0
  tail : Nat := 0
  unsig : Nat := 0
  killed : Nat := 0
  fenced : Bool := false
deriving DecidableEq, Repr, Inhabited

/-- A read that the device has made of host memory, by tag: initiator, host window offset, bytes; `data` once it has ended,
none inside for a failure (R260, R261). -/
structure HostRead where
  tag : Nat
  who : Nat
  addr : Nat
  n : Nat
  data : Option (Option (List Byte)) := none
deriving DecidableEq, Repr

/-- A read through BAR2 (R257): its identifier, address and bytes; the answers that have come to its line requests, by line:
status, poison, data. -/
structure BarRead where
  id : Nat
  addr : Nat
  n : Nat
  got : List (Nat × Nat × Bool × List Byte) := []
deriving DecidableEq, Repr

/-- The host port beside its pages: PERST_N asserted, Bus Master Enable, configuration requests after a reset may still be answered with
Retry Status (R255), the queue last served of each priority (R266), device reads of host memory, the next tag, the BAR2
reads that the network has not answered (R259). -/
structure HostS where
  perst : Bool := false
  busMaster : Bool := false
  crs : Bool := false
  queues : Vector HQueue 16 := Vector.replicate 16 {}
  served : Vector Nat 4 := Vector.replicate 4 0
  reads : List HostRead := []
  nextTag : Nat := 0
  bars : List BarRead := []
  nextBar : Nat := 0
  /-- how many commands have ended: the order of their completions (R267) -/
  ends : Nat := 0
deriving DecidableEq, Repr

/-! ### Guleg ports, serial lanes (12, 13) -/

/-- A Guleg port beside its page: sequence numbers of the next frame sent and of the next one expected, the replay buffer
with the DEVTIME at which each of its frames was first sent and the attempts made (R281), the end-to-end requests by etag
(R287), the non-posted requests delivered here that await the tile network, by the packet's sequence (R288), the DEVTIME of the last TIME frame in 1/16 ns and whether an offset has been taken since the port came up
(R290, R291), a new key awaited, and how many of the newest frames of the replay buffer wait for it (R294, R295). -/
structure LinkS where
  txSeq : Nat := 0
  rxSeq : Nat := 0
  replay : List (Nat × Frame) := []
  times : List Nat := []
  attempts : Nat := 0
  etags : List (Nat × Packet) := []
  held : List Nat := []
  nextPkt : Nat := 0
  timeSent : Nat := 0
  synced : Bool := false
  waiting : Bool := false
  unsent : Nat := 0
deriving DecidableEq, Repr

/-! ### Machine I/O (15) -/

/-- A serial port: its two FIFOs (R349 to R351), the SPI words exchanged since CS_N fell. -/
structure SerS where
  tx : List Word := []
  rx : List Word := []
  cs : Option Nat := none
deriving DecidableEq, Repr

/-- A received frame that waits in a MAC: bytes, failed, timestamp in 1/16 ns. -/
structure RxFrame where
  data : List Byte
  err : Bool
  ts : Nat
deriving DecidableEq, Repr

/-- A frame of a transmit queue, with the identifier of a timestamp request (R357). -/
structure TxFrame where
  data : List Byte
  ts : Option Nat
deriving DecidableEq, Repr

/-- A MAC: receive buffer, transmit queues, the credit of queues 4 to 7 in 10^-6 bit and the DEVTIME at which it was
taken (R359), the entry of the operational gate list in force and its start, and that list's length and cycle with the start of the cycle in
progress, the administrative list's change time, length and cycle (R358). -/
structure MacS where
  rx : List RxFrame := []
  /-- bytes of the first received frame that the personality has taken, and the frame it is handing over, with its queue -/
  rxOff : Nat := 0
  part : Option (Nat × TxFrame) := none
  /-- the DEVTIME until which the line is busy -/
  busy : Nat := 0
  tx : Vector (List TxFrame) 8 := Vector.replicate 8 []
  credit : Vector Int 4 := Vector.replicate 4 0
  creditAt : Nat := 0
  entry : Nat := 0
  entryAt : Nat := 0
  len : Nat := 0
  cycle : Nat := 0
  cycleAt : Nat := 0
  change : Option (Nat × Nat × Nat) := none
deriving DecidableEq, Repr, Inhabited

/-- A flash operation in progress: program, the flash offset, the page buffer, the initiator (R361). -/
structure FlashOp where
  program : Bool
  addr : Nat
  data : List Byte
deriving DecidableEq, Repr

/-! ### External memory (14) -/

/-- One entry of a channel's poison log (R336, EXT_PLOGINFO): kind, initiator, device address. -/
structure PLog where
  kind : Nat
  init : Nat
  addr : Nat
deriving DecidableEq, Repr

/-- One entry of the counter-lost log (R328): channel, tree level, device address of the first page covered. -/
structure LostLog where
  ch : Nat
  level : Nat
  addr : Nat
deriving DecidableEq, Repr

/-- An external memory channel: what its DRAM's metadata holds (R317) and its blanket key (R321). Lines are 64 B, pages
4 KiB, counted from the channel's data area. -/
structure ExtS where
  /-- lines stored with a poison tag (R324) -/
  poison : List Nat := []
  /-- counter-lost pages (R328) -/
  lost : List Nat := []
  /-- page counters; in BLANKET 1 for a page that has been written (R333) -/
  pc : Sparse Nat := []
  /-- line counters (R327) -/
  lc : Sparse Nat := []
  plog : Vector (Option PLog) 16 := Vector.replicate 16 none
  blanketKey : Nat := 0
  /-- the sweep's boundary page (R333); EXT_SWEEP shows its low 22 bits -/
  bound : Nat := 0
deriving DecidableEq, Repr

/-- The crypto block (R329, R330): encryption count and generation of the 32 key regions, those that wait for the
rambler (with the force of R332), the rambler's own encryptions in the ramble in progress, the counter-lost log. -/
structure CryS where
  count : Vector Nat 32 := Vector.replicate 32 0
  gen : Vector Nat 32 := Vector.replicate 32 0
  queue : List (Nat × Bool) := []
  forced : Bool := false
  own : Nat := 0
  /-- pages that the ramble in progress has passed -/
  passed : Nat := 0
  lostLog : Vector (Option LostLog) 16 := Vector.replicate 16 none
deriving DecidableEq, Repr


/-! ### Clocks, power and start-up (16, 17, 18) -/

/-- What of the part runs: nothing but flash holds (P4, R399); the rails are being brought up (R385); power is good and
POR not yet released (R411 step 0); all of it; the always-on domain alone (P3, R397); or everything but the always-on
domain is held in reset (FATAL_CLOCK of R372, a sequence fault of R386). -/
inductive Phase | off | seq | por | up | p3 | fault
deriving DecidableEq, Repr

/-- A region's shadow in the spine (R395): RGN_INFO, RGN_CTXCFG, RGN_HAMPER, RGN_BORDERPOL, RGN_IMGID. -/
structure Shadow where
  info : Word
  ctxcfg : Word
  hamper : Word
  borderpol : Word
  imgid : Word
deriving DecidableEq, Repr

/-- One entry of the sentinel's log (R403): kind as the bit of SEN_EV, in progress, extreme value, start DEVTIME,
duration in µs. -/
structure SenLog where
  kind : Nat
  active : Bool
  extreme : Nat
  start : Nat
  dur : Nat
deriving DecidableEq, Repr

/-- The sentinel (R402 to R405), beside its page: its log, the channels' gain and offset, the phase
values of the last cycles (half-cycles, newest first), half-cycles in nominal frequency, the DEVTIME at which a trigger
last held. -/
structure Sentinel where
  log : Vector (Option SenLog) 16 := Vector.replicate 16 none
  chcfg : Vector Word 12 := Vector.replicate 12 0
  phases : List (Nat × Nat × Nat) := []
  freqIn : Nat := 0
  trigAt : Nat := 0
  /-- the DC bus has been measured since sampling started -/
  sampled : Bool := false
deriving DecidableEq, Repr

/-- Power control (17), beside its pages. -/
structure Power where
  /-- domains that ramp and domains that wait to ramp (R389) -/
  ramping : List Nat := []
  waiting : List Nat := []
  shadow : Vector (Option Shadow) 64 := Vector.replicate 64 none
  /-- P3 has been requested and is being entered (R397); the exit from P3 is bringing the rails up (R398) -/
  p3 : Bool := false
  waking : Bool := false
  /-- the DEVTIME of the P3 request or of the wake, for PWR_P3TIME and PWR_EXITTIME -/
  since : Nat := 0
  /-- the DEVTIME of power good at the last start, time 0 of R409 -/
  time0 : Nat := 0
  /-- regulator entries that the sequence in progress has turned on, last first, and those that P3 turned off (R385,
  R397) -/
  turned : List Nat := []
  offRails : List Nat := []
  /-- a device-record save is in progress, and the DEVTIME of its trigger (R401) -/
  saving : Option Nat := none
  /-- a PMBus transaction of software: address, command, bytes to write and to read (R387) -/
  pmb : Option (Nat × Nat × Nat × Nat) := none
  /-- energy below 1 mJ of each entry in nJ, and the power samples of the last second, newest first (R408) -/
  rest : Vector Nat 8 := Vector.replicate 8 0
  samples : List Nat := []
deriving DecidableEq, Repr
/-! ### Debug (20) -/

/-- A debug access that DK_DATA issued: its address as DK_ADDR_HI and _LO held it, the data of a write (R453). -/
structure DkAccess where
  hi : Nat
  lo : Nat
  write : Option Word
  /-- abandoned by DK_CANCEL or a resync: its result is discarded -/
  dropped : Bool := false
  /-- the response to a global access: status, poison, data (R453) -/
  resp : Option (Nat × Bool × Word) := none
deriving DecidableEq, Repr

/-- The debug port (R452 to R454). -/
structure Dk where
  inc : Bool := false
  hold : Bool := false
  wcrc : Bool := false
  busErr : Bool := false
  poison : Bool := false
  denied : Bool := false
  timeout : Bool := false
  busy : Nat := 0
  lo : Nat := 0
  hi : Nat := 0
  last : Word := 0
  access : Option DkAccess := none
  /-- the result of a read that waits for its frame -/
  result : Option Word := none
deriving DecidableEq, Repr

/-- A snapshot in progress: region, block RAM included, RGN_SWCNT at its start, DEVTIME at its start (R467). -/
structure Snap where
  region : RegionId
  bram : Bool
  base : Nat
  swcnt : Word
  time : Nat
deriving DecidableEq, Repr


/-! ### Self-test (21) -/

/-- A test in progress (R473, R474): code, target page, argument, retention option, whether a region test still waits for
its quiet edge, retention pauses to come, the DEVTIME of its start, the cause with which it was abandoned; the mode
of the channel that test 0x06 left; the 4 KiB block that test 0x05 has come to, and the time spent on it in 1/48 ns (R479). -/
structure TestRun where
  code : Nat
  page : Nat
  arg : Nat := 0
  retain : Bool := false
  waiting : Bool := false
  pauses : Nat := 0
  since : Nat := 0
  abandon : Option Nat := none
  mode : Nat := 0
  block : Nat := 0
  spent : Nat := 0
deriving DecidableEq, Repr

/-- One of the four result slots: the test that runs in it; ST_RESULT, ST_RLOC, ST_RTIME, ST_COV0, ST_COV1. -/
structure TestSlot where
  run : Option TestRun := none
  result : Word := 0
  loc : Word := 0
  time : Word := 0
  cov0 : Word := 0
  cov1 : Word := 0
deriving DecidableEq, Repr

/-- A measured signature: region, depth, signature (0 L0, 1 L1, 2 riser), value, whether its comparison matched. -/
structure SigS where
  region : Nat
  depth : Nat
  sig : Nat
  value : Nat
  matched : Bool
deriving DecidableEq, Repr
/-! ### Vaults (07) -/

/-- One entry of a vault's error log (R175, VLT_LOGADDR, VLT_LOGINFO). -/
structure VLog where
  uncorr : Bool
  finder : Nat
  init : Nat
  symbol : Nat
  line : Nat
  chunk : Nat
  /-- `line` counts the spare lines: bank × 64 + slot -/
  spare : Bool := false
  rep : Nat := 1
  /-- the age of the entry: a larger number is younger -/
  age : Nat := 0
deriving DecidableEq, Repr

/-- A vault DMA channel beside its register: the descriptor that it executes, and the cause and address of the error with
which it is to halt (R180, R182). -/
structure DmaS where
  desc : Option (List Byte) := none
  /-- bytes of the descriptor in progress that are copied (R181) -/
  done : Nat := 0
  fail : Option (Nat × Nat) := none
deriving DecidableEq, Repr, Inhabited

/-- A vault: what it holds beside its page and its array. -/
structure VaultS where
  dma : Vector DmaS 4 := Vector.replicate 4 {}
  log : Vector (Option VLog) 16 := Vector.replicate 16 none
  logAge : Nat := 0
  /-- remap entries: spare slot and line (R178) -/
  remap : Vector (Option (Nat × Nat)) 8 := Vector.replicate 8 none
  /-- slot and line of the remap entries that are not valid, as last written (VLT_REMAP) -/
  remapOld : Vector (Nat × Nat) 8 := Vector.replicate 8 (0, 0)
  /-- the fill of R170 is in progress -/
  filling : Bool := false
  /-- CLOSING under R171 -/
  closing : Bool := false
deriving DecidableEq, Repr

/-! ### Engines (08, 09) -/

/-- A store in the store buffer that has not drained (R204): a push into a down FIFO, a store with what the checks of its target
find, a line of the data cache written back as poisoned (R202). -/
inductive PendStore
  | push (port : Nat) (w : Word)
  | mem (vaddr addr : Nat) (data : List Byte) (found : LineFound)
  | bad (addr : Nat)
deriving DecidableEq, Repr

/-- A line of a data cache (R202). -/
structure CLine where
  dirty : Bool
  data : List Byte
deriving DecidableEq, Repr

/-- An engine: what it holds beside its page, its general registers and its memories. -/
structure Engine where
  /-- address of the next instruction -/
  pc : Word := 0
  fr : Vector Word 32 := Vector.replicate 32 0
  /-- control registers of R219 -/
  estat : Word := 0
  ecause : Word := 0
  epc : Word := 0
  eaddr : Word := 0
  evbase : Word := 0
  ctxid : Word := 0
  fstat : Word := 0
  /-- the sixteen windows; WINxA resets with size 16 (R197) -/
  winA : Vector Word 16 := Vector.replicate 16 0x8000
  winB : Vector Word 16 := Vector.replicate 16 0
  /-- lines of the data cache and of the instruction cache, by device address / 64 -/
  dc : List (Nat × CLine) := []
  ic : List (Nat × List Byte) := []
  /-- the line whose fill a demand load waits for, and the load's virtual address (R194) -/
  miss : Option (Nat × Word) := none
  /-- the instructions run ahead since that load, while the engine is in run-ahead (R194, R195) -/
  runAhead : Option Nat := none
  /-- lines whose fills are outstanding beside it: prefetches, and fills whose load has ended (R194, R195) -/
  fills : List Nat := []
  /-- the branch predictor: by address bits 10:2, the 2-bit counter and the target (R193) -/
  predictor : List (Nat × Nat × Word) := []
  sbuf : List PendStore := []
  /-- an imprecise store trap that is due: cause and EADDR (R206) -/
  storeErr : Option (Nat × Word) := none
  /-- words of the tightly coupled memories known uncorrectable: 0 instruction or 1 data, word index (R201) -/
  tcmBad : List (Nat × Nat) := []
  /-- the non-maskable input has been raised and not yet taken (R212) -/
  nmi : Bool := false
  /-- the state held while the region is in P1 (R187) -/
  offFrom : Nat := 0
  /-- the live mask of DBG_LIVE, a live handler running, the cause and comparator of the last halt and their count (R459) -/
  live : Nat := 0
  liveRuns : Bool := false
  /-- the halt address while a live handler runs (R459); DBG_ENGCTL's step_mask and catch_brk (R461, R472) -/
  haltAt : Word := 0
  stepMask : Bool := true
  catchBrk : Bool := false
  /-- the instruction it resumes at meets no comparator (R461, R463) -/
  noMatch : Bool := false
  haltCause : Nat := 0
  haltComp : Nat := 0
  halts : Nat := 0
deriving DecidableEq, Repr

/-- One debug comparator: DBG_BRKCTL, DBG_BRKLO, DBG_BRKHI, DBG_BRKTAG of its own (R463). -/
structure Comparator where
  ctl : Word := 0
  lo : Word := 0
  hi : Word := 0
  tag : Word := 0
deriving DecidableEq, Repr

/-! ### Everything beside registers and memories -/

structure Inner where
  out : List Out := []
  /-- counter of the free values (the model's own field, notes/assumptions/1.md) -/
  free : Nat := 0
  /-- device time in nanoseconds, modulo 2^64, and its fraction in units of 1/48000000000 ns (R377) -/
  devtime : Nat := 0
  devfrac : Nat := 0
  /-- what is left of a hold of device time, in the units of the fraction (R380) -/
  hold : Nat := 0
  /-- KROOT has been started (R363) -/
  pllOn : Bool := false
  /-- the clock groups, one bit each: stopped low (R371), waiting for a forced switch (R370), with FAB_CLKFAIL at 1
  (R373) -/
  clkStopped : Nat := 0
  clkForcing : Nat := 0
  clkFail : Nat := 0
  phase : Phase := .up
  pow : Power := {}
  sen : Sentinel := {}
  loader : Loader := {}
  stw : StwS := {}
  /-- expected signatures: region, depth, pattern count, L0, L1 and riser signatures (R485) -/
  expected : List (Nat × Nat × Nat × Nat × Nat × Nat) := []
  /-- the sources of the two fabric reset trees, and the VCCIO declared for each bank in mV (06, DEVICE; R343) -/
  rstSrc : List RstSource := []
  vccio : List Nat := []
  /-- host commands that have been taken and not yet completed, oldest first (R266) -/
  cmds : List HostCmd := []
  /-- steps 7a and 7b of start-up have ended (R411) -/
  boot7 : Bool × Bool := (false, false)
  /-- sources whose delivery is withheld (R52) -/
  withheld : List Nat := []
  /-- latched registers: initiator ID, `regKey`, value (R509) -/
  latch : List (Nat × Nat × Word) := []
  host : HostS := {}
  /-- the host port quiesces (R274) -/
  quiet : Bool := false
  /-- rings that lost messages since the last one written (R272), and entries not yet signalled (R273) -/
  ringLost : Vector Bool 4 := Vector.replicate 4 false
  ringUnsig : Vector Nat 4 := Vector.replicate 4 0
  /-- MSI-X vectors the host has masked (R273) -/
  msixMasked : List Nat := []
  vault : Vector VaultS 64 := Vector.replicate 64 {}
  /-- chunks of the memory tier (by address / 32) that are uncorrectable or hold the poison pattern (R168, R169) -/
  badChunks : List Nat := []
  /-- FAB_RST0 and FAB_RST1 are asserted (R88) -/
  rstTree : Bool × Bool := (false, false)
  /-- the CFG_CLK cycles of the edges 0 of the switches that the governor has granted, newest first (R105) -/
  grants : List Nat := []
  /-- what of a period each fabric tree has run, in 1/48 ns (R85) -/
  treeAcc : Vector Nat 4 := Vector.replicate 4 0
  /-- the DEVTIME of the stop switch, once scheduled (R26) -/
  stopAt : Option Nat := none
  /-- packets of fabric requests in the tile network, oldest first (10) -/
  net : List Packet := []
  /-- domains that are closing (R248) -/
  closing : List Nat := []
  /-- reservations, oldest first: engine and granule (R207) -/
  resv : List (Nat × Nat) := []
  link : Vector LinkS 12 := Vector.replicate 12 {}
  /-- lane groups whose reference has been lost (R305); lanes with a calibration array written and not yet used (R314) -/
  refLost : List Nat := []
  calNew : List Nat := []
  /-- the trim code of OSC_F that a written array asks for and that is not reached yet (R488) -/
  oscGoal : Option Nat := none
  /-- banks whose VCCIO is out of range (R343) -/
  vccBad : List Nat := []
  ser : Vector SerS 16 := Vector.replicate 16 {}
  mac : Vector MacS 2 := Vector.replicate 2 {}
  /-- target and current delay tap of each pin, by 48 × bank + pin (R345); the tap of a pin that nothing moved is 0 -/
  tapGoal : Sparse Nat := []
  tap : Sparse Nat := []
  /-- the management-bus transaction in progress on each bus: address, bytes to write, bytes to read (R352) -/
  mb : Vector (Option (Nat × Nat × Nat)) 4 := Vector.replicate 4 none
  flash : Option FlashOp := none
  cmps : Vector Comparator 8 := Vector.replicate 8 {}
  eng : Vector Engine 256 := Vector.replicate 256 {}
  rgn : Vector Region 64 := Vector.replicate 64 {}
  ext : Vector ExtS 2 := Vector.replicate 2 {}
  cry : CryS := {}
  /-- sources of the crypto pages that fell due while their page was gated; raised once the gate opens (14) -/
  gateHeld : List Nat := []
  dk : Dk := {}
  snap : Option Snap := none
  /-- the steward's own timer in units of 1/48 ns: steps of DEVTIME do not move it; a debug session opened by a token: level, and the
  timer's value at which it ends (R440) -/
  mono : Nat := 0
  session : Option (Nat × Nat) := none
  /-- a wake request that waits: its source (R398) -/
  wakeDue : Option Nat := none
  /-- self-tests by result slot, the signatures last measured (R484) -/
  tests : Vector TestSlot 4 := Vector.replicate 4 {}
  sigs : List SigS := []
  /-- the device is in scan, and the word the next read of ST_SCANDATA returns (R486) -/
  scan : Bool := false
  scanOut : Word := 0
  /-- start-up has stopped (R412) -/
  bootStop : Bool := false
deriving DecidableEq, Repr


/-! ### The state -/

/-- The part, without the queue of waiting commands. -/
structure Device where
  /-- every register of the register window, by `regKey` (02) -/
  regs : Sparse Word
  /-- every memory, by byte address -/
  mem : Sparse Byte
  /-- the 32 general registers of each engine (R219) -/
  gpr : Vector (Vector Word 32) 256
  /-- everything else -/
  inn : Inner
deriving DecidableEq, Repr

/-- The state of the block: the part and the commands that wait, first in, first out. -/
structure State where
  dev : Device
  pending : List Instr
deriving DecidableEq, Repr

/-- The part at POR release (R411 step 1, R419): every register at its reset value, every memory as `memDflt` says,
no command waiting. -/
def Device.reset : Device where
  regs := []
  mem := []
  gpr := Vector.replicate 256 (Vector.replicate 32 0)
  inn := {}

def State.reset : State where
  dev := Device.reset
  pending := []

/-- The reasons for which a command stops the model. -/
inductive Fault
  /-- raised by `execVpRequest` where the personality reuses a vertical-port tag before its response, which R164 says
  must not happen and gives no effect for; safe: the part's behaviour is not given -/
  | tagReused
deriving DecidableEq, Repr

/-- The refusals of the model. -/
inductive Refusal
  /-- a command whose meaning is not written -/
  | notModelled (mnemonic : String)
deriving DecidableEq, Repr

end Sys2Proof.Machine
end

