-- ==== Sys2Proof/Machine/Ops.lean ====
section
/-!
DEFINITION. The named operations over the state: reading and writing a register and a field, bytes of memory,
general registers, and raising and delivering an event (02). A meaning is an `Op`: a function on the part together
with the proof that it keeps the invariant of the part (canonical maps, reserved bits 0, g0 zero), so that whatever is
composed of operations keeps it too.
-/

namespace Sys2Proof.Machine

/-! ### Reading -/

/-- The value of a field in a word. -/
def Fld.get (f : Fld) (w : Word) : Nat := (w.toNat >>> f.lo) % 2 ^ f.width

/-- The word with a field replaced. -/
def Fld.set (f : Fld) (v : Nat) (w : Word) : Word :=
  (w &&& ~~~(BitVec.ofNat 32 ((2 ^ f.width - 1) <<< f.lo))) ||| BitVec.ofNat 32 ((v % 2 ^ f.width) <<< f.lo)

/-- The stored register at word offset `w` of page `p`. -/
def Device.reg (d : Device) (p w : Nat) : Word := sparseGet regDflt d.regs (regKey p w)

/-- The value of a field of a stored register. -/
def Device.fld (d : Device) (p : Nat) (f : Fld) : Nat := f.get (d.reg p f.off)

/-- A one-bit field as a Boolean. -/
def Device.bit (d : Device) (p : Nat) (f : Fld) : Bool := d.fld p f != 0

/-- Bit `i` of a stored register. -/
def Device.regBit (d : Device) (p w i : Nat) : Bool := (d.reg p w).toNat.testBit i

/-- A pair of registers read as one 64-bit number, low register first. -/
def Device.reg64 (d : Device) (p w : Nat) : Nat := (d.reg p w).toNat + 2 ^ 32 * (d.reg p (w + 1)).toNat

/-- One byte of a memory. -/
def Device.byte (d : Device) (a : Nat) : Byte := sparseGet memDflt d.mem a

/-- `n` bytes of a memory from address `a`. -/
def Device.bytes (d : Device) (a n : Nat) : List Byte := (List.range n).map (fun i => d.byte (a + i))

/-- A little-endian number of `n` bytes of a memory. -/
def Device.num (d : Device) (a n : Nat) : Nat := Word.natOfBytes (d.bytes a n)

/-- The listed cells of a memory range, by offset from its start. -/
def Device.cells (d : Device) (a n : Nat) : List (Nat × Byte) :=
  (d.mem.filter (fun c => a ≤ c.1 && c.1 < a + n)).map (fun c => (c.1 - a, c.2))

/-- A general register of an engine; g0 reads 0 because it is never written (R219). -/
def Device.g (d : Device) (e : EngineId) (r : GReg) : Word := (d.gpr[e.val])[r.val]

/-! ### The invariant and operations that keep it -/

/-- The canonical form of the memories: addresses strictly rising, no entry equal to what an unlisted byte reads as. -/
def Memory.wf (m : Sparse Byte) : Bool := sparseWf memDflt m

/-- The maps are canonical, every listed register has its reserved bits 0 (R7), and g0 of every engine is 0 (R219). -/
def Device.Inv (d : Device) : Prop :=
  sparseWf regDflt d.regs = true ∧ (∀ c ∈ d.regs, c.2 &&& ~~~keyMask c.1 = 0) ∧ sparseWf memDflt d.mem = true ∧
    ∀ e : EngineId, d.g e 0 = 0

/-- An operation on the part. -/
structure Op where
  run : Device → Device
  keeps : ∀ d, d.Inv → (run d).Inv

/-- Nothing happens. -/
def skip : Op := ⟨id, fun _ h => h⟩

/-- One operation after another. -/
def both (a b : Op) : Op := ⟨fun d => b.run (a.run d), fun d h => b.keeps _ (a.keeps d h)⟩

/-- An operation chosen from the state it starts in. -/
def withD (f : Device → Op) : Op := ⟨fun d => (f d).run d, fun d h => (f d).keeps d h⟩

/-- Operations in order. -/
def ops : List Op → Op
  | [] => skip
  | o :: os => both o (ops os)

/-- The operation where the condition holds of the state it starts in, else nothing. -/
def whenD (c : Device → Bool) (o : Op) : Op := withD fun d => if c d then o else skip

/-- The operation where the condition holds, else nothing. -/
def whenB (c : Bool) (o : Op) : Op := if c then o else skip

/-- One operation for each element of a list, in order. -/
def forAll {α : Type} (xs : List α) (f : α → Op) : Op := ops (xs.map f)

/-- A change of what stands outside registers, memories and general registers. -/
def modI (f : Inner → Inner) : Op := ⟨fun d => { d with inn := f d.inn }, fun _ h => h⟩

theorem and_not_and (v m : Word) : (v &&& m) &&& ~~~m = 0 := by
  ext i hi
  simp only [BitVec.getElem_and, BitVec.getElem_not]
  cases v[i] <;> cases m[i] <;> simp

/-- Write a register; its reserved bits stay 0 (R7). -/
def setReg (p w : Nat) (v : Word) : Op where
  run d := { d with regs := sparsePut regDflt d.regs (regKey p w) (v &&& keyMask (regKey p w)) }
  keeps _ h := ⟨sparseWf_put h.1 _ _,
    sparse_all_put (P := fun k v => v &&& ~~~keyMask k = 0) h.2.1 (and_not_and _ _), h.2.2.1, h.2.2.2⟩

/-- Write one byte of a memory. -/
def setByte (a : Nat) (b : Byte) : Op where
  run d := { d with mem := sparsePut memDflt d.mem a b }
  keeps _ h := ⟨h.1, h.2.1, sparseWf_put h.2.2.1 _ _, h.2.2.2⟩

/-- Write a general register of an engine; a write of g0 is discarded (R219). -/
def setG (e : EngineId) (r : GReg) (v : Word) : Op where
  run d := if r = 0 then d else { d with gpr := d.gpr.set e.val ((d.gpr[e.val]).set r.val v) }
  keeps d h := by
    split
    · exact h
    · rename_i hr
      refine ⟨h.1, h.2.1, h.2.2.1, fun e' => ?_⟩
      have h0 := h.2.2.2 e'
      unfold Device.g at h0 ⊢
      by_cases he : e = e'
      · subst he
        have hr0 : r.val ≠ 0 := fun hh => hr (Fin.ext hh)
        simpa [Vector.getElem_set, hr0] using h0
      · have hne : e.val ≠ e'.val := fun hh => he (Fin.ext hh)
        simpa [Vector.getElem_set, hne] using h0

/-- Clear every general register of an engine. -/
def clearG (e : EngineId) : Op where
  run d := { d with gpr := d.gpr.set e.val (Vector.replicate 32 0) }
  keeps d h := by
    refine ⟨h.1, h.2.1, h.2.2.1, fun e' => ?_⟩
    have h0 := h.2.2.2 e'
    unfold Device.g at h0 ⊢
    by_cases he : e = e'
    · subst he; simp
    · have hne : e.val ≠ e'.val := fun hh => he (Fin.ext hh)
      simpa [Vector.getElem_set, hne] using h0

/-! ### Registers and fields -/

/-- Write a field, leaving the rest of its register. -/
def setF (p : Nat) (f : Fld) (v : Nat) : Op := withD fun d => setReg p f.off (f.set v (d.reg p f.off))

/-- Write a one-bit field. -/
def setB (p : Nat) (f : Fld) (b : Bool) : Op := setF p f (if b then 1 else 0)

/-- Write a register from a number, modulo 2^32. -/
def setN (p w : Nat) (v : Nat) : Op := setReg p w (BitVec.ofNat 32 v)

/-- Write a pair of registers from one 64-bit number, low register first. -/
def setN64 (p w : Nat) (v : Nat) : Op := ops [setN p w v, setN p (w + 1) (v / 2 ^ 32)]

/-- Add one to a field, wrapping at its width. -/
def incF (p : Nat) (f : Fld) : Op := withD fun d => setF p f (d.fld p f + 1)

/-- Add one to a field, saturating at its largest value. -/
def incSat (p : Nat) (f : Fld) : Op := withD fun d => setF p f (min (d.fld p f + 1) (2 ^ f.width - 1))

/-- Add a number to a whole register, wrapping. -/
def addReg (p w n : Nat) : Op := withD fun d => setN p w ((d.reg p w).toNat + n)

/-- Add one to a whole register, wrapping. -/
def incReg (p w : Nat) : Op := addReg p w 1

/-- Set one bit of a register. -/
def setBit (p w i : Nat) : Op := withD fun d => setReg p w (d.reg p w ||| BitVec.ofNat 32 (2 ^ i))

/-- Clear the bits of a mask in a register. -/
def clearBits (p w m : Nat) : Op := withD fun d => setReg p w (d.reg p w &&& ~~~BitVec.ofNat 32 m)

/-! ### Memories -/

/-- Write bytes from an address upward. -/
def setBytes : Nat → List Byte → Op
  | _, [] => skip
  | a, b :: bs => both (setByte a b) (setBytes (a + 1) bs)

/-- Make every byte of a range read 0, by writing the listed ones. -/
def clearRange (a n : Nat) : Op :=
  withD fun d => forAll (d.cells a n) fun c => setByte (a + c.1) 0

/-- Copy a range to another place; the listed cells alone are moved. -/
def copyRange (src dst n : Nat) : Op :=
  withD fun d => both (clearRange dst n) (forAll (d.cells src n) fun c => setByte (dst + c.1) c.2)

/-! ### What leaves the part, and free values -/

/-- Put out one output. -/
def emit (o : Out) : Op := modI fun n => { n with out := o :: n.out }

/-- An operation that uses a free value: it is given the counter, which advances. -/
def withFree (f : Nat → Op) : Op := withD fun d => both (modI fun n => { n with free := n.free + 1 }) (f d.inn.free)

/-! ### Results -/

/-- The outcome of a command. -/
abbrev Result := Host.Outcome State Fault Refusal

/-- Run an operation while the part is in one of some phases; in another it has no effect. -/
def inPhase (ps : List Phase) (o : Op) : Op := whenD (fun d => ps.contains d.inn.phase) o

/-- Run an operation on the part; the queue of waiting commands stays. Until POR release, in P4 and while the part is held
after a fatal fault no command reaches it but those of power and clocks (R372, R386, R399, R411). -/
def go (s : State) (o : Op) : Result := .next { s with dev := (inPhase [.up] o).run s.dev }

/-- As `go`, for the commands of power and clocks that run in other phases too. -/
def goIn (ps : List Phase) (s : State) (o : Op) : Result := .next { s with dev := (inPhase ps o).run s.dev }

end Sys2Proof.Machine
end

