-- ==== Sys2Proof/Machine/Events.lean ====
section
/-!
DEFINITION. Raising and delivering an event (02, R48 to R55; the host's event rings, 11, R271 to R273; the engines'
interrupt lines and non-maskable input, 08, R211 and R212). Every source of the part is raised as an occurrence when a
cause of its block is set while the cause's enable is 1.
-/

namespace Sys2Proof.Machine

/-! ### Source numbers and pages -/

/-- The source number of a bit of a page (R48). -/
def pageSrc (p b : Nat) : Nat :=
  match kindOf p with
  | some .rgn => 3 * (p - 256) + b
  | some .eng => 192 + (p - 512)
  | some .vlt => 448 + (p - 384)
  | some .ln => 512 + (p - 96)
  | some .lnk => 560 + (p - 80)
  | some .hp0 | some .hp1 | some .hp2 | some .hp3 => 572 + 2 * (p - 32) + b
  | some .ext | some .cry | some .ctr => 580 + 2 * (p - 36) + b
  | some .fl => 588 + b
  | some .eth => 590 + 2 * (p - 41) + b
  | some .ser => 594 + (p - 48)
  | some .io => 610 + (p - 64)
  | some .clkD | some .clkE | some .clkF | some .clk10 => 620 + 2 * (p - 13) + b
  | some .sen => 634 + b
  | some .stw1 | some .stw2 | some .stw3 | some .stw4 => 640 + 2 * (p - 1) + b
  | some .dbg => 648 + b
  | some .st6 | some .st7 => 652 + 2 * (p - 6) + b
  | some .evt => 656 + (p - 8)
  | _ => 628 + (p - 17)

/-- The page and bit of a source number (R48). -/
def srcPage (s : Nat) : Nat × Nat :=
  if s < 192 then (256 + s / 3, s % 3)
  else if s < 448 then (512 + (s - 192), 0)
  else if s < 512 then (384 + (s - 448), 0)
  else if s < 560 then (96 + (s - 512), 0)
  else if s < 572 then (80 + (s - 560), 0)
  else if s < 580 then (32 + (s - 572) / 2, (s - 572) % 2)
  else if s < 588 then (36 + (s - 580) / 2, (s - 580) % 2)
  else if s < 590 then (40, s - 588)
  else if s < 594 then (41 + (s - 590) / 2, (s - 590) % 2)
  else if s < 610 then (48 + (s - 594), 0)
  else if s < 620 then (64 + (s - 610), 0)
  else if s < 628 then (13 + (s - 620) / 2, (s - 620) % 2)
  else if s < 634 then (17 + (s - 628), 0)
  else if s < 640 then (23, s - 634)
  else if s < 648 then (1 + (s - 640) / 2, (s - 640) % 2)
  else if s < 652 then (5, s - 648)
  else if s < 656 then (6 + (s - 652) / 2, (s - 652) % 2)
  else (8 + (s - 656), 0)

/-- The events page of a source, and the word of its route entry there (R51). -/
def routePage (s : Nat) : Nat := 8 + s / 165
def routeWord (s : Nat) : Nat := 256 + s % 165

/-- Fields of the header and of a route entry (02). -/
def fClkEn : Fld := ⟨2, 0, 0⟩
def fBlkRst : Fld := ⟨2, 1, 1⟩
def fReady : Fld := ⟨3, 0, 0⟩
def fBusy : Fld := ⟨3, 1, 1⟩
def fFault : Fld := ⟨3, 2, 2⟩
def wRaw : Nat := 4
def wMask : Nat := 5
def wPend : Nat := 6
def fOpen : Fld := ⟨7, 31, 31⟩
def fHalf : Fld := ⟨7, 30, 30⟩
def fOwner : Fld := ⟨7, 25, 16⟩

/-- The block of a page has been fenced by the checker self-test (R414). -/
def Device.fenced (d : Device) (p : Nat) : Bool := d.bit p fFault

structure Route where
  dest : Nat
  engine : Nat
  line : Nat
  ring : Nat
deriving DecidableEq, Repr

/-- A source fixed in the non-maskable class (R53). -/
def srcNmiFixed (s : Nat) : Bool := nmiFixed (srcPage s).1 (srcPage s).2

/-- The route of a source; the entries fixed under R53 read 0b11. -/
def Device.route (d : Device) (s : Nat) : Route :=
  if srcNmiFixed s then { dest := 3, engine := 0, line := 0, ring := 0 }
  else
    let w := (d.reg (routePage s) (routeWord s)).toNat
    { dest := w >>> 30, engine := (w >>> 12) % 256, line := (w >>> 8) % 16, ring := w % 4 }

/-! ### Gating and power -/

/-- The power domain of the block of a page (R18, R389): 79 is the spine. -/
def pageDomain (p : Nat) : Nat :=
  match kindOf p with
  | some .rgn => p - 256
  | some .ni => p - 320
  | some .eng => (p - 512) / 4
  | some .vlt => 64 + (p - 384) / 8
  | some .ln => 72 + (p - 96) / 12
  | some .lnk => 72 + (p - 80) / 3
  | some .hp0 | some .hp1 | some .hp2 | some .hp3 => 76
  | some .ext => 77
  | some .cry | some .ctr => 78
  | _ => 79

/-- Bit `k` of PWR_DOMSTAT: domain `k` is on (R389). -/
def Device.domOn (d : Device) (k : Nat) : Bool := d.regBit 18 (R.PWR_DOMSTAT0 + k / 32) (k % 32)

/-- The page's clock gate is open: fixed under R43, else PG_GATE.clk_en. -/
def Device.clocked (d : Device) (p : Nat) : Bool := gateFixed p || d.bit p fClkEn

/-- The page behaves as gated: its gate is closed or its power domain is off (R44 to R46). -/
def Device.gated (d : Device) (p : Nat) : Bool := !(d.clocked p) || !(d.domOn (pageDomain p))

/-- The block is held in reset (R40). -/
def Device.inReset (d : Device) (p : Nat) : Bool := d.bit p fBlkRst

/-! ### Engines as destinations -/

/-- The page of an engine, and the region whose tiles hold it (R17). -/
def engPg (e : EngineId) : Nat := 512 + e.val
def engRgn (e : EngineId) : Nat := e.val / 4
def rgnPg (r : RegionId) : Nat := 256 + r.val
def niPg (r : RegionId) : Nat := 320 + r.val
def vltPg (v : VaultId) : Nat := 384 + v.val
def lnPg (l : LaneId) : Nat := 96 + l.val
def lnkPg (p : PortId) : Nat := 80 + p.val
def serPg (s : SerialId) : Nat := 48 + s.val
def ioPg (b : BankId) : Nat := 64 + b.val

/-- The region that owns a bank (R341). -/
def bankOwner (b : BankId) : RegionId := #v[1, 4, 6, 23, 47, 62, 59, 57, 40, 16][b.val]

def ethPg (m : MacId) : Nat := 41 + m.val
def extPg (c : ChanId) : Nat := 36 + c.val

/-- The states of R186, as ENG_STAT.state codes them. -/
def esParked : Nat := 0
def esRunning : Nat := 1
def esParking : Nat := 2
def esMonitor : Nat := 3
def esTest : Nat := 4
def esHalted : Nat := 5
def esOff : Nat := 6

def Device.engState (d : Device) (e : EngineId) : Nat := d.fld (engPg e) F.ENG_STAT.state

/-- The power state of a region, 0 to 2 for P0 to P2, as PWR_RGNST holds it (R391). -/
def Device.rgnP (d : Device) (r : Nat) : Nat := ((d.reg 18 (R.PWR_RGNST0 + r / 8)).toNat >>> (4 * (r % 8))) % 8

/-- Power control holds the region in transition: bit 3 of its PWR_RGNST field. -/
def Device.rgnMoving (d : Device) (r : Nat) : Bool := d.regBit 18 (R.PWR_RGNST0 + r / 8) (4 * (r % 8) + 3)

/-- An event delivered to the engine is withheld: parked, under test, halted on a double trap, off, or its region
not in P0 (R52). -/
def Device.engWithholds (d : Device) (e : EngineId) : Bool :=
  let s := d.engState e
  s == esParked || s == esTest || s == esHalted || s == esOff || d.rgnP (engRgn e) != 0

/-! ### Writes to the host (R271, R297, R298) -/

/-- The directions of a waymark, next first. -/
def wmDirs (w : Nat) : List Nat := (List.range (w / 2 ^ 28)).map fun i => w / 4 ^ i % 4

/-- The route from router `n` to router `m`. -/
def Device.route' (d : Device) (n m : Nat) : List Nat := wmDirs (d.reg (320 + n) (256 + m)).toNat

/-- Proxy mode is on: what the host port sends travels to another device (R297). -/
def Device.proxied (d : Device) : Bool := d.bit 80 F.LNK_PROXY.en

/-- A posted write of bytes within one line to an address of the proxy device, from the host port's router. -/
def proxyWrite (a : Nat) (bs : List Byte) : Op :=
  withD fun d =>
    let p : Packet :=
      { kind := 2, cls := 2, tag := 0, src := 0x100, dev := d.fld 80 F.LNK_PROXY.dev, addr := a % 2 ^ 48 / 64 * 64,
        be := (2 ^ bs.length - 1) * 2 ^ (a % 64), word := 0, data := List.replicate (a % 64) 0 ++ bs, pos := 3, rexit := 2
        dirs := d.route' 3 (if d.fld 323 F.NI_CTL.link_agent = 0 then 59 else 60), exit := 2 }
    modI fun n => { n with net := n.net ++ [p] }

/-- Bytes of a host address that lie in the line `i` lines after its first. -/
def linePiece (a : Nat) (bs : List Byte) (i : Nat) : Nat × List Byte :=
  let start := if i = 0 then a else (a / 64 + i) * 64
  (start, (bs.drop (start - a)).take (64 - start % 64))

/-- A request to the host finds Bus Master Enable at 0: HP_ERR.host_abort, whose source `rise` raises. -/
def hostAbortBy (rise : Nat → Op) : Op :=
  withD fun d =>
    both (setBit 32 R.HP_ERR 6) (whenB (d.regBit 32 R.HP_ERR 22 && !(d.gated 32) && !(d.inReset 32)) (rise 573))

/-- Write bytes to host memory: over PCIe while Bus Master Enable is 1, else the request is lost and HP_ERR.host_abort set
(R260); in proxy mode as global writes to the proxy device. `rise` raises a source of the host port pages. -/
def hostOutBy (rise : Nat → Op) (a : Nat) (bs : List Byte) : Op :=
  withD fun d =>
    if d.proxied then
      let base := (d.reg 80 R.LNK_PROXYBASE).toNat * 0x10000
      forAll (List.range ((a % 64 + bs.length + 63) / 64)) fun i =>
        let x := linePiece a bs i
        proxyWrite (base + x.1) x.2
    else if d.inn.host.busMaster then emit (.hostWrite a bs)
    else both (setN64 32 R.HP_ERRADDR_LO a) (hostAbortBy rise)

/-! ### Host event rings (R271 to R273) -/

/-- The registers of ring `r` stand 10 words apart. -/
def ringF (f : Fld) (r : Nat) : Fld := f.at (10 * r)

/-- Ring `r` takes messages: it is enabled, and the host port does not quiesce (R271, R274). -/
def Device.ringOpen (d : Device) (r : Nat) : Bool := d.bit 35 (ringF F.HP_RING0CTL.en r) && !d.inn.quiet

/-- The MSI-X message of a vector, or its pending bit while it is masked, which raises source 577 (R273); in proxy mode a
word to the proxy's register page (R298). `rise` raises a source of the host port pages. -/
def signalVecBy (rise : Nat → Op) (v : Nat) : Op :=
  withD fun d =>
    if d.proxied then
      proxyWrite (0x1000000000 + d.fld 80 F.LNK_PROXYSIG.page * 0x1000 + 4 * d.fld 80 F.LNK_PROXYSIG.offset)
        (Word.bytesOfNat 4 (2 ^ (16 + v % 16)))
    else if d.inn.msixMasked.contains v then
      both (setBit 34 (R.HP_VECPEND0 + v / 32) (v % 32)) (whenB (!(d.regBit 34 (R.HP_VECPEND0 + v / 32) (v % 32))) (rise 577))
    else if d.inn.host.busMaster then emit (.msix v)
    else hostAbortBy rise

/-- Free entries of ring `r`: full when head equals tail + 1 (R272). -/
def Device.ringFree (d : Device) (r : Nat) : Nat :=
  let size := d.fld 35 (ringF F.HP_RING0CTL.size r)
  let head := d.fld 35 (ringF F.HP_RING0STAT.head r)
  let tail := d.fld 35 (ringF F.HP_RING0STAT.tail r)
  if size = 0 then 0 else (head + size - tail - 1 + size) % size

/-- The cause register of a source, as its chapter names it: word offset in its page, if any. -/
def causeWord (p b : Nat) : Option Nat :=
  match kindOf p with
  | some .rgn => if b = 0 then some R.RGN_CTXEV else if b = 1 then some R.RGN_SPECEV else some R.RGN_FAULT
  | some .eng => some R.ENG_EV
  | some .vlt => some R.VLT_ERREV
  | some .ln => some R.LN_ERR
  | some .lnk => some R.LNK_ERR
  | some .hp0 => some R.HP_ERR
  | some .ext => some R.EXT_ERR
  | some .cry => some R.CRY_EV
  | some .ctr => some R.CTR_EV
  | some .fl => some R.FL_ERR
  | some .eth => some R.ETH_ERR
  | some .ser => some R.SER_ERR
  | some .io => some R.IO_ERR
  | some .clkD => some R.CLK_ERR
  | some .clk10 => some R.TIME_ERR
  | some .pwr1 => some R.PWR_ERR
  | some .pwr5 => some R.PWR_THERR
  | some .sen => some R.SEN_EV
  | some .stw2 => some R.STW_EV2
  | some .stw3 => some R.STW_EV3
  | some .stw4 => some R.STW_EV4
  | some .dbg => some R.DBG_EV
  | some .st6 => some R.ST_EV
  | _ => none

/-- The 32 bytes of an event message (11, table Event message). -/
def eventMessage (d : Device) (src kind flags seq : Nat) : List Byte :=
  let (p, b) := srcPage src
  let cause := if kind = 1 then (d.reg 8 R.EVT_NMI).toNat else
    match causeWord p b with
    | some w => (d.reg p w).toNat
    | none => 0
  Word.bytesOfNat 2 src ++ Word.bytesOfNat 1 kind ++ Word.bytesOfNat 1 flags ++ Word.bytesOfNat 4 seq ++
    Word.bytesOfNat 8 d.inn.devtime ++ Word.bytesOfNat 4 (d.reg p wPend).toNat ++ Word.bytesOfNat 4 cause ++
    Word.bytesOfNat 8 0

/-- Write an event message to a host ring, or count it as lost (R271, R272), and signal the ring's vector (R273). A loss
raises source 578, a wrap of the ring source 579. -/
def ringWriteBy (rise : Nat → Op) (r src kind : Nat) : Op :=
  withD fun d =>
    let need := if r = 0 ∧ kind = 0 then 5 else 1
    let seq := (d.reg 35 (R.HP_RING0SEQ + 10 * r)).toNat
    let size := d.fld 35 (ringF F.HP_RING0CTL.size r)
    let tail := d.fld 35 (ringF F.HP_RING0STAT.tail r)
    let phase := d.fld 35 (ringF F.HP_RING0STAT.phase r)
    ops [incReg 35 (R.HP_RING0SEQ + 10 * r),
      if d.ringFree r < need then
        ops [incReg 35 (R.HP_RING0LOST + 10 * r), setB 35 (ringF F.HP_RING0STAT.full r) (d.ringFree r == 0),
          modI fun n => { n with ringLost := n.ringLost.set! r true }, rise 578]
      else
        let base := (d.reg64 35 (R.HP_RING0BASE_LO + 10 * r)) / 4096 * 4096
        let flags := phase + (if (d.inn.ringLost[r]!) then 2 else 0)
        let coalCount := d.fld 35 (ringF F.HP_RING0COAL.count r)
        ops [hostOutBy rise (base + 32 * tail) (eventMessage d src kind flags seq),
          modI fun n => { n with ringLost := n.ringLost.set! r false },
          incReg 35 (R.HP_RING0WRCNT + 10 * r),
          whenB (kind == 1) (incReg 35 (R.HP_RING0NMICNT + 10 * r)),
          setF 35 (ringF F.HP_RING0LAST.source r) src,
          setF 35 (ringF F.HP_RING0STAT.tail r) (if tail + 1 = size then 0 else tail + 1),
          whenB (tail + 1 == size) (setF 35 (ringF F.HP_RING0STAT.phase r) (1 - phase)),
          withD fun d1 =>
            ops [setB 35 (ringF F.HP_RING0STAT.full r) (d1.ringFree r == 0),
              if kind = 1 ∨ coalCount ≤ 1 ∨ (d1.inn.ringUnsig[r]!) + 1 ≥ coalCount then
                ops [modI fun n => { n with ringUnsig := n.ringUnsig.set! r 0 },
                  signalVecBy rise (d.fld 35 (ringF F.HP_RING0CTL.vec r))]
              else modI fun n => { n with ringUnsig := n.ringUnsig.set! r ((n.ringUnsig[r]!) + 1) }],
          whenB (tail + 1 == size) (rise 579)]]

/-! ### Delivery -/

/-- A delivery to a ring or engine that cannot take it is withheld: EVT_STAT.withheld, EVT_HELD (R52). -/
def withhold (s : Nat) : Op :=
  ops [modI fun n => { n with withheld := if n.withheld.contains s then n.withheld else s :: n.withheld },
    setF (routePage s) F.EVT_STAT.withheld 1, incReg (routePage s) R.EVT_HELD]

/-- A delivery is made: EVT_LAST and EVT_DELIV of the source's events page. -/
def countDelivery (s : Nat) : Op :=
  ops [setF (routePage s) F.EVT_LAST.source s, incReg (routePage s) R.EVT_DELIV]

/-- Whether the destination of a source's route can take a delivery now (R52, HP_RINGrCTL.en). -/
def Device.canTake (d : Device) (s : Nat) : Bool :=
  let rt := d.route s
  match rt.dest with
  | 1 => !(d.engWithholds ⟨rt.engine % 256, Nat.mod_lt _ (by decide)⟩)
  | 2 => true
  | _ => d.ringOpen rt.ring

/-- The delivery of a source to its routed destination (R51); while a region's fault source is routed to the
non-maskable class its ordinary events go to the ring its entry names (R54). -/
def deliverBy (rise : Nat → Op) (s : Nat) : Op :=
  withD fun d =>
    let rt := d.route s
    if d.canTake s then
      ops [countDelivery s,
        match rt.dest with
        | 1 => setBit (512 + rt.engine) R.ENG_IRQ rt.line
        | 2 => emit (.steward s)
        | _ => ringWriteBy rise rt.ring s 0]
    else withhold s

/-- The pending and unmasked bit of a source, with delivery enabled (R50, EVT_CTL.deliver_en). -/
def Device.deliverable (d : Device) (s : Nat) : Bool :=
  let (p, b) := srcPage s
  d.regBit p wPend b && !(d.regBit p wMask b) && d.bit (routePage s) F.EVT_CTL.deliver_en

/-- A source of pages 0x022 and 0x023 rises while a message is written, unless its page is gated or held in reset (R44). Its own delivery to a ring may raise another of
them; each is delivered once, when its pending bit rises, so three rises in each other suffice. -/
def riseBy : Nat → Nat → Op
  | 0, _ => skip
  | n + 1, s =>
    whenD (fun d => !(d.gated (srcPage s).1) && !(d.inReset (srcPage s).1)) <| withD fun d =>
      let before := d.deliverable s
      ops [setBit (srcPage s).1 wRaw (srcPage s).2, setBit (srcPage s).1 wPend (srcPage s).2,
        withD fun d1 => whenB (!before && d1.deliverable s) (deliverBy (riseBy n) s)]

/-- Signal a vector, write an event message to a ring, deliver a source to its destination. -/
def signalVec (v : Nat) : Op := signalVecBy (riseBy 4) v
def hostOut (a : Nat) (bs : List Byte) : Op := hostOutBy (riseBy 4) a bs
def ringWrite (r src kind : Nat) : Op := ringWriteBy (riseBy 4) r src kind
def deliverTo (s : Nat) : Op := deliverBy (riseBy 4) s

/-- The EVT_NMI bit of a non-maskable source (02, EVT_NMI). -/
def nmiBit (s : Nat) : Nat :=
  if s = 620 then 0 else if s = 634 then 1 else if s = 580 then 2 else if s = 640 then 3 else if s = 641 then 4 else 5

/-- The non-maskable input of one engine (R55, R212): held where the engine is not running; lost in P2. -/
def nmiEngine (e : EngineId) : Op :=
  withD fun d =>
    let st := d.engState e
    if d.rgnP (engRgn e) ≥ 2 then skip
    else
      both (modI fun n => { n with eng := n.eng.set e.val { n.eng[e.val] with nmi := true } })
        (if st = esParked ∨ st = esTest ∨ st = esHalted ∨ st = esOff then
          ops [setF 8 F.EVT_STAT.withheld 1, incReg 8 R.EVT_HELD]
        else skip)

/-- A non-maskable event (R55): to the steward, to every powered engine, to host ring 0; its EVT_NMI bit; a delivery. -/
def deliverNmi (s : Nat) : Op :=
  ops [setBit 8 R.EVT_NMI (nmiBit s), withD fun d => setN 8 R.EVT_NMISEQ ((d.reg 8 R.EVT_NMISEQ).toNat + 1),
    countDelivery s, emit (.steward s), forAll (List.finRange 256) nmiEngine,
    whenD (fun d => d.ringOpen 0) (ringWrite 0 s 1)]

/-- One occurrence of a source: EV_RAW for one cycle, EV_PEND, and a delivery where the pending and unmasked bit rises
(R49, R50); a fixed non-maskable source is delivered under R55 whatever the mask. -/
def occur (s : Nat) : Op :=
  withD fun d =>
    let (p, b) := srcPage s
    let before := d.deliverable s
    let pended := d.regBit p wPend b
    ops [setBit p wRaw b, setBit p wPend b,
      if srcNmiFixed s then whenB (!pended) (deliverNmi s)
      else withD fun d1 => whenB (!before && d1.deliverable s) (deliverTo s)]

/-- A block raises bit `b` of page `p`: nothing while the page is gated or held in reset, but for the fixed non-maskable
sources (R44, R53). -/
def raise (p b : Nat) : Op :=
  whenD (fun d => nmiFixed p b || !(d.gated p) && !(d.inReset p)) (occur (pageSrc p b))

/-- Set a cause bit of a cause register whose enables stand `en` bits higher, and raise the source where the enable is
1; `b` is the page's source bit. A page held in reset keeps its reset values (R40). -/
def causeAt (p w i en b : Nat) : Op :=
  whenD (fun d => !(d.inReset p))
    (withD fun d => ops [setBit p w i, whenB (d.regBit p w (en + i)) (raise p b)])

/-- The common form: enables from bit 16, source bit 0. -/
def cause (p w i : Nat) : Op := causeAt p w i 16 0

/-- A destination able again takes what it withheld, if it is still pending and unmasked (R52). -/
def releaseWithheld (s : Nat) : Op :=
  withD fun d =>
    if d.inn.withheld.contains s ∧ d.canTake s then
      ops [modI fun n => { n with withheld := n.withheld.filter (· != s) }, whenB (d.deliverable s) (deliverTo s)]
    else skip

/-- Every withheld delivery whose destination can take it now. -/
def releaseAllWithheld : Op := withD fun d => forAll d.inn.withheld.reverse releaseWithheld

end Sys2Proof.Machine
end

