-- ==== Sys2Proof/Machine/Layout.lean ====
section
/-!
DEFINITION. Where the memories stand in `Device.mem`: the device address map (R32), the memories no address of the
map reaches, and the hamper (R107, R108). Also the updates of one region, engine or other unit of `Inner`.
-/

namespace Sys2Proof.Machine

/-! ### Addresses -/

def vaultBase (v : Nat) : Nat := v * 0x4000000
def extBase : Nat := 0x100000000
def regBase : Nat := 0x1000000000
def thermosBase : Nat := 0x1100000000
def flashBase : Nat := 0x1200000000
def hostBase : Nat := 0x2000000000

/-- The configuration cells of a slot: bits in context order (R143) from byte 0, settings frames from `settingsOff`. -/
def slotBase (r s : Nat) : Nat := 2 ^ 52 + (r * 8 + s) * 2 ^ 22
def settingsOff : Nat := 0x300000
def slotSpan : Nat := 0x306000

/-- The block RAMs of a region, 9,216 bytes each (R57). -/
def bramBase (r : Nat) : Nat := 2 ^ 53 + r * 2 ^ 20
def bramSpan : Nat := 96 * 9216

/-- The instruction and data tightly coupled memories of an engine, 64 KiB each (R188, R201). -/
def itcm (e : Nat) : Nat := 2 ^ 54 + e * 2 ^ 18
def dtcm (e : Nat) : Nat := itcm e + 0x10000

/-! ### Contexts in the hamper -/

/-- The bytes of one context's configuration bits at a depth (R107). -/
def contextSize (depth : Nat) : Nat := if depth = 0 then 0 else 5013504 / depth

/-- The stride of hamper entries at a depth (R107). -/
def hamperStride (depth : Nat) : Nat := if depth = 0 then 0 else 0x500000 / depth

/-- The number of entries of a hamper of `size` × 4 MiB at a depth (R107). -/
def hamperEntries (size depth : Nat) : Nat := if depth = 0 then 0 else size * 0x400000 / hamperStride depth

/-- The device address of hamper entry `e` of region `r` (R107). -/
def hamperEntry (r depth e : Nat) : Nat := vaultBase r + (0x4000000 - (e + 1) * hamperStride depth)

/-- The lowest vault offset of the hamper (R107). -/
def hamperLow (size : Nat) : Nat := 0x4000000 - size * 0x400000

/-! ### One unit of the part -/

def modR (r : RegionId) (f : Region → Region) : Op := modI fun n => { n with rgn := n.rgn.set r.val (f n.rgn[r.val]) }
def Device.rg (d : Device) (r : RegionId) : Region := d.inn.rgn[r.val]
def modE (e : EngineId) (f : Engine → Engine) : Op := modI fun n => { n with eng := n.eng.set e.val (f n.eng[e.val]) }
def Device.en (d : Device) (e : EngineId) : Engine := d.inn.eng[e.val]

/-- A write that reaches an open page: nothing while the page is gated, its domain off, or its block in reset (R40, R44,
R46). -/
def pageWrite (p : Nat) (o : Op) : Op := whenD (fun d => !(d.gated p) && !(d.inReset p)) o

/-- The unlock of a page is open for an initiator (R41). -/
def Device.unlockedFor (d : Device) (p : Nat) (who : Who) : Bool := d.bit p fOpen && d.fld p fOwner == who.id

/-- A write by `who` reaches the page: another initiator's half-done unlock is cancelled (R42). -/
def cancelHalf (who : Who) (p : Nat) : Op :=
  whenD (fun d => d.bit p fHalf && d.fld p fOwner != who.id) (setF p fHalf 0)

/-- A command of an initiator that writes a page: as any write, it cancels another initiator's half-done unlock (R42). -/
def byWrite (who : Who) (p : Nat) (o : Op) : Op := both (cancelHalf who p) o

/-! ### Host commands that wait (R267) -/

/-- A cause of HP_ERR (11, the host port pages): link_down raises the link source, the others the error source. -/
def hpErr (i : Nat) : Op := causeAt 32 R.HP_ERR i 16 (if i = 0 then 0 else 1)

/-- The header of a BAR request is logged: HP_TLPLOG0 to 3 take words that the model leaves free (notes/assumptions/54.md). -/
def logTlp : Op := withFree fun n => forAll (List.range 4) fun i => setReg 32 (R.HP_TLPLOG0 + i) (Config.freeWord n i)

/-- A BAR request refused at an offset: HP_ERR.bad_access, its address, Completer Abort for a read, AER for a posted write; its
header is logged (R47, R256). -/
def barRefuse (write : Bool) (off : Nat) : Op :=
  ops [emit (if write then .aer .completerAbort else .hostCpl false false []), logTlp, setN64 32 R.HP_ERRADDR_LO off, hpErr 2]

/-- What the host commands wait for has come: they end with a status and a result. -/
def endCmds (w : Wait) (st res : Nat) : Op :=
  let endOne (k : Nat) (c : HostCmd) : HostCmd :=
    if c.wait = some w ∧ c.ended = none then { c with ended := some (st, res), order := k } else c
  modI fun n => { n with cmds := n.cmds.map (endOne n.host.ends), host := { n.host with ends := n.host.ends + 1 } }

/-- Device time of the part now. -/
def Device.now (d : Device) : Nat := d.inn.devtime

end Sys2Proof.Machine
end

