-- ==== Sys2Proof/Machine/Compare.lean ====
section
/-!
DEFINITION. The debug comparators (20_debug.md, R463 to R465): their match on an engine's instruction or access and on
a region switch, and the halts they take; entering and leaving MONITOR.
-/

namespace Sys2Proof.Machine

/-! ### The level (R441) -/

/-- The life-cycle state (R425): 0 BLANK, 1 OPEN, 2 SEALED, 3 RETURNED; the later of fuses and record. -/
def Device.lcs (d : Device) : Nat := max d.inn.stw.fuseLcs d.inn.stw.recLcs

/-- The debug level without a token (R441). -/
def lcsLevel (lcs : Nat) : Nat := if lcs = 1 then 2 else if lcs = 2 then 0 else 3

/-- The level of the debug session (R441). -/
def Device.dbgLevel (d : Device) : Nat :=
  match d.inn.session with
  | some (l, _) => l
  | none => lcsLevel d.lcs

/-- Fields of DBG_BRKCTL in a comparator's own copy. -/
def cEn : Fld := ⟨0, 31, 31⟩
def cKind : Fld := ⟨0, 30, 28⟩
def cLink : Fld := ⟨0, 27, 26⟩
def cAction : Fld := ⟨0, 25, 24⟩
def cCtxEn : Fld := ⟨0, 23, 23⟩
def cHit : Fld := ⟨0, 22, 22⟩
def cArmed : Fld := ⟨0, 21, 21⟩
def cEngine : Fld := ⟨0, 15, 8⟩
def cAll : Fld := ⟨0, 7, 7⟩
def cRegion : Fld := ⟨0, 5, 0⟩

def Comparator.get (c : Comparator) (f : Fld) : Nat := f.get c.ctl
def Comparator.is (c : Comparator) (f : Fld) : Bool := c.get f != 0

def Device.cmp (d : Device) (k : Nat) : Comparator := d.inn.cmps[(Fin.ofNat 8 k).val]
def modCmp (k : Nat) (f : Comparator → Comparator) : Op :=
  modI fun n => { n with cmps := n.cmps.set (Fin.ofNat 8 k).val (f n.cmps[(Fin.ofNat 8 k).val]) }

/-- The tag test of a comparator (R463). -/
def Comparator.tagOk (c : Comparator) (v : Nat) : Bool :=
  !(c.is cCtxEn) || ((v ^^^ (c.tag.toNat % 65536)) &&& (c.tag.toNat / 65536)) == 0

/-- An access of an engine that a comparator may watch: 0 the instruction itself, 1 a load, 2 a store; first address and
bytes. -/
structure Access where
  kind : Nat
  addr : Nat
  size : Nat
deriving DecidableEq, Repr

/-- Comparator `k`, taken alone, matches an access of an engine (R463). -/
def Device.cmpEngine (d : Device) (k : Nat) (e : EngineId) (a : Access) : Bool :=
  let c := d.cmp k
  let kind := c.get cKind
  c.is cEn && (c.is cAll || c.get cEngine == e.val) &&
    ((kind == 0 && a.kind == 0) || (kind == 1 && a.kind == 1) || (kind == 2 && a.kind == 2) || (kind == 3 && a.kind != 0)) &&
    (a.addr ≤ c.hi.toNat && c.lo.toNat < a.addr + a.size) && c.tagOk ((d.en e).ctxid.toNat % 65536)

/-- Comparator `k` matches with its link (R464): `one j` is the match of comparator `j` alone. -/
def Device.linked (d : Device) (one : Nat → Bool) : Nat → Bool
  | 0 => one 0
  | k + 1 =>
    let c := d.cmp (k + 1)
    one (k + 1) && (c.get cLink == 0 || (c.get cLink == 1 && c.is cArmed) || (c.get cLink == 2 && d.linked one k))

/-- Comparator `k` only feeds the link of comparator `k + 1` (R464). -/
def Device.feedsLink (d : Device) (k : Nat) : Bool := k < 7 && (d.cmp (k + 1)).is cEn && (d.cmp (k + 1)).get cLink != 0

/-- A debug event cause (DBG_EV; bits 0 vt_out, 1 vt_in, 2 halt, 3 session), on source bit `i` of page 0x005. -/
def dbgCause (i : Nat) : Op := causeAt 5 R.DBG_EV i 16 i

/-- The debug halt of a region (R87, R465). -/
def haltRegion (r : RegionId) : Op := modR r fun g => { g with dbgHalt := true }

/-- Lose the engine's reservation (R207). -/
def dropResv (e : EngineId) : Op := modI fun n => { n with resv := n.resv.filter fun x => x.1 != e.val }

/-- A store to a granule of 64 B: every reservation on it is lost (R207). -/
def breakResv (granule : Nat) : Op := modI fun n => { n with resv := n.resv.filter fun x => x.2 != granule }

/-- Run-ahead and the wait for a fill end; the fill goes on (R195). -/
def Engine.endAhead (n : Engine) : Engine :=
  match n.miss with
  | some (l, _) => { n with miss := none, runAhead := none, fills := l :: n.fills }
  | none => { n with runAhead := none }

/-- Enter MONITOR (R458): run-ahead ends, the reservation is lost; cause 1 halt, 2 step, 3 brk, 4 comparator. -/
def enterMonitor (e : EngineId) (c comp : Nat) : Op :=
  ops [setF (engPg e) F.ENG_STAT.state esMonitor, dropResv e,
    modE e fun n => { n.endAhead with haltCause := c, haltComp := comp, halts := (n.halts + 1) % 65536, liveRuns := false },
    dbgCause 2]

/-- Record the hits of matching comparators and arm those linked after them (R464). -/
def recordHits (hit : Nat → Bool) : Op :=
  forAll ((List.range 8).filter hit) fun k =>
    ops [modCmp k fun c => { c with ctl := cHit.set 1 c.ctl },
      whenB (k < 7) (modCmp (k + 1) fun c => if c.get cLink = 1 then { c with ctl := cArmed.set 1 c.ctl } else c)]

/-- The comparators that take an action where `one j` is the match of comparator `j` alone (R464, R465). -/
def Device.acting (d : Device) (one : Nat → Bool) : List Nat :=
  (List.range 8).filter fun k => d.linked one k && !(d.feedsLink k)

/-- A comparator whose action halts the engine. -/
def Device.haltsEngine (d : Device) (k : Nat) : Bool := (d.cmp k).get cAction == 1 || (d.cmp k).get cAction == 2

/-- The actions of the comparators that matched at an engine's boundary (R465): the engine halts at the instruction where one has
action 1 or 2, the lowest of them being recorded, its region for 2 and 3; 0 and 3 raise the halt source by themselves. -/
def engineActions (e : EngineId) (ks : List Nat) : Op :=
  withD fun d =>
    let act (k : Nat) : Nat := (d.cmp k).get cAction
    ops [match ks.find? d.haltsEngine with
        | some k => enterMonitor e 4 k
        | none => skip,
      whenB (ks.any fun k => 2 ≤ act k) (haltRegion (Fin.ofNat 64 (engRgn e))),
      whenB (ks.any fun k => act k == 0 || act k == 3) (dbgCause 2)]

/-- A switch of region `r` into slot `b` with its tag meets the comparators of kind region switch (R463, R465). -/
def switchMatch (r : RegionId) (b : SlotId) : Op :=
  withD fun d =>
    let tag := d.fld (rgnPg r) ⟨R.RGN_SLOTTAG0 + b.val / 2, 16 * (b.val % 2) + 15, 16 * (b.val % 2)⟩
    let one := fun k => (d.cmp k).is cEn && (d.cmp k).get cKind == 4 && (d.cmp k).get cRegion == r.val && (d.cmp k).tagOk tag
    ops [recordHits (d.linked one), whenB ((d.acting one).any fun k => 2 ≤ (d.cmp k).get cAction) (haltRegion r),
      whenB (!((d.acting one).isEmpty)) (dbgCause 2)]

end Sys2Proof.Machine
end

