-- ==== Sys2Proof/Machine/Vault.lean ====
section
/-!
DEFINITION. The vaults of the memory tier (07_memory_tier.md): where a line stands under remaps and online tests, the
code's outcomes, the error log and counters, the patrol scrubber, the remap table, the fill.
-/

namespace Sys2Proof.Machine

/-! ### Where a byte stands -/

/-- The spare row of a bank, and the test buffer of a vault: memories of their own (R162, R183). -/
def spareBase (v bank : Nat) : Nat := 2 ^ 49 + (v * 8 + bank) * 4096
def testBufBase (v : Nat) : Nat := 2 ^ 50 + v * 4096

/-- Line index, bank and row of a vault offset (R161). -/
def lineOf (off : Nat) : Nat := off / 64
def bankOfLine (line : Nat) : Nat := line / 64 % 8
def rowOfLine (line : Nat) : Nat := line / 512

def Device.vlt (d : Device) (v : VaultId) : VaultS := d.inn.vault[v.val]
def modV (v : VaultId) (f : VaultS → VaultS) : Op :=
  modI fun n => { n with vault := n.vault.set v.val (f n.vault[v.val]) }

/-- The slice of a line is under an online test (R183). -/
def Device.sliceTested (d : Device) (v : VaultId) (line : Nat) : Bool :=
  d.bit (vltPg v) F.VLT_STAT.test_active && d.fld (vltPg v) F.VLT_STAT.test_bank == bankOfLine line &&
    d.fld (vltPg v) F.VLT_STAT.test_row == rowOfLine line

/-- The spare slot to which a line is remapped, if it is (R178). -/
def Device.remapOf (d : Device) (v : VaultId) (line : Nat) : Option Nat :=
  ((List.finRange 8).filterMap fun i =>
    match (d.vlt v).remap[i.val] with
    | some (slot, l) => if l = line then some slot else none
    | none => none).head?

/-- Where the byte at a vault offset stands: the spare line of a remapped line, the test buffer of a slice under test,
else the array (R178, R183). -/
def Device.vaultCell (d : Device) (v : VaultId) (off : Nat) : Nat :=
  let line := lineOf off
  match d.remapOf v line with
  | some slot => spareBase v.val (bankOfLine line) + 64 * slot + off % 64
  | none => if d.sliceTested v line then testBufBase v.val + off % 4096 else vaultBase v.val + off

/-- Where the byte at an address of the memory tier stands. -/
def Device.tierCell (d : Device) (a : Nat) : Nat := d.vaultCell (Fin.ofNat 64 (a / 0x4000000)) (a % 0x4000000)

/-- The byte at an address of the memory tier. -/
def Device.tierByte (d : Device) (a : Nat) : Byte := d.byte (d.tierCell a)

/-- The address of the memory tier that a byte of a memory stands for, if it is the place of one. -/
def Device.tierOf (d : Device) (k : Nat) : Option Nat :=
  let back : Option Nat :=
    if k < 0x100000000 then some k
    else if 2 ^ 49 ≤ k ∧ k < 2 ^ 49 + 512 * 4096 then
      let i := k - 2 ^ 49
      let v := i / 32768
      ((List.finRange 8).filterMap fun e =>
        match (d.vlt (Fin.ofNat 64 v)).remap[e.val] with
        | some (slot, l) => if bankOfLine l = i / 4096 % 8 ∧ slot = i % 4096 / 64 then
            some (vaultBase v + 64 * l + i % 64) else none
        | none => none).head?
    else if 2 ^ 50 ≤ k ∧ k < 2 ^ 50 + 64 * 4096 then
      let v := (k - 2 ^ 50) / 4096
      let bank := d.fld (384 + v) F.VLT_STAT.test_bank
      let row := d.fld (384 + v) F.VLT_STAT.test_row
      some (vaultBase v + row * 32768 + bank * 4096 + k % 4096)
    else none
  match back with
  | some a => if d.tierCell a = k then some a else none
  | none => none

/-- The listed bytes of a range of the memory tier, by offset from its start. -/
def Device.tierCells (d : Device) (a n : Nat) : List (Nat × Byte) :=
  d.mem.filterMap fun c =>
    match d.tierOf c.1 with
    | some x => if a ≤ x ∧ x < a + n then some (x - a, c.2) else none
    | none => none

/-- Make every byte of a range of the memory tier read 0. -/
def tierClear (a n : Nat) : Op := withD fun d => forAll (d.tierCells a n) fun c => setByte (d.tierCell (a + c.1)) 0

/-- Copy a range of the memory tier to another memory. -/
def tierLoad (src dst n : Nat) : Op :=
  withD fun d => both (clearRange dst n) (forAll (d.tierCells src n) fun c => setByte (dst + c.1) c.2)

/-- Write bytes at an address of the memory tier. -/
def tierWrite : Nat → List Byte → Op
  | _, [] => skip
  | a, b :: bs => both (withD fun d => setByte (d.tierCell a) b) (tierWrite (a + 1) bs)

/-- The chunk of an address of the memory tier is uncorrectable. -/
def Device.chunkBad (d : Device) (a : Nat) : Bool := d.inn.badChunks.contains (d.tierCell a / 32)

/-- The chunks that a range of the memory tier touches, by their first address. -/
def chunksOf (a n : Nat) : List Nat :=
  if n = 0 then [] else (List.range ((a + n - 1) / 32 - a / 32 + 1)).map fun i => (a / 32 + i) * 32

/-- The chunks that a write covers whole: they get fresh check bits, and an error in them ends (R167, R168). -/
def wholeChunks (a n : Nat) : List Nat := (chunksOf a n).filter fun c => a ≤ c && c + 32 ≤ a + n

/-- Write bytes with fresh check bits in every chunk covered whole (R167). -/
def writeFresh (a : Nat) (bs : List Byte) : Op :=
  withD fun d =>
    let fresh := (wholeChunks a bs.length).map fun c => d.tierCell c / 32
    both (tierWrite a bs) (modI fun n => { n with badChunks := n.badChunks.filter fun c => !fresh.contains c })

/-- A partial write would meet an uncorrectable chunk (R168). -/
def Device.partialBad (d : Device) (a n : Nat) : Bool :=
  (chunksOf a n).any fun c => !(a ≤ c && c + 32 ≤ a + n) && d.chunkBad c

/-- A chunk is uncorrectable from now on. -/
def markBad (cell : Nat) : Op :=
  modI fun n => { n with badChunks := if n.badChunks.contains cell then n.badChunks else cell :: n.badChunks }

/-- The address lies in the hamper range of its vault (R107, R108). -/
def Device.inHamper (d : Device) (a : Nat) : Bool :=
  a < 0x100000000 && hamperLow (d.fld (256 + a / 0x4000000) F.RGN_HAMPER.size) ≤ a % 0x4000000

/-! ### The error log and the counters (R175, R176) -/

def vltCause (v : VaultId) (i : Nat) : Op := cause (vltPg v) R.VLT_ERREV i

/-- The counter of a bank: corrected in VLT_CECNT0 and 1, saturating at 255; uncorrectable in VLT_UECNT at 15. -/
def countErr (v : VaultId) (uncorr : Bool) (bank : Nat) : Op :=
  if uncorr then incSat (vltPg v) ⟨R.VLT_UECNT, 4 * bank + 3, 4 * bank⟩
  else incSat (vltPg v) ⟨R.VLT_CECNT0 + bank / 4, 8 * (bank % 4) + 7, 8 * (bank % 4)⟩

/-- The entry of the log that already holds this error. -/
def VaultS.sameEntry (s : VaultS) (e : VLog) : Option (Fin 16) :=
  (List.finRange 16).find? fun i =>
    match s.log[i.val] with
    | some o => o.line == e.line && o.chunk == e.chunk && o.uncorr == e.uncorr && o.spare == e.spare
    | none => false

/-- A free entry, lowest number first. -/
def VaultS.freeEntry (s : VaultS) : Option (Fin 16) := (List.finRange 16).find? fun i => (s.log[i.val]).isNone

/-- The oldest corrected entry. -/
def VaultS.oldestCorr (s : VaultS) : Option (Fin 16) :=
  (List.finRange 16).foldl (fun best i =>
    match s.log[i.val], best with
    | some o, none => if o.uncorr then none else some i
    | some o, some b =>
      (match s.log[b.val] with
        | some ob => if !o.uncorr && o.age < ob.age then some i else best
        | none => best)
    | none, _ => best) none

def VaultS.putEntry (s : VaultS) (i : Fin 16) (e : VLog) : VaultS :=
  { s with log := s.log.set i.val (some { e with age := s.logAge }), logAge := s.logAge + 1 }

/-- Log one error found (R175) and count it (R176), with its cause. -/
def logErr (v : VaultId) (e : VLog) : Op :=
  withD fun d =>
    let s := d.vlt v
    ops [countErr v e.uncorr (bankOfLine e.line), vltCause v (if e.uncorr then 1 else 0),
      match s.sameEntry e with
      | some i =>
        modV v fun s => { s with log := s.log.set i.val ((s.log[i.val]).map fun o => { o with rep := min (o.rep + 1) 255 }) }
      | none =>
        match s.freeEntry, s.oldestCorr with
        | some i, _ => modV v fun s => s.putEntry i e
        | none, some i => modV v fun s => s.putEntry i e
        | none, none =>
          if e.uncorr then ops [incSat (vltPg v) F.VLT_LOGCTL.lost, vltCause v 2] else skip]

/-- Log an uncorrectable error at a vault offset (finder 1 vertical port, 2 network side, 3 hamper fetch). -/
def logUncorrBy (v : VaultId) (off finder init : Nat) : Op :=
  both (withD fun d => markBad (d.vaultCell v off / 32))
    (logErr v { uncorr := true, finder := finder, init := init, symbol := 0x7F, line := lineOf off, chunk := off / 32 % 2 })

def logUncorr (v : VaultId) (off finder : Nat) : Op := logUncorrBy v off finder 0x3FF

/-- The finding of one chunk read at a vault offset: an uncorrectable one is known from then on, a corrected one is
written back; both are logged (R167, R175). A chunk known to be uncorrectable is found so whatever the reader sees. -/
def chunkFound (v : VaultId) (off finder init : Nat) (f : Found) : Op :=
  withD fun d =>
    if d.inn.badChunks.contains (d.vaultCell v off / 32) then logUncorrBy v off finder init
    else
      match f with
      | .clean => skip
      | .corrected sym =>
        logErr v { uncorr := false, finder := finder, init := init, symbol := sym, line := lineOf off, chunk := off / 32 % 2 }
      | .uncorrectable => logUncorrBy v off finder init

/-! ### Meanings -/

/-- VAULT_FILL_DONE (R170). The fill ends: every line reads zero with valid check bits, VLT_STAT.filled and fill_done. -/
def execVaultFillDone (v : VaultId) (s : State) : Result :=
  go s <| withD fun d =>
    if (d.vlt v).filling then
      ops [modV v fun s => { s with filling := false }, setF (vltPg v) F.VLT_STAT.filled 1, vltCause v 8]
    else skip

/-- The line after the one at VLT_SCRUBPOS; the end of the spare rows ends the pass (R173, VLT_SCRUBPOS). -/
def scrubAdvance (v : VaultId) : Op :=
  withD fun d =>
    let p := vltPg v
    let line := d.fld p F.VLT_SCRUBPOS.line
    if d.bit p F.VLT_SCRUBPOS.spare then
      if line = 511 then
        ops [setF p F.VLT_SCRUBPOS.spare 0, setF p F.VLT_SCRUBPOS.line 0, incF p F.VLT_SCRUBPOS.passes, vltCause v 3]
      else setF p F.VLT_SCRUBPOS.line (line + 1)
    else if line = 0xFFFFF then ops [setF p F.VLT_SCRUBPOS.spare 1, setF p F.VLT_SCRUBPOS.line 0]
    else setF p F.VLT_SCRUBPOS.line (line + 1)

/-- The line of the array that stands in a spare line, if a remap names it (R178). -/
def Device.spareLine (d : Device) (v : VaultId) (bank slot : Nat) : Option Nat :=
  ((List.finRange 8).filterMap fun i =>
    match (d.vlt v).remap[i.val] with
    | some (sl, l) => if sl = slot ∧ bankOfLine l = bank then some l else none
    | none => none).head?

/-- The finding of one chunk of a spare line that no remap names: counted and logged like one of the array, under the place of the
spare, bank × 64 + slot (R173, R175; notes/assumptions/13.md). -/
def spareFound (v : VaultId) (place cell chunk : Nat) (f : Found) : Op :=
  let entry (u : Bool) (sym : Nat) : VLog :=
    { uncorr := u, finder := 0, init := 0x3FF, symbol := sym, line := place, chunk := chunk, spare := true }
  withD fun d =>
    if d.inn.badChunks.contains cell then logErr v (entry true 0x7F)
    else
      match f with
      | .clean => skip
      | .corrected sym => logErr v (entry false sym)
      | .uncorrectable => both (markBad cell) (logErr v (entry true 0x7F))

/-- SCRUB_READ_DUE (R173, R174). The next spaced read is served: the line's two chunks are checked, errors corrected,
logged and counted; a skipped bank or a slice under test is passed over. With en at 0 the scrubber stays. A spare line that
holds a remapped line is checked as that line. -/
def execScrubReadDue (v : VaultId) (f0 f1 : Found) (s : State) : Result :=
  go s <| withD fun d =>
    let p := vltPg v
    let line := d.fld p F.VLT_SCRUBPOS.line
    let spare := d.bit p F.VLT_SCRUBPOS.spare
    let bank := bankOfLine line
    let both2 (l : Nat) : Op := ops [chunkFound v (64 * l) 0 0x3FF f0, chunkFound v (64 * l + 32) 0 0x3FF f1]
    if d.bit p F.VLT_SCRUB.en then
      ops [if d.regBit p R.VLT_SCRUB (16 + bank) || (!spare && d.sliceTested v line) then skip
        else if !spare then both2 line
        else
          match d.spareLine v bank (line % 64) with
          | some l => both2 l
          | none =>
            let cell := spareBase v.val bank / 32 + 2 * (line % 64)
            ops [spareFound v line cell 0 f0, spareFound v line (cell + 1) 1 f1],
        scrubAdvance v]
    else skip

/-- A write of VLT_LOGCTL with free at 1 (R175). -/
def logFree (v : VaultId) (sel : Fin 16) : Op :=
  pageWrite (vltPg v) (ops [setF (vltPg v) F.VLT_LOGCTL.sel sel.val,
    modV v fun s => { s with log := s.log.set sel.val none }])

/-- LOG_FREE (R175). -/
def execLogFree (v : VaultId) (sel : Fin 16) (s : State) : Result := go s (logFree v sel)

/-- A line copied with correction to another place: a chunk that is uncorrectable is poisoned there (R178). -/
def copyLine (src dst : Nat) : Op :=
  ops [copyRange src dst 64,
    forAll [0, 1] fun c => modI fun n =>
      let others := n.badChunks.filter (· != dst / 32 + c)
      { n with badChunks := if n.badChunks.contains (src / 32 + c) then (dst / 32 + c) :: others else others }]

/-- The refusals of R179 for a write of valid 1. -/
def Device.remapRefused (d : Device) (v : VaultId) (sel : Fin 8) (slot line : Nat) : Bool :=
  ((d.vlt v).remap[sel.val]).isSome || d.sliceTested v line ||
    (List.finRange 8).any fun i => i != sel &&
      (match (d.vlt v).remap[i.val] with
        | some (sl, l) => l == line || (bankOfLine l == bankOfLine line && sl == slot)
        | none => false)

/-- A write of VLT_REMAP with wr and valid at 1 under an open unlock (R178, R179). `f0` and `f1` are what the check of the line's chunks
finds as they are read; it is logged as a finding of the scrubber (notes/assumptions/80.md). -/
def remapWrite (who : Who) (v : VaultId) (sel : Fin 8) (slot : Nat) (line : Nat) (f0 f1 : Found) : Op :=
  pageWrite (vltPg v) (ops [setF (vltPg v) F.VLT_REMAP.sel sel.val,
    withD fun d =>
      if !(d.unlockedFor (vltPg v) who) then skip
      else if d.remapRefused v sel slot line then vltCause v 6
      else ops [chunkFound v (64 * line) 0 0x3FF f0, chunkFound v (64 * line + 32) 0 0x3FF f1,
        copyLine (vaultBase v.val + 64 * line) (spareBase v.val (bankOfLine line) + 64 * slot),
        modV v fun s => { s with remap := s.remap.set sel.val (some (slot, line)) }]])

/-- REMAP_WRITE (R178, R179). -/
def execRemapWrite (who : Who) (v : VaultId) (sel : Fin 8) (slot : Fin 64) (copy : SpareCopy) (s : State) : Result :=
  go s (byWrite who (vltPg v) (remapWrite who v sel slot.val copy.line.val copy.found.c0 copy.found.c1))

/-- A write of VLT_REMAP with wr at 1 and valid 0 under an open unlock: slot and line are written into the entry; the spare of a valid
entry is copied back and its remap ends, but not while the line's slice is under test (R179). -/
def remapEnd (who : Who) (v : VaultId) (sel : Fin 8) (slot line : Nat) (f0 f1 : Found) : Op :=
  let put : Op := modV v fun s => { s with remap := s.remap.set sel.val none, remapOld := s.remapOld.set sel.val (slot, line) }
  pageWrite (vltPg v) (ops [setF (vltPg v) F.VLT_REMAP.sel sel.val,
    withD fun d =>
      if !(d.unlockedFor (vltPg v) who) then skip
      else
        match (d.vlt v).remap[sel.val] with
        | some (slot', line') =>
          if d.sliceTested v line' then vltCause v 6
          else ops [chunkFound v (64 * line') 0 0x3FF f0, chunkFound v (64 * line' + 32) 0 0x3FF f1,
            copyLine (spareBase v.val (bankOfLine line') + 64 * slot') (vaultBase v.val + 64 * line'), put]
        | none => if d.sliceTested v line then vltCause v 6 else put])

/-- REMAP_END (R179). -/
def execRemapEnd (who : Who) (v : VaultId) (off : RemapOff) (s : State) : Result :=
  go s (byWrite who (vltPg v) (remapEnd who v off.sel off.slot.val off.line.val off.found.c0 off.found.c1))

end Sys2Proof.Machine
end

