-- ==== Sys2Proof/Machine/ExtMem.lean ====
section
/-!
DEFINITION. External memory and inline encryption (14_external_memory_and_inline_crypto.md): channels and their modes,
counters, key regions and the rambler, the sweep, integrity failures and poison. The data area is held as the bytes a
reader gets; what stands in the DRAM is computed from them (`Device.dramLine`, R321, R323).
-/

namespace Sys2Proof.Machine

/-! ### Places and fields -/

def chanBase (c : ChanId) : Nat := extBase + c.val * 0x400000000
def Device.ext (d : Device) (c : ChanId) : ExtS := d.inn.ext[c.val]
def modX (c : ChanId) (f : ExtS → ExtS) : Op := modI fun n => { n with ext := n.ext.set c.val (f n.ext[c.val]) }
def modY (f : CryS → CryS) : Op := modI fun n => { n with cry := f n.cry }

/-- The modes of R319. -/
def mOff : Nat := 0
def mBlanket : Nat := 1
def mFull : Nat := 2

def Device.extMode (d : Device) (c : ChanId) : Nat := d.fld (extPg c) F.EXT_STAT.mode
/-- The data size of a channel in GiB (R316). -/
def Device.extGib (d : Device) (c : ChanId) : Nat := d.fld (extPg c) F.EXT_STAT.size
/-- The key region of an offset in a channel (R329). -/
def keyRegion (c : ChanId) (off : Nat) : Nat := 16 * c.val + off / 2 ^ 30 % 16
/-- The channel of a key region. -/
def regionChan (k : Nat) : ChanId := Fin.ofNat 2 (k / 16)
def natAt (m : Sparse Nat) (k : Nat) : Nat := sparseGet (fun _ => 0) m k
def natPut (m : Sparse Nat) (k v : Nat) : Sparse Nat := sparsePut (fun _ => 0) m k v
def Device.kCount (d : Device) (k : Nat) : Nat := d.inn.cry.count[(Fin.ofNat 32 k).val]
def Device.kGen (d : Device) (k : Nat) : Nat := d.inn.cry.gen[(Fin.ofNat 32 k).val]
/-- The rambler is at work, and its key region (R330). -/
def Device.rambling (d : Device) : Bool := d.bit 38 F.CRY_STAT.busy
def Device.ramRegion (d : Device) : Nat := d.fld 38 F.CRY_STAT.region
/-- The key generation on which a page stands: the new one below the rambler's boundary (R330). -/
def Device.pageGen (d : Device) (c : ChanId) (page : Nat) : Nat :=
  let k := keyRegion c (page * 4096)
  if d.rambling ∧ d.ramRegion = k ∧ page % 2 ^ 18 < d.fld 38 F.CRY_RSTAT.boundary then (d.kGen k + 1) % 256 else d.kGen k

/-! ### What stands in the DRAM (R321, R323) -/

/-- The blanket scramble of an aligned 8 B word at device address `a` under key `k` (R321). -/
def blanketMask (k a : Nat) : Nat :=
  let z := (((a / 8 * 8) ^^^ k) * 0xD6E8FEB86659FD93) % 2 ^ 64
  z ^^^ (z / 2 ^ 32)

/-- The tweak block of block `b` of a line (R323). -/
def tweak (pc lc addr b : Nat) : Nat := pc * 2 ^ 64 + lc * 2 ^ 56 + (addr / 64 % 2 ^ 42) * 2 ^ 14 + b * 2 ^ 12

/-- The 64 bytes of a line as the DRAM holds them. -/
def Device.dramLine (d : Device) (c : ChanId) (line : Nat) : List Byte :=
  let a := chanBase c + 64 * line
  let x := d.ext c
  if d.extMode c = mFull then
    let page := line / 64
    (List.range 64).map fun i =>
      d.byte (a + i) ^^^ (Config.lineStream (keyRegion c (64 * line)) (d.pageGen c page)
        (tweak (natAt x.pc page) (natAt x.lc line) a (i / 16))).getD (i % 16) 0
  else
    (List.range 64).map fun i =>
      d.byte (a + i) ^^^ BitVec.ofNat 8 (blanketMask x.blanketKey (a + i) / 2 ^ (8 * (i % 8)))

/-! ### Causes and events -/

/-- The page and bit of the source of a channel's cause (14, The pages). -/
def extSource (c : ChanId) (i : Nat) : Nat × Nat :=
  if i = 7 ∨ i = 8 then (37, 1) else if c = 0 then (36, 1) else (37, 0)

/-- A cause of EXT_ERR and the event that its enable allows. -/
def extCause (c : ChanId) (i : Nat) : Op :=
  whenD (fun d => !(d.inReset (extPg c)))
    (withD fun d => ops [setBit (extPg c) R.EXT_ERR i,
      whenB (d.regBit (extPg c) R.EXT_ERR (16 + i)) (raise (extSource c i).1 (extSource c i).2)])

/-- A source of page 0x026 or 0x027: while the page is gated it is raised once the gate opens (14, The pages). -/
def cryRaise (p b : Nat) : Op :=
  withD fun d =>
    if d.gated p then modI fun n => { n with gateHeld := if n.gateHeld.contains (pageSrc p b) then n.gateHeld else pageSrc p b :: n.gateHeld }
    else raise p b

/-- A cause of CRY_EV: bits 0 to 2 are the rambler's, 3 and 4 the mode causes. -/
def cryCause (i : Nat) : Op :=
  withD fun d => ops [setBit 38 R.CRY_EV i, whenB (d.regBit 38 R.CRY_EV (16 + i)) (cryRaise 38 (if i ≤ 2 then 0 else 1))]

/-- A cause of CTR_EV. -/
def ctrCause (i : Nat) : Op :=
  withD fun d => ops [setBit 39 R.CTR_EV i, whenB (d.regBit 39 R.CTR_EV (16 + i)) (cryRaise 39 i)]

/-- SEC_ALARM (R334): source 580, the counts and the kind of the last one. -/
def secAlarm (c : ChanId) (kind : Nat) : Op :=
  ops [incReg (extPg c) R.EXT_ALARMCNT, incReg 38 R.CRY_ALARMCNT, setF 38 F.CRY_ALARMLAST.ch c.val,
    setF 38 F.CRY_ALARMLAST.kind kind, raise 36 0]

/-- An entry of the poison log, lowest free entry first; a full log counts it as lost (R336). -/
def poisonLog (c : ChanId) (kind init addr : Nat) : Op :=
  withD fun d =>
    match (List.finRange 16).find? fun i => ((d.ext c).plog[i.val]).isNone with
    | some i => modX c fun x => { x with plog := x.plog.set i.val (some { kind := kind, init := init, addr := addr }) }
    | none => ops [incF (extPg c) F.EXT_PLOGCTL.lost, extCause c 5]

/-- The line is stored with a poison tag (R324, R334). -/
def poisonLine (c : ChanId) (line : Nat) : Op :=
  modX c fun x => { x with poison := if x.poison.contains line then x.poison else line :: x.poison }

def freshLine (c : ChanId) (line : Nat) : Op := modX c fun x => { x with poison := x.poison.filter (· != line) }

/-! ### Counters (R327 to R331) -/

/-- Traffic of the counter cache and the tree, whose size the chapter does not give: the counters advance by free
numbers. -/
def counterTraffic (c : ChanId) : Op :=
  withFree fun f =>
    ops [if Config.freeNat f 0 % 2 = 0 then incReg (extPg c) R.EXT_CCHIT else incReg (extPg c) R.EXT_CCMISS,
      addReg 39 (R.CTR_CCRD0 + c.val) (Config.freeNat f 1), addReg 39 (R.CTR_CCWB0 + c.val) (Config.freeNat f 2),
      addReg 39 (R.CTR_TREERD0 + c.val) (Config.freeNat f 3), addReg 39 (R.CTR_TREEWR0 + c.val) (Config.freeNat f 4),
      addReg 39 (R.CTR_ROOTUPD0 + c.val) (Config.freeNat f 5)]

/-- Count `n` line encryptions under the current key of a key region (R329); at 2^44 its writes stall (R331). -/
def countEnc (k n : Nat) : Op :=
  withD fun d =>
    let v := d.kCount k + n
    ops [modY fun y => { y with count := y.count.set (Fin.ofNat 32 k).val v },
      whenB (v ≥ 2 ^ 44 && !(d.regBit 38 R.CRY_KRSTALL k)) (ops [setBit 38 R.CRY_KRSTALL k, cryCause 2])]

/-- The page counter of a page, with the highest of its channel; BLANKET has no counters, only the bit of a written page. -/
def setPc (c : ChanId) (page v : Nat) : Op :=
  ops [modX c fun x => { x with pc := natPut x.pc page v },
    whenD (fun d => d.extMode c == mFull && d.reg64 39 (R.CTR_MAXPC0_LO + 2 * c.val) < v)
      (setN64 39 (R.CTR_MAXPC0_LO + 2 * c.val) v)]

/-- Every line counter of a page is 0. -/
def clearLc (c : ChanId) (page : Nat) : Op :=
  modX c fun x => { x with lc := (List.range 64).foldl (fun m i => natPut m (64 * page + i) 0) x.lc }

/-- A line found bad by a re-encryption or the rambler: a poison tag and an entry of the log, with no SEC_ALARM (R327). -/
def foundBad (c : ChanId) (line : Nat) : Op :=
  ops [poisonLine c line, poisonLog c 3 0x3FF (chanBase c + 64 * line)]

/-- The page is re-encrypted under the next page counter, line counters 0; `bad` are the lines of the page whose check
fails (R327). -/
def reencrypt (c : ChanId) (line : Nat) (bad : List (Fin 64)) : Op :=
  withD fun d =>
    let page := line / 64
    ops [setPc c page (natAt (d.ext c).pc page + 1), clearLc c page, countEnc (keyRegion c (64 * line)) 64,
      forAll (bad.filter fun i => i.val != line % 64) fun i => foundBad c (64 * page + i.val),
      incReg (extPg c) R.EXT_OVFCNT, extCause c 6]

/-- A write of a line in FULL takes its next counter (R327). -/
def takeCounter (c : ChanId) (line : Nat) (bad : List (Fin 64)) : Op :=
  withD fun d =>
    let v := natAt (d.ext c).lc line
    both (counterTraffic c)
      (if v < 255 then
        both (modX c fun x => { x with lc := natPut x.lc line (v + 1) }) (countEnc (keyRegion c (64 * line)) 1)
      else reencrypt c line bad)

/-- Pages whose data the sweep has not reached and nothing has written (R333). -/
def Device.unswept (d : Device) (c : ChanId) (page : Nat) : Bool :=
  d.bit (extPg c) F.EXT_SWEEP.sweeping && (d.ext c).bound ≤ page && natAt (d.ext c).pc page == 0

/-- A page is written as zeros with fresh tags and page counter 1 (R333); in BLANKET its bit is set. -/
def freshPage (c : ChanId) (page : Nat) : Op :=
  withD fun d =>
    ops [clearRange (chanBase c + 4096 * page) 4096, setPc c page 1, clearLc c page,
      modX c fun x => { x with poison := x.poison.filter fun l => l / 64 != page },
      whenB (d.extMode c == mFull) (countEnc (keyRegion c (4096 * page)) 64)]

/-! ### Accesses (R325, R326, R333 to R335) -/

/-- The requests of the network at a channel, reads or writes (R31, R318). -/
def Device.extOut (d : Device) (c : ChanId) (write : Bool) : Nat :=
  (d.inn.net.filter fun p => p.out && p.pos == (if c = 0 then 24 else 31) && p.exit == 2 && p.kind < 3 && (p.kind != 0) == write).length

/-- A channel's DRAM enters or leaves self-refresh (R338, R373). -/
def selfRefresh (c : ChanId) (on : Bool) : Op :=
  withD fun d =>
    both (setB (extPg c) F.EXT_PWR.selfref on)
      (whenB (d.fld (extPg c) F.EXT_STAT.state == if on then 3 else 4) (setF (extPg c) F.EXT_STAT.state (if on then 4 else 3)))

/-- Why an access does not reach the data of a channel: its domains off or closing, its DRAM in self-refresh, its size, OFF,
a self-test, a counter-lost page (R248, R316, R319, R320, R328, R373). -/
def Device.extBlocked (d : Device) (c : ChanId) (off : Nat) : Option Status :=
  if !(d.domOn 77) || !(d.domOn 78) || d.inn.closing.contains 77 || d.bit (extPg c) F.EXT_PWR.selfref then some .domainOff
  else if d.bit (extPg c) F.EXT_TEST.test then some .busyTest
  else if d.extMode c = mOff ∨ d.fld (extPg c) F.EXT_STAT.state ≠ 3 ∨ d.extGib c * 2 ^ 30 ≤ off then some .busErr
  else if (d.ext c).lost.contains (off / 4096) then some .busErr
  else none

/-- The checks of R325 apply to a line: FULL, and its page has been written. -/
def Device.extChecked (d : Device) (c : ChanId) (off : Nat) : Bool :=
  d.extMode c == mFull && !(d.unswept c (off / 4096))

/-- How a read of a line ends. -/
def Device.extReadStatus (d : Device) (c : ChanId) (off : Nat) (found : ExtFound) : Status :=
  match d.extBlocked c off with
  | some st => st
  | none =>
    if d.extChecked c off then
      if (d.ext c).poison.contains (off / 64) then .busErr
      else
        match found with
        | .good | .retried => .ok
        | .bad | .counter _ => .busErr
    else .ok

/-- The pages that a counter block of a tree level covers: 8, 64 or 512, from their first (R317, R328). -/
def coveredPages (page : Nat) (level : Fin 3) : List Nat :=
  let n := 8 ^ (level.val + 1)
  (List.range n).map (page / n * n + ·)

/-- An entry of the counter-lost log, lowest free entry first. -/
def lostLogPut (e : LostLog) : Op :=
  withD fun d =>
    match (List.finRange 16).find? fun i => (d.inn.cry.lostLog[i.val]).isNone with
    | some i => both (modY fun y => { y with lostLog := y.lostLog.set i.val (some e) }) (incF 39 F.CTR_STAT.lost)
    | none => skip

/-- A counter block fails (R328, R334): its pages are counter-lost, the log and one SEC_ALARM. -/
def counterFail (c : ChanId) (off : Nat) (level : Fin 3) (init : Nat) : Op :=
    let pages := coveredPages (off / 4096) level
    ops [modX c fun x => { x with lost := pages ++ x.lost.filter fun p => !pages.contains p },
      withD fun d1 => setN 39 (R.CTR_LOSTCNT0 + c.val) (d1.ext c).lost.length,
      lostLogPut { ch := c.val, level := level.val + 1, addr := chanBase c + 4096 * (pages.headD 0) },
      incReg 39 (R.CTR_TMACERR0 + c.val), ctrCause 0, extCause c 3, secAlarm c 2,
      poisonLog c 2 init (chanBase c + off)]

/-- A line fails its check (R334): cause, SEC_ALARM, log, poison tag. -/
def lineFail (c : ChanId) (off init kind : Nat) : Op :=
  ops [extCause c (if kind = 1 then 2 else 1), secAlarm c kind, poisonLog c kind init (chanBase c + off),
    poisonLine c (off / 64)]

/-- What reading and checking a line does (R325, R328, R334, R335); `kind` 0 for a read, 1 within a partial write. -/
def extCheck (c : ChanId) (off init kind : Nat) (found : ExtFound) : Op :=
  withD fun d =>
    if (d.extBlocked c off).isSome || !(d.extChecked c off) then skip
    else
      both (counterTraffic c)
        (match found with
        | .counter l => counterFail c off l init
        | _ =>
          if (d.ext c).poison.contains (off / 64) then extCause c 4
          else
            match found with
            | .retried => both (incReg (extPg c) R.EXT_RETRYCNT) (extCause c 0)
            | .bad => lineFail c off init kind
            | _ => skip)

/-- A read of the line at an offset by an initiator. -/
def extRead (c : ChanId) (off init : Nat) (found : ExtFound) : Op :=
  ops [whenD (fun d => (d.extBlocked c off).isNone) (incReg (extPg c) R.EXT_CNT0), extCheck c off init 0 found]

/-- Writes of the key region stall (R331): the write waits. -/
def Device.extStalled (d : Device) (c : ChanId) (off : Nat) : Bool :=
  d.extMode c == mFull && d.regBit 38 R.CRY_KRSTALL (keyRegion c off)

/-- The counters and tags of a write whose data is good: above the sweep boundary the page is first written as zeros
(R326, R327, R333). -/
def extCommit (c : ChanId) (off : Nat) (bad : List (Fin 64)) : Op :=
  withD fun d =>
    ops [if d.unswept c (off / 4096) then freshPage c (off / 4096)
      else whenB (d.extMode c == mFull) (takeCounter c (off / 64) bad),
      freshLine c (off / 64), breakResv ((chanBase c + off) / 64)]

/-- The tree level of a counter block that fails when a write takes its counter (R328). -/
def Device.counterBad (d : Device) (c : ChanId) (found : ExtFound) : Option (Fin 3) :=
  match found with
  | .counter l => if d.extMode c = mFull then some l else none
  | _ => none

/-- A write of a full line (R326, R328, R335): it replaces the line, and a poison ends. -/
def extWriteFull (c : ChanId) (off init : Nat) (data : List Byte) (found : ExtFound) (bad : List (Fin 64)) : Op :=
  withD fun d =>
    if (d.extBlocked c off).isSome || d.extStalled c off then skip
    else
      match d.counterBad c found with
      | some l => both (counterTraffic c) (counterFail c off l init)
      | none =>
        ops [extCommit c off bad, setBytes (chanBase c + off / 64 * 64) (data.take 64), incReg (extPg c) (R.EXT_CNT0 + 1)]

/-- How a full-line write ends. -/
def Device.extFullStatus (d : Device) (c : ChanId) (off : Nat) (found : ExtFound) : Status :=
  match d.extBlocked c off with
  | some st => st
  | none => if (d.counterBad c found).isSome then .busErr else .ok

/-- A write of part of a line, as (offset in the line, byte) (R326): read, check, merge and write as one operation. -/
def extWritePart (c : ChanId) (off init : Nat) (bs : List (Nat × Byte)) (found : ExtFound) (bad : List (Fin 64)) : Op :=
  withD fun d =>
    if (d.extBlocked c off).isSome || d.extStalled c off then skip
    else
      ops [extCheck c off init 1 found,
        if d.extReadStatus c off found = .ok then
          ops [extCommit c off bad, forAll bs fun p => setByte (chanBase c + off / 64 * 64 + p.1 % 64) p.2,
            incReg (extPg c) (R.EXT_CNT0 + 2)]
        else skip]

/-- The channel and the offset in it of a device address in external memory (R316). -/
def extChan (a : Nat) : ChanId := Fin.ofNat 2 ((a - extBase) / 0x400000000)
def extOff (a : Nat) : Nat := (a - extBase) % 0x400000000

/-- The memory tier or external memory holds an address. -/
def inTier (a : Nat) : Bool := a < extBase
def inExt (a : Nat) : Bool := extBase ≤ a && a < 0x900000000

/-- A write of whole 64 B lines by the part itself, to the memory tier or to external memory. -/
def storeLines : Nat → Nat → List Byte → Op
  | 0, _, _ => skip
  | n + 1, a, bs =>
    both (if inTier a then both (writeFresh a (bs.take 64)) (breakResv (a / 64))
      else extWriteFull (extChan a) (extOff a) 0x3FF (bs.take 64) .good [])
      (storeLines n (a + 64) (bs.drop 64))

/-! ### Meanings: training and modes -/

/-- The data size of a channel from the capacity its DRAM reports, in MiB: the largest whole number of GiB, at most 16,
with S × 1.129 within it (R316). -/
def dataGib (mib : Nat) : Nat := min 16 (mib * 1000 / (1129 * 1024))

/-- The sweep's boundary. -/
def setBound (c : ChanId) (page : Nat) : Op :=
  both (modX c fun x => { x with bound := page }) (setF (extPg c) F.EXT_SWEEP.boundary page)

/-- A sweep starts from offset 0 (R333). -/
def startSweep (c : ChanId) : Op :=
  withD fun d =>
    ops [setBound c 0, setB (extPg c) F.EXT_SWEEP.sweeping (d.extGib c != 0)]

/-- The metadata of a channel is written fresh, and its data reads as zeros (R320, R333). -/
def freshChannel (c : ChanId) : Op :=
  ops [clearRange (chanBase c) 0x400000000,
    modX c fun x => { x with poison := [], lost := [], pc := [], lc := [] }, setN 39 (R.CTR_LOSTCNT0 + c.val) 0,
    setN64 39 (R.CTR_MAXPC0_LO + 2 * c.val) 0]

/-- The rambler stops on a channel whose keys are discarded, and nothing of it waits. -/
def stopRamble (c : ChanId) : Op :=
  withD fun d =>
    ops [whenB (d.rambling && d.ramRegion / 16 == c.val) (setF 38 F.CRY_STAT.busy 0),
      modY fun y => { y with queue := y.queue.filter fun q => q.1 / 16 != c.val },
      clearBits 38 R.CRY_KRQUEUE ((2 ^ 16 - 1) * 2 ^ (16 * c.val)),
      clearBits 38 R.CRY_KRSTALL ((2 ^ 16 - 1) * 2 ^ (16 * c.val))]

/-- The fields that show a channel's mode; with FULL its keys and its verified tree go (R319, R320). -/
def setMode (c : ChanId) (m : Nat) : Op :=
  withD fun d =>
    let t := d.fld 39 F.CTR_STAT.tree
    let full := m = mFull
    ops [setF (extPg c) F.EXT_STAT.mode m, setF 38 (if c = 0 then F.CRY_MODE.mode0 else F.CRY_MODE.mode1) m,
      setB 38 F.CRY_STAT.keys (full || d.extMode (if c = 0 then 1 else 0) == mFull),
      setF 39 F.CTR_STAT.tree (if c = 0 then t / 2 * 2 + (if full then 1 else 0) else (if full then 2 else 0) + t % 2)]

/-- Enter BLANKET under a blanket key that the steward draws (R320, R321). -/
def enterBlanket (c : ChanId) : Op :=
  withFree fun f =>
    ops [freshChannel c, stopRamble c,
      modX c fun x => { x with blanketKey := Config.freeNat f 0 % 2 ^ 64 },
      setF 38 F.CRY_BLSTAT.drawn 1, setMode c mBlanket, startSweep c]

/-- Enter FULL: new keys for every key region, a fresh counter table and tree, the sweep (R320, R333). -/
def enterFull (c : ChanId) : Op :=
  withD fun d =>
    ops [freshChannel c, stopRamble c,
      forAll (List.range (d.extGib c)) fun i =>
        ops [modY fun y => { y with count := y.count.set (Fin.ofNat 32 (16 * c.val + i)).val 0 }, incReg 38 R.CRY_KEYREQ, incReg 3 R.STW_KEYGEN],
      setMode c mFull, startSweep c]

/-- A change of a channel's mode by the steward (R320); none to FULL while the key store holds no memory keys (R29, R319). -/
def changeMode (c : ChanId) (m : Nat) : Op :=
  withD fun d =>
    let old := d.extMode c
    if m = old ∨ m = 3 ∨ (m = mFull ∧ ¬ d.inn.stw.memKeys) ∨ d.fld (extPg c) F.EXT_STAT.state ≠ 3 then skip
    else
      both (if m = mFull then enterFull c else if m = mBlanket then enterBlanket c
        else ops [freshChannel c, stopRamble c, setMode c mOff, setF (extPg c) F.EXT_SWEEP.sweeping 0])
        (cryCause 3)

/-- A write of CRY_MODE: only the steward's takes effect (R320). -/
def cryModeWrite (who : Who) (m0 m1 : Nat) : Op :=
  pageWrite 38 (whenB (who == .steward) (both (changeMode 0 m0) (changeMode 1 m1)))

/-- CRY_MODE_WRITE (R319, R320). A write of both mode fields; a field of value 3 leaves its channel as it is. -/
def execCryModeWrite (who : Who) (m0 m1 : Fin 4) (s : State) : Result := go s (byWrite who 38 (cryModeWrite who m0.val m1.val))

/-- The rate that training ends at: from max_rate downward, the first whose margin is high enough (R339); `margins` are
those at 6400, 7500 and 8533 MT/s. -/
def trainedRate (maxRate marginMin : Nat) (margins : Fin 3 → Nat) : Option Nat :=
  [3, 2, 1].find? fun r => r ≤ maxRate && marginMin ≤ margins (Fin.ofNat 3 (r - 1))

/-- CHANNEL_TRAINED (R316, R339). A channel's training ends: at a rate, in BLANKET, with the data size that the reported
capacity gives; or failed, with S = 0. `m1`, `m2`, `m3` are the worst Vref margins in mV at 6400, 7500 and 8533 MT/s,
`mib` the capacity in MiB, 0 where no DRAM is found. Only while the channel trains. -/
def execChannelTrained (c : ChanId) (mib m1 m2 m3 : Nat) (s : State) : Result :=
  go s <| whenD (fun d => d.fld (extPg c) F.EXT_STAT.state == 1) <| withD fun d =>
    let p := extPg c
    let margins : Fin 3 → Nat := fun i => if i.val = 0 then m1 else if i.val = 1 then m2 else m3
    match if mib = 0 then none else trainedRate (d.fld p F.EXT_CFG.max_rate) (d.fld p F.EXT_CFG.margin_min) margins with
    | some r =>
      ops [setF p F.EXT_STAT.state 3, setF p F.EXT_STAT.size (dataGib mib), setF p F.EXT_STAT.rate r,
        setF p F.EXT_TRAIN.rate r, setF p F.EXT_TRAIN.margin (margins (Fin.ofNat 3 (r - 1))), enterBlanket c]
    | none =>
      ops [setF p F.EXT_STAT.state 5, setF p F.EXT_STAT.size 0, setF p F.EXT_STAT.rate 0, setMode c mOff, extCause c 7]

/-- REFRESH_RATE_CODE_RISE (R340). The DRAM reports a refresh-rate code above the one held. -/
def execRefreshRateCodeRise (c : ChanId) (code : Fin 8) (s : State) : Result :=
  go s <| withD fun d =>
    if d.fld (extPg c) F.EXT_TEMP.code < code.val then both (setF (extPg c) F.EXT_TEMP.code code.val) (extCause c 9)
    else skip

/-! ### Meanings: the rambler -/

/-- The rambler starts on a key region (R330). -/
def startRamble (k : Nat) (forced : Bool) : Op :=
  ops [setF 38 F.CRY_STAT.busy 1, setF 38 F.CRY_STAT.region k, setF 38 F.CRY_RSTAT.boundary 0,
    incReg 38 R.CRY_KEYREQ, incReg 3 R.STW_KEYGEN, modY fun y => { y with forced := forced, own := 0, passed := 0 }, cryCause 0]

/-- A key region is in use: its gibibyte lies within a channel in FULL. -/
def Device.regionInUse (d : Device) (k : Nat) : Bool :=
  d.extMode (regionChan k) == mFull && k % 16 < d.extGib (regionChan k)

/-- A key region starts its ramble, or waits for one in progress (R330, R332). -/
def askRamble (k : Nat) (forced : Bool) : Op :=
  withD fun d =>
    if !(d.regionInUse k) then skip
    else if d.rambling then
      if d.ramRegion = k ∨ d.inn.cry.queue.any (fun q => q.1 == k && (q.2 || !forced)) then skip
      else ops [modY fun y => { y with queue := (k, forced) :: y.queue.filter fun q => q.1 != k }, setBit 38 R.CRY_KRQUEUE k]
    else startRamble k forced

/-- RAMBLE_START (R330). The count of a key region has reached 15 × 2^40. -/
def execRambleStart (k : Fin 32) (s : State) : Result :=
  go s <| whenD (fun d => 15 * 2 ^ 40 ≤ d.kCount k.val) (askRamble k.val false)

/-- A write of force to CRY_RAMBLE with a key region (R332). -/
def rambleForce (k : Nat) : Op := pageWrite 38 (both (setF 38 F.CRY_RAMBLE.region k) (askRamble k true))

/-- RAMBLE_FORCE (R332). -/
def execRambleForce (k : Fin 32) (s : State) : Result := go s (rambleForce k.val)

/-- The page at the boundary, counted in its channel. -/
def Device.ramPage (d : Device) : Nat := (d.ramRegion % 16) * 2 ^ 18 + d.fld 38 F.CRY_RSTAT.boundary

/-- RAMBLE_PAGE (R329, R330, R332). The rambler takes the page at its boundary: every line under the new key with its
counters, `bad` the lines whose check fails; in a forced ramble a counter-lost page becomes zeros with counters 0. -/
def execRamblePage (bad : List (Fin 64)) (s : State) : Result :=
  go s <| withD fun d =>
    let c := regionChan d.ramRegion
    let page := d.ramPage
    let lost := (d.ext c).lost.contains page
    if !(d.rambling) || 2 ^ 18 ≤ d.inn.cry.passed then skip
    else
      ops [if lost then
          whenB d.inn.cry.forced
            (ops [clearRange (chanBase c + 4096 * page) 4096, setPc c page 0, clearLc c page,
              modX c fun x => { x with lost := x.lost.filter (· != page), poison := x.poison.filter fun l => l / 64 != page },
              withD fun d1 => setN 39 (R.CTR_LOSTCNT0 + c.val) (d1.ext c).lost.length])
        else forAll bad fun i => foundBad c (64 * page + i.val),
        whenB (!lost || d.inn.cry.forced) (both (countEnc d.ramRegion 64) (modY fun y => { y with own := y.own + 64 })),
        modY fun y => { y with passed := y.passed + 1 }, incReg 38 R.CRY_RAMBLECNT,
        setF 38 F.CRY_RSTAT.boundary (min (d.fld 38 F.CRY_RSTAT.boundary + 1) (2 ^ 18 - 1))]

/-- The next of the key regions that wait, in order of their numbers (R330). -/
def nextRamble : Op :=
  withD fun d =>
    match (List.range 32).find? fun k => d.inn.cry.queue.any fun q => q.1 == k with
    | none => skip
    | some k =>
      ops [modY fun y => { y with queue := y.queue.filter fun q => q.1 != k }, clearBits 38 R.CRY_KRQUEUE (2 ^ k),
        startRamble k (d.inn.cry.queue.any fun q => q.1 == k && q.2)]

/-- RAMBLE_DONE (R330, R331). The rambler has passed the whole key region, 2^18 pages: the old key is discarded, the
count restarts from the rambler's own encryptions, a stall ends, and the next region that waits starts. -/
def execRambleDone (s : State) : Result :=
  go s <| withD fun d =>
    let k := d.ramRegion
    if d.rambling ∧ 2 ^ 18 ≤ d.inn.cry.passed then
      ops [modY fun y => { y with gen := y.gen.set (Fin.ofNat 32 k).val ((d.kGen k + 1) % 256)
                                  count := y.count.set (Fin.ofNat 32 k).val y.own, forced := false },
        clearBits 38 R.CRY_KRSTALL (2 ^ k), setF 38 F.CRY_STAT.busy 0, cryCause 1, nextRamble]
    else skip

/-! ### Meanings: the sweep, the logs, the counter caches -/

/-- SWEEP_PAGE (R333). The sweep reaches the page at its boundary: one whose counter is 0 is written as zeros with page
counter 1. -/
def execSweepPage (c : ChanId) (s : State) : Result :=
  go s <| withD fun d =>
    let p := extPg c
    let page := (d.ext c).bound
    if d.bit p F.EXT_SWEEP.sweeping ∧ page < d.extGib c * 2 ^ 18 then
      ops [whenB (natAt (d.ext c).pc page == 0) (freshPage c page), setBound c (page + 1),
        incReg p (R.EXT_CNT0 + 3)]
    else skip

/-- SWEEP_DONE (R333). The sweep has passed the whole data area. -/
def execSweepDone (c : ChanId) (s : State) : Result :=
  go s <| withD fun d =>
    if d.bit (extPg c) F.EXT_SWEEP.sweeping ∧ d.extGib c * 2 ^ 18 ≤ (d.ext c).bound then
      both (setF (extPg c) F.EXT_SWEEP.sweeping 0) (extCause c 8)
    else skip

/-- A write of free to EXT_PLOGCTL (R336). -/
def plogFree (c : ChanId) (sel : Fin 16) : Op :=
  pageWrite (extPg c) (ops [setF (extPg c) F.EXT_PLOGCTL.sel sel.val,
    modX c fun x => { x with plog := x.plog.set sel.val none }])

/-- PLOG_FREE (R336). -/
def execPlogFree (c : ChanId) (sel : Fin 16) (s : State) : Result := go s (plogFree c sel)

/-- A write of 1 to CTR_CCCTL (R328, R340): both counter caches are written back and emptied. -/
def counterFlush : Op :=
  pageWrite 39 (withFree fun f =>
    ops [addReg 39 R.CTR_CCWB0 (Config.freeNat f 0), addReg 39 (R.CTR_CCWB0 + 1) (Config.freeNat f 1)])

/-- COUNTER_CACHE_FLUSH (R328). What the caches hold is not followed, so the write-backs count by free numbers. -/
def execCounterCacheFlush (s : State) : Result := go s counterFlush

/-- A write of free to CTR_LOSTSEL (R328). -/
def lostLogFree (sel : Fin 16) : Op :=
  pageWrite 39 (withD fun d => ops [setF 39 F.CTR_LOSTSEL.sel sel.val,
    whenB ((d.inn.cry.lostLog[sel.val]).isSome) (setF 39 F.CTR_STAT.lost (d.fld 39 F.CTR_STAT.lost - 1)),
    modY fun y => { y with lostLog := y.lostLog.set sel.val none }])

/-- LOST_LOG_FREE (R328). -/
def execLostLogFree (sel : Fin 16) (s : State) : Result := go s (lostLogFree sel)

end Sys2Proof.Machine
end

