-- ==== Sys2Proof/Machine/Clocks.lean ====
section
/-!
DEFINITION. Clocks and device time (16_clocks_and_time.md): the root PLL, the clock groups and their switches, the
monitors and failover, the fallback oscillator and its trim, DEVTIME with its rate, steps and holds.
-/

namespace Sys2Proof.Machine

/-! ### Causes (the clocks pages) -/

/-- A CLK_ERR cause, source 621. -/
def clkErr (i : Nat) : Op := causeAt 13 R.CLK_ERR i 16 1

/-- A TIME_ERR cause: stepped on source 626, the others on 627. -/
def timeErr (i : Nat) : Op := causeAt 16 R.TIME_ERR i 16 (if i = 0 then 0 else 1)

/-! ### Clock groups -/

def fSrc (g : Fin 5) : Fld := F.CLK_GRP0.src.at g.val
def fOnOscf (g : Fin 5) : Fld := F.CLK_GRP0.on_oscf.at g.val
def fGrpPend (g : Fin 5) : Fld := F.CLK_GRP0.pend.at g.val
def fAbandoned (g : Fin 5) : Fld := F.CLK_GRP0.abandoned.at g.val

/-- Group `g` takes OSC_F. -/
def Device.onOscf (d : Device) (g : Fin 5) : Bool := d.bit 14 (fOnOscf g)

/-- The groups of a mask. -/
def groupsOf (m : Nat) : List (Fin 5) := (List.finRange 5).filter fun g => m.testBit g.val

/-- The mask of the groups with a property. -/
def groupMask (f : Fin 5 → Bool) : Nat := (List.finRange 5).foldl (fun m g => if f g then m + 2 ^ g.val else m) 0

/-- The groups that take KROOT, and those that take OSC_F and run. -/
def Device.onKroot (d : Device) : Nat := groupMask fun g => !(d.onOscf g)
def Device.runOnOscf (d : Device) : Nat := groupMask fun g => d.onOscf g && !(d.inn.clkStopped.testBit g.val)

/-- Group `g` changes source, which CLK_GRP.src shows after a failover too (notes/assumptions/22.md): while group 0 runs on OSC_F each channel's DRAM is in self-refresh (R373); it leaves it on KROOT
where its domain is on (R338). -/
def setSource (g : Fin 5) (oscf : Bool) : Op :=
  ops [setB 14 (fOnOscf g) oscf, setB 14 (fSrc g) oscf,
    whenD (fun d => g == 0 && (oscf || d.domOn 77)) (forAll (List.finRange 2) fun c => selfRefresh c oscf)]

/-! ### The root PLL (R363) -/

/-- Start KROOT. -/
def startPll : Op := both (modI fun n => { n with pllOn := true }) (setF 13 F.CLK_PLL.lock 0)

/-- A write of relock: refused while any group takes KROOT. -/
def pllRelock : Op := pageWrite 13 (withD fun d => if d.onKroot = 0 then startPll else clkErr 1)

/-- PLL_RELOCK (R363). -/
def execPllRelock (s : State) : Result := go s pllRelock

/-- ROOT_PLL_LOCK (R363). KROOT, once started, locks; its monitors read in range again (notes/assumptions/22.md). -/
def execRootPllLock (s : State) : Result :=
  go s (whenD (fun d => d.inn.pllOn && !(d.bit 13 F.CLK_PLL.lock))
    (both (setF 13 F.CLK_PLL.lock 1) (clearBits 13 R.CLK_MONSTAT 0x33)))

/-! ### Dividers (R85, R365) -/

/-- The smallest divider of the speed grade (R85). -/
def gradeMin : Nat := if Config.speedGrade = 2 then 8 else 10

/-- A write of div to the group of a fabric tree. -/
def dividerWrite (t : Fin 4) (n : Nat) : Op :=
  pageWrite 14 (withD fun d =>
    if d.fld 14 (F.CLK_GRP1.divmin.at t.val) ≤ n ∧ gradeMin ≤ n then setF 14 (F.CLK_GRP1.div.at t.val) n
    else both (clkErr 2) (raise 14 1))

/-- DIVIDER_WRITE (R365). -/
def execDividerWrite (t : Fin 4) (n : Fin 1024) (s : State) : Result := go s (dividerWrite t n.val)

/-! ### Ordinary switches (R374, R375) -/

/-- A write of src: a switch starts, unless one is pending; a group already on that source stays. -/
def clockSwitch (g : Fin 5) (oscf : Bool) : Op :=
  pageWrite 14 (withD fun d =>
    if d.bit 14 (fGrpPend g) then both (clkErr 3) (raise 14 1)
    else both (setB 14 (fSrc g) oscf) (whenB (d.onOscf g != oscf) (setF 14 (fGrpPend g) 1)))

/-- CLOCK_SWITCH (R374). -/
def execClockSwitch (g : Fin 5) (oscf : Bool) (s : State) : Result := go s (clockSwitch g oscf)

/-- Both clocks of a pending switch run: the old one has not stopped, KROOT is locked, OSC_F is ready (R374). -/
def Device.switchRuns (d : Device) (g : Fin 5) : Bool :=
  !(d.inn.clkStopped.testBit g.val) && d.bit 13 F.CLK_PLL.lock && d.bit 15 F.CLK_OSCF.ready &&
    !(d.regBit 13 R.CLK_MONSTAT 0) && !(d.regBit 13 R.CLK_MONSTAT 1)

/-- A pending switch ends. -/
def switchDone (g : Fin 5) : Op :=
  withD fun d =>
    if d.bit 14 (fGrpPend g) ∧ d.switchRuns g then
      ops [setSource g (d.bit 14 (fSrc g)), setF 14 (fGrpPend g) 0, incReg 14 R.CLK_SWCNT, raise 14 0]
    else skip

/-- CLOCK_SWITCH_DONE (R374). -/
def execClockSwitchDone (g : Fin 5) (s : State) : Result := go s (switchDone g)

/-- A pending switch is abandoned (R375); CLK_GRP.src shows the source in use again (notes/assumptions/22.md). -/
def abandonSwitch (g : Fin 5) : Op :=
  whenD (fun d => d.bit 14 (fGrpPend g)) (withD fun d =>
    ops [setF 14 (fGrpPend g) 0, setF 14 (fAbandoned g) 1, setB 14 (fSrc g) (d.onOscf g)])

/-! ### Failover (R369 to R373) -/

/-- Record a failover of some groups and raise clock failure; `trip` is the monitor as CLK_FAIL codes it. -/
def recordFail (groups trip : Nat) (stopped : Bool) : Op :=
  withD fun d =>
    ops [setReg 13 R.CLK_FAIL 0, setF 13 F.CLK_FAIL.groups groups, setF 13 F.CLK_FAIL.trip trip,
      setB 13 F.CLK_FAIL.stopped stopped, setF 13 F.CLK_FAIL.record 1, setN64 13 R.CLK_FAILTIME_LO d.now,
      incReg 13 R.CLK_FAILCNT, raise 13 0]

/-- Groups are stopped low (R371). -/
def stopGroups (m : Nat) : Op := modI fun n => { n with clkStopped := n.clkStopped ||| m, clkForcing := 0 }

/-- The trip of a monitor is flagged and its window's count latched (R369). -/
def flagTrip (k : Nat) (count : Byte) : Op :=
  ops [setBit 13 R.CLK_MONSTAT k, setBit 13 R.CLK_MONSTAT (k + 4), setReg 13 (R.CLK_REFCNT + k) (count.zeroExtend 32),
    clkErr 0]

/-- MONITOR_TRIP (R369, R370, R371, R375). The REFCLK or KROOT monitor, while it is enabled, trips with its window's count;
it is acted on while a group takes KROOT: those groups wait for the forced switch, or stop where OSC_F is not ready. -/
def execMonitorTrip (kroot : Bool) (count : Byte) (s : State) : Result :=
  go s <| withD fun d =>
    let k := if kroot then 1 else 0
    let m := d.onKroot
    if !(d.regBit 13 R.CLK_MONCTL k) then skip
    else
      ops [flagTrip k count,
        whenB (m != 0)
          (ops [forAll (List.finRange 5) abandonSwitch, recordFail m (k + 1) (!(d.bit 15 F.CLK_OSCF.ready)),
            if d.bit 15 F.CLK_OSCF.ready then modI fun n => { n with clkForcing := m } else stopGroups m])]

/-- FORCED_SWITCH (R370, R373). The affected groups run from OSC_F; FAB_CLKFAIL is 1 on their trees. -/
def execForcedSwitch (s : State) : Result :=
  go s <| withD fun d =>
    let m := d.inn.clkForcing
    if m = 0 then skip
    else
      ops [forAll (groupsOf m) fun g => setSource g true, setF 13 F.CLK_FAIL.forced 1,
        modI fun n => { n with clkForcing := 0, clkFail := n.clkFail ||| m }]

/-- OSC_F_TRIP (R366, R371). OSC_F's monitor, while it is enabled, trips: OSC_F restarts, and the groups that take it, or
wait for it, stop low. -/
def execOscFTrip (count : Byte) (s : State) : Result :=
  go s <| withD fun d =>
    let m := d.runOnOscf ||| d.inn.clkForcing
    if !(d.regBit 13 R.CLK_MONCTL 2) then skip
    else
      ops [flagTrip 2 count, setF 15 F.CLK_OSCF.ready 0,
        whenB (m != 0)
          (ops [forAll (groupsOf m) abandonSwitch, recordFail m 3 true, stopGroups m])]

/-- OSC_F_READY (R366, R371). OSC_F passes its monitored cycles; stopped groups start on it, and CLK_STOPTIME takes how
long they stood, in OSC_S cycles. -/
def execOscFReady (oscs : Word) (s : State) : Result :=
  goIn [.up, .por] s <| withD fun d =>
    if d.bit 15 F.CLK_OSCF.ready then skip
    else
      let m := d.inn.clkStopped
      ops [setF 15 F.CLK_OSCF.ready 1, clearBits 13 R.CLK_MONSTAT 0x44,
        whenB (m != 0) (ops [forAll (groupsOf m) fun g => setSource g true, setReg 13 R.CLK_STOPTIME oscs,
          modI fun n => { n with clkStopped := 0, clkFail := n.clkFail ||| m }]),
        raise 15 0]

/-- A write of restart to CLK_OSCF (R366). -/
def oscRestart : Op := pageWrite 15 (setF 15 F.CLK_OSCF.ready 0)

/-- OSC_F_RESTART (R366). -/
def execOscFRestart (s : State) : Result := go s oscRestart

/-- A write of 1 to CLK_FAIL.record (R373). -/
def failRecordClear : Op := pageWrite 13 (both (setReg 13 R.CLK_FAIL 0) (modI fun n => { n with clkFail := 0 }))

/-- FAIL_RECORD_CLEAR (R373). -/
def execFailRecordClear (s : State) : Result := go s failRecordClear

/-- One step of a code toward another (R488). -/
def stepToward (c g : Nat) : Nat := if c < g then c + 1 else if g < c then c - 1 else c

/-- OSC_F_TRIM (R367, R488). The 1 ms trim, once group 0 is on KROOT: the code that the reference gives and the residual, or the
held code with trim_held where the reference is absent. With CLK_TRIMCTL.ref at 3 the code is held. While a written array asks for
a code, it moves one step toward that instead (notes/assumptions/89.md). -/
def execOscFTrim (present : Bool) (code : Fin 4096) (residual : BitVec 16) (s : State) : Result :=
  go s <| withD fun d =>
    let old := d.fld 15 F.CLK_TRIM.code
    if d.onOscf 0 ∨ !(d.bit 15 F.CLK_OSCF.ready) then skip
    else if d.inn.oscGoal.isSome then
      let c := stepToward old (d.inn.oscGoal.getD old)
      ops [setF 15 F.CLK_TRIM.code c, modI fun n => { n with oscGoal := n.oscGoal.filter (· != c) }, incReg 15 R.CLK_TRIMCNT]
    else if d.fld 15 F.CLK_TRIMCTL.ref = 3 then skip
    else if !present then both (clkErr 4) (raise 15 1)
    else
      ops [setF 15 F.CLK_TRIM.code code.val, setF 15 F.CLK_TRIMRES.valid 1, incF 15 F.CLK_TRIMRES.seq,
        setF 15 F.CLK_TRIMRES.residual residual.toNat, incReg 15 R.CLK_TRIMCNT,
        setN 15 256 code.val, setReg 15 257 (d.reg 20 R.PWR_TJ0),
        whenB (decide (residual.toInt > 1000 ∨ residual.toInt < -1000)) (raise 15 1)]

/-! ### Device time (R377 to R382) -/

/-- The units of `devfrac` in a nanosecond. -/
def nsUnit : Nat := 48000000000

/-- The steering mode, as TIME_STAT.steer codes it (R378): 0 free, 1 Guleg, 2 software, 3 clock of record. -/
def Device.steer (d : Device) : Nat :=
  if d.bit 80 F.LNK_DEV.cor then 3
  else if d.fld 80 F.LNK_DEV.tparent ≠ 0xF then 1
  else if d.bit 16 F.TIME_CTL.sw_steer then 2
  else 0

/-- The steering mode is clock of record or software. -/
def Device.adjusted (d : Device) : Bool := d.steer == 3 || d.steer == 2

/-- The rate in force after a change of the steering mode (R379): TIME_ADJ, or 0 in free mode; Guleg steering keeps the
rate until it writes it. -/
def takeRate (old : Nat) : Op :=
  withD fun d =>
    if d.steer = old then skip
    else if d.adjusted then setReg 16 R.TIME_RATE (d.reg 16 R.TIME_ADJ)
    else whenB (d.steer == 0) (setReg 16 R.TIME_RATE 0)

/-- An operation on the steering controls, and what the change of mode does. -/
def steered (o : Op) : Op := withD fun d => both o (takeRate d.steer)

/-- A write of TIME_CTL.sw_steer. -/
def swSteerWrite (b : Bool) : Op := pageWrite 16 (steered (setB 16 F.TIME_CTL.sw_steer b))

/-- The steering controls of LNK_DEV; 12 to 14 leave tparent unchanged. -/
def lnkSteerWrite (cor : Bool) (tparent : Nat) : Op :=
  pageWrite 80 (steered (both (setB 80 F.LNK_DEV.cor cor)
    (whenB (!(12 ≤ tparent && tparent ≤ 14)) (setF 80 F.LNK_DEV.tparent tparent))))

/-- STEERING_MODE_CHANGE (R378, R379). A write to TIME_CTL.sw_steer, or to LNK_DEV.cor and tparent. -/
def execSteeringModeChange (w : Bool ⊕ (Bool × Fin 16)) (s : State) : Result :=
  go s (match w with
    | .inl b => swSteerWrite b
    | .inr (cor, t) => lnkSteerWrite cor t.val)

/-- A region's copy of DEVTIME takes the present one. -/
def alignCopy (r : RegionId) : Op :=
  withD fun d => modR r fun g => { g with devtime := d.now, devpart := d.inn.devfrac / 1000000000 }

/-- DEVTIME_SNAPSHOT (R376, R381). Each region's copy takes DEVTIME; a region whose clocks are stopped takes none. -/
def execDevtimeSnapshot (s : State) : Result :=
  go s <| withD fun d =>
    forAll ((List.finRange 64).filter fun r => d.rgnP r.val == 0) fun r => alignCopy r

/-- A write to TIME_ADJ (R378, R379). -/
def timeAdjWrite (v : Word) : Op :=
  pageWrite 16 (withD fun d =>
    if !d.adjusted then timeErr 1
    else if v.toInt < -200000 ∨ 200000 < v.toInt then skip
    else both (setReg 16 R.TIME_ADJ v) (setReg 16 R.TIME_RATE v))

/-- TIME_ADJ_WRITE (R379). -/
def execTimeAdjWrite (v : Word) (s : State) : Result := go s (timeAdjWrite v)

/-- A number of nanoseconds as TIME_LASTSTEP shows it: signed, saturating. -/
def satNs (x : Int) : Word := BitVec.ofInt 32 (max (-2147483648) (min 2147483647 x))

/-- DEVTIME moves by a step of so many 1/16 ns (R292, R380): forward at once, reducing a hold first; backward by a hold. -/
def stepTime16 (x : Int) : Op :=
  withD fun d =>
    ops [if 0 ≤ x then
        modI fun n =>
          let fwd := x.toNat * (nsUnit / 16)
          if fwd ≤ n.hold then { n with hold := n.hold - fwd }
          else
            let t := n.devfrac + (fwd - n.hold)
            { n with hold := 0, devtime := (n.devtime + t / nsUnit) % 2 ^ 64, devfrac := t % nsUnit }
      else
        both (modI fun n => { n with hold := n.hold + x.natAbs * (nsUnit / 16) }) (whenB (d.inn.hold == 0) (timeErr 2)),
      withD fun d1 => whenB (d.inn.hold != 0 && d1.inn.hold == 0) (timeErr 3),
      incReg 16 R.TIME_STEPCNT, setReg 16 R.TIME_LASTSTEP (satNs (x / 16)), timeErr 0]

/-- A step of so many nanoseconds. -/
def stepTime (x : Int) : Op := stepTime16 (16 * x)

/-- A write of go to TIME_STEPCTL (R378, R380): the step, or the target less DEVTIME; a backward step of more than 1 s is
refused. -/
def timeStep (absolute : Bool) : Op :=
  pageWrite 16 (withD fun d =>
    let v := BitVec.ofNat 64 (d.reg64 16 R.TIME_STEP_LO)
    let x : Int := if absolute then (v.toNat : Int) - d.now else v.toInt
    if !d.adjusted ∨ x < -1000000000 then timeErr 1 else stepTime x)

/-- TIME_STEP (R380). -/
def execTimeStep (absolute : Bool) (s : State) : Result := go s (timeStep absolute)

/-- Real time passes by some units: a hold counts down, and its end is TIME_HOLD_DONE's to take (R380). -/
def endHold : Op := whenD (fun d => d.inn.hold != 0) (both (modI fun n => { n with hold := 0 }) (timeErr 3))


/-- The nominal length of a SYS_CLK cycle in units of 1/48 ns: 10/3 ns on KROOT, 5 ns on OSC_F, which counts in P3 (R364,
R377, R398). -/
def Device.sysCycle48 (d : Device) : Nat := if d.onOscf 0 || d.inn.phase == .p3 then 240 else 160

/-- TIME_HOLD_DONE (R380). The last SYS_CLK cycle of a hold: what is left of it has been counted down, and DEVTIME advances again. -/
def execTimeHoldDone (s : State) : Result := go s (whenD (fun d => d.inn.hold ≤ d.sysCycle48 * 1000000000) endHold)

/-- One SYS_CLK cycle of device time (R377, R380): nothing while group 0 is stopped; a hold counts down in real time;
else DEVTIME advances by the cycle's nominal length scaled by the rate in force. -/
def tickTime : Op :=
  withD fun d =>
    if d.inn.clkStopped.testBit 0 then skip
    else if d.inn.hold ≠ 0 then
      let len := d.sysCycle48 * 1000000000
      if d.inn.hold ≤ len then endHold else modI fun n => { n with hold := n.hold - len }
    else
      let len := (d.sysCycle48 * (1000000000 + (d.reg 16 R.TIME_RATE).toInt)).toNat
      let t := d.inn.devfrac + len
      modI fun n => { n with devtime := (n.devtime + t / nsUnit) % 2 ^ 64, devfrac := t % nsUnit }

end Sys2Proof.Machine
end

