-- ==== Sys2Proof/Machine/Fabric.lean ====
section
/-!
DEFINITION. The fabric of a region (03_logic_elements_and_3d_routing.md): truth tables, routing, carry chains, risers, block RAM
ports, arithmetic blocks, border lines and pins under the active context's configuration, and one clock edge of it. What the
selection and control bits of a configuration mean is `Config.fabric`; the truth tables and initial values are read at the
places that the spec gives them (R143, R144).
-/

namespace Sys2Proof

/-! ### What a configuration says -/

/-- The number whose bit `i` is `f i`, of `n` bits. -/
def natOfBits (n : Nat) (f : Nat → Bool) : Nat := (List.range n).foldr (fun i acc => (if f i then 1 else 0) + 2 * acc) 0

/-- The configuration of flip-flop `k` = 2 × element + i. -/
def FabCfg.ffCfg (c : FabCfg) (k : Nat) : FfCfg := if k % 2 = 0 then (c.el (k / 2)).q0 else (c.el (k / 2)).q1

/-- The flip-flop exists: at depth 8 an element has Q0 alone (R59). -/
def ffExists (depth k : Nat) : Bool := k < 73728 && (depth != 8 || k % 2 == 0)

/-- A context declares a flip-flop private; attaches it to a reset tree; marks an accumulator shared; marks a border output
buffered (R64, R88, R75, R127). -/
def FabCfg.keepsOwn (c : FabCfg) (depth k : Nat) : Bool := ffExists depth k && (c.ffCfg k).priv
def FabCfg.onTree (c : FabCfg) (t : Fin 2) (k : Nat) : Bool := (c.ffCfg k).rst == some t
def FabCfg.accShared (c : FabCfg) (a : Nat) : Bool := (c.arith a).shared
def FabCfg.isBuffered (c : FabCfg) (k : Nat) : Bool :=
  match c.border k with
  | some x => x.buffered
  | none => false

/-- An output of an element: at depth 8 none drives a length-12 segment directly (R63). -/
def Net.ofElement : Net → Bool
  | .out .. => true
  | .ff .. => true
  | _ => false

/-- The carry path of a column closes on itself: no element of its 1,024 begins a chain (R69). -/
def FabCfg.carryCloses (c : FabCfg) : Bool :=
  (List.range 36).any fun col =>
    (List.range 1024).all fun i =>
      (c.el (18432 * (i / 512) + 16 * (36 * (i % 512 / 16) + col) + i % 16)).carry == .below

/-- The shared risers of a region: 8 in each of 1,152 clusters (R79). -/
def sharedRisers : List Nat := (List.range 1152).flatMap fun c => (List.range 8).map fun i => 40 * c + 32 + i

/-- Both drivers of some shared riser are enabled; some flip-flop on the secondary tree is private; some buffered border output has no
registered cell. -/
def FabCfg.contends (c : FabCfg) : Bool := sharedRisers.any fun k => (c.shared k).en0 && (c.shared k).en1
def FabCfg.privateSecondary (c : FabCfg) (depth : Nat) : Bool :=
  (List.range 73728).any fun k => c.keepsOwn depth k && (c.ffCfg k).secondary
def FabCfg.unregistered (c : FabCfg) : Bool :=
  (List.range 2048).any fun k =>
    match c.border k with
    | some x => x.buffered && !x.registered
    | none => false

/-- Write-enabled block RAM ports, and buffered border outputs, of the settings (R144). -/
def FabCfg.writePorts (c : FabCfg) : Nat :=
  ((List.range 96).map fun b => (if (c.bram b).a.writes then 1 else 0) + if (c.bram b).b.writes then 1 else 0).sum
def FabCfg.bufferedLines (c : FabCfg) : Nat := ((List.range 2048).filter c.isBuffered).length

/-- Two writes have rows in common. -/
def BramWrite.meets (w v : BramWrite) : Bool := w.row < v.row + v.k && v.row < w.row + w.k

/-- The lines that the active context marks buffered, those whose cells register them, and those that it drives, as masks. -/
def FabCfg.bufferedMask (c : FabCfg) : Nat := natOfBits 2048 c.isBuffered
def FabCfg.registeredMask (c : FabCfg) : Nat := natOfBits 2048 fun k => ((c.border k).map (·.registered)).getD false
def FabCfg.drivenMask (c : FabCfg) : Nat := natOfBits 2048 fun k => (c.border k).isSome

end Sys2Proof

namespace Sys2Proof.Machine

/-! ### Slots and the regional enable -/

/-- Slot states of R93. -/
def slEmpty : Nat := 0
def slFetching : Nat := 1
def slResident : Nat := 2
def slActive : Nat := 3
def slUnusable : Nat := 4
def slNone : Nat := 7

/-- The state nibble of a slot in RGN_SLOTSTAT, and its tag in RGN_SLOTTAG0 to 3. -/
def fSlot (s : SlotId) : Fld := ⟨R.RGN_SLOTSTAT, 4 * s.val + 2, 4 * s.val⟩
def fTag (s : SlotId) : Fld := ⟨R.RGN_SLOTTAG0 + s.val / 2, 16 * (s.val % 2) + 15, 16 * (s.val % 2)⟩

def Device.slot (d : Device) (r : RegionId) (s : SlotId) : Nat := d.fld (rgnPg r) (fSlot s)
def Device.depth (d : Device) (r : RegionId) : Nat := d.fld (rgnPg r) F.RGN_INFO.depth
def Device.active (d : Device) (r : RegionId) : SlotId := Fin.ofNat 8 (d.fld (rgnPg r) F.RGN_CTXSTAT.active_slot)

/-- A released region in P0 that is not under test: it has an active context (R93, R155, R482). -/
def Device.running (d : Device) (r : RegionId) : Bool :=
  d.rgnP r.val == 0 && !(d.rg r).loadReset && !(d.rg r).test && d.bit (rgnPg r) F.RGN_INFO.loaded

/-- The regional enable (R87). -/
def Device.enable (d : Device) (r : RegionId) : Bool :=
  let g := d.rg r
  g.persEnable && !(d.bit (rgnPg r) F.RGN_SPECSTAT.stalled) && g.aborting.isNone &&
    !(d.bit (rgnPg r) F.RGN_HOLD.stop_hold) && !(d.bit (rgnPg r) F.RGN_HOLD.fault_hold) && !g.dbgHalt && !g.test &&
    d.rgnP r.val == 0

/-- The configuration cells of a slot, and what they say. -/
def Device.ctxCells (d : Device) (r : RegionId) (s : SlotId) : List (Nat × Byte) := d.cells (slotBase r s) slotSpan
def Device.cfg (d : Device) (r : RegionId) (s : SlotId) : FabCfg := Config.fabric (d.ctxCells r s) (d.depth r)

/-! ### Single bits of the region's state -/

def bitGet (m : Sparse Bool) (k : Nat) : Bool := sparseGet (fun _ => false) m k
def bitPut (m : Sparse Bool) (k : Nat) (b : Bool) : Sparse Bool := sparsePut (fun _ => false) m k b
def arithGet (m : Sparse Dword) (k : Nat) : Dword := sparseGet (fun _ => 0) m k
def arithPut (m : Sparse Dword) (k : Nat) (v : Dword) : Sparse Dword := sparsePut (fun _ => 0) m k v

/-- A read output of a block RAM port. -/
def outGet (m : Sparse Nat) (k : Nat) : Nat := sparseGet (fun _ => 0) m k

/-! ### Tables (R62) -/

/-- The truth table of an element at a slot: its bits come first in its share of the context (R143). -/
def Device.tableBits (d : Device) (r : RegionId) (s : SlotId) (el : Nat) : Nat :=
  let dep := d.depth r
  if dep = 0 then 0 else d.num (slotBase r s + el * (136 / dep)) (16 / dep)

/-- The inputs of a full table at a depth. -/
def tableInputs (depth : Nat) : Nat := if depth = 2 then 6 else if depth = 4 then 5 else 4

/-- O0, or O1 where `second`, of an element from its table, split and inputs; bit `i` of the table answers the inputs that spell
`i`, I0 lowest; of a split table the lower half is O0's (R62; notes/assumptions/74.md). -/
def tableOut (depth el table : Nat) (split : Bool) (inp : Nat → Bool) (second : Bool) : Bool :=
  let n := tableInputs depth
  if split && depth != 8 then
    table.testBit (natOfBits (n - 1) inp + if second then 2 ^ (n - 1) else 0)
  else if second then depth != 8 && Config.unsplitO1 el
  else table.testBit (natOfBits n inp)

/-! ### Routing (R63, R76, R77, R79, R80, R82) -/

/-- What the nets of a region's active context see. -/
structure FabEnv where
  cfg : FabCfg
  depth : Nat
  table : Nat → Nat
  slot : SlotId
  g : Region
  border : Nat → Bool
  ctl : Nat → Bool
  port : Nat → Bool

/-- The source that a segment's multiplexer selects: at depth 8 a length-12 segment has no element output among its sources, and a
selection of one drives nothing (R63, R76). -/
def FabEnv.segSource (x : FabEnv) (len k : Nat) : Net :=
  let n := x.cfg.seg len k
  if x.depth = 8 ∧ len = 12 ∧ n.ofElement then .const false else n

/-- The source that drives a riser, none where it reads 0: a cut riser, a shared riser that no end drives, or that both do
(R79, R80, R82). -/
def FabEnv.riserSource (x : FabEnv) (k : Nat) : Net :=
  if x.g.cuts.contains k then .const false
  else if k % 40 < 32 then x.cfg.dedicated k
  else
    let s := x.cfg.shared k
    match s.en0, s.en1 with
    | true, false => s.src0
    | false, true => s.src1
    | _, _ => .const false

/-- The register that an arithmetic block presents: its accumulator, or its last pipeline register (R74). Pipeline registers of block
`a` are 8 × a to 8 × a + 2, its accumulator 8 × a + 7. -/
def arithOut (c : FabCfg) (m : Sparse Dword) (a : Nat) : Dword :=
  arithGet m (if (c.arith a).stages = 0 then 8 * a + 7 else 8 * a + (c.arith a).stages.val - 1)

/-- The value of a net, along combinational paths of at most the given length; a path with no end has no value (R62, R79). -/
def FabEnv.val (x : FabEnv) : Nat → Net → Bool
  | _, .const b => b
  | _, .ff el second => bitGet x.g.ff (2 * el + if second then 1 else 0)
  | _, .border k => x.border k
  | _, .bram b p i => (outGet x.g.bramOut (2 * b + p)).testBit i
  | _, .bramErr b p => x.g.bramErr.testBit (2 * b + p)
  | _, .bramColl b p => x.g.bramColl.testBit (2 * b + p)
  | _, .arith a i => (arithOut x.cfg x.g.slots[x.slot.val].arith a).getLsbD i
  | _, .pin k second => x.g.pinIn.testBit (2 * k + if second then 1 else 0)
  | _, .ctl k => x.ctl k
  | _, .port k => x.port k
  | 0, n => Config.loopValue n
  | f + 1, .out el second =>
    let e := x.cfg.el el
    tableOut x.depth el (x.table el) e.split (fun i => x.val f (e.ins.getD i (.const false))) second
  | f + 1, .seg len k => x.val f (x.segSource len k)
  | f + 1, .riser k => x.val f (x.riserSource k)

/-- No combinational path without a loop is longer than the nets of a region. -/
def pathBound : Nat := 2 ^ 20

/-- The value of a net. -/
def FabEnv.v (x : FabEnv) (n : Net) : Bool := x.val pathBound n

/-! ### Carry chains (R68, R69) -/

/-- The element below on a carry chain: in the cluster, in the cluster below in the same column, or through a carry riser in row 31
of the other tier (R68, R69). -/
def carryBelow (el : Nat) : Nat :=
  if el % 16 ≠ 0 then el - 1
  else
    let c := el / 16 % 1152
    if 36 ≤ c then el - 16 * 36 + 15
    else (if el < 18432 then 18432 else 0) + 16 * (36 * 31 + c) + 15

/-- CIN of an element. -/
def FabEnv.cin (x : FabEnv) : Nat → Nat → Bool
  | 0, el => Config.loopValue (.out el true)
  | f + 1, el =>
    match (x.cfg.el el).carry with
    | .const b => b
    | .x => x.v (x.cfg.el el).x
    | .below =>
      let p := carryBelow el
      if x.v (.out p false) then x.cin f p else x.v (x.cfg.el p).x

/-- COUT of an element: CIN when O0 is 1, X when O0 is 0 (R68). -/
def FabEnv.cout (x : FabEnv) (el : Nat) : Bool :=
  if x.v (.out el false) then x.cin 1025 el else x.v (x.cfg.el el).x

/-- The element's sum, O0 XOR CIN (R68). -/
def FabEnv.sum (x : FabEnv) (el : Nat) : Bool := xor (x.v (.out el false)) (x.cin 1025 el)

/-! ### Flip-flops (R64, R66 to R68, R88, R89) -/

/-- The initial value of a flip-flop, from byte 64 of settings frame 0xF000 onward (R144), as listed cells: two bits an element at
every depth, Q0's the lower (notes/assumptions/75.md). -/
def initBits (cells : List (Nat × Byte)) : Sparse Bool :=
  (cells.filter (fun c => settingsOff + 64 ≤ c.1 && c.1 < settingsOff + 64 + 9216)).foldl
    (fun m c => (List.range 8).foldl
      (fun m i => if c.2.getLsbD i then sparsePut (fun _ => false) m (8 * (c.1 - settingsOff - 64) + i) true else m) m) []

/-- The flip-flop is attached, in a context, to a tree that is asserted now. -/
def Device.rstAttached (d : Device) (c : FabCfg) (k : Nat) : Bool :=
  (d.inn.rstTree.1 && c.onTree 0 k) || (d.inn.rstTree.2 && c.onTree 1 k)

/-- The value of a flip-flop after an edge of the trees given: an asserted reset tree, then its clock, then SR, then CE. -/
def FabEnv.ffNext (x : FabEnv) (attached : Nat → Bool) (init : Sparse Bool) (pri sec : Bool) (k : Nat) : Bool :=
  let e := x.cfg.el (k / 2)
  let f := x.cfg.ffCfg k
  let old := bitGet x.g.ff k
  if !(ffExists x.depth k) then false
  else if attached k then bitGet init k
  else if !(if f.secondary then sec else pri) then old
  else if x.v e.sr then f.setBySr
  else if x.v e.ce then
    match f.data with
    | .o0 => x.v (.out (k / 2) false)
    | .o1 => x.v (.out (k / 2) true)
    | .x => x.v e.x
    | .sum => x.sum (k / 2)
  else old

/-- Every flip-flop of the region after an edge. -/
def FabEnv.ffs (x : FabEnv) (attached : Nat → Bool) (init : Sparse Bool) (pri sec : Bool) : Sparse Bool :=
  (List.range 73728).foldl (fun m k => bitPut m k (x.ffNext attached init pri sec k)) []

/-! ### Block RAMs (R70 to R73, R130) -/

/-- Row `i` of a block RAM, nine bits: bit `j` is bit 9 × i + j of its 9,216 bytes (R57, R70). -/
def Device.bramRow (d : Device) (r : RegionId) (b i : Nat) : Nat :=
  d.num (bramBase r.val + 9216 * b + 9 * i / 8) 2 / 2 ^ (9 * i % 8) % 512

/-- Write row `i` of a block RAM. -/
def setBramRow (r : RegionId) (b i v : Nat) : Op :=
  withD fun d =>
    let a := bramBase r.val + 9216 * b + 9 * i / 8
    let sh := 9 * i % 8
    let old := d.num a 2
    setBytes a (Word.bytesOfNat 2 (old - old / 2 ^ sh % 512 * 2 ^ sh + v % 512 * 2 ^ sh))

/-- Row `i` as the region reads it: of the newest entry of the write log that covers it, else of the array (R130). -/
def Device.seenRow (d : Device) (r : RegionId) (log : List BramWrite) (b i : Nat) : Nat :=
  match log.reverse.find? fun w => w.bram.val == b && w.row ≤ i && i < w.row + w.k with
  | some w => w.data / 2 ^ (9 * (i - w.row)) % 512
  | none => d.bramRow r b i

/-- The word of width 9k at address `a`: rows ka to ka + k - 1, the lowest the least significant (R70). -/
def Device.seenWord (d : Device) (r : RegionId) (log : List BramWrite) (b k a : Nat) : Nat :=
  (List.range k).foldr (fun j acc => d.seenRow r log b (k * a + j) + 512 * acc) 0

/-- A write reaches its array: its rows take their nine bits. -/
def retire (r : RegionId) (w : BramWrite) : Op :=
  forAll (List.range w.k) fun j => setBramRow r w.bram.val (w.row + j) (w.data / 2 ^ (9 * j) % 512)

/-- The 72 bits of a 64-bit word in the ECC shape: a byte in the low bits of each row, a check bit as its ninth (R70, R73;
notes/assumptions/76.md). -/
def eccWord (v : BitVec 64) : Nat :=
  let c := Config.bramCheck v
  (List.range 8).foldr (fun j acc => v.toNat / 2 ^ (8 * j) % 256 + (if c.getLsbD j then 256 else 0) + 512 * acc) 0

/-- The data and the check bits of 72 bits. -/
def eccData (w : Nat) : BitVec 64 := BitVec.ofNat 64 ((List.range 8).foldr (fun j acc => w / 2 ^ (9 * j) % 256 + 256 * acc) 0)
def eccBits (w : Nat) : BitVec 8 := BitVec.ofNat 8 (natOfBits 8 fun j => w.testBit (9 * j + 8))

/-- What the ECC shape reads: data with a single-bit error corrected, and whether the error is no such one (R73). -/
def eccRead (w : Nat) : Nat × Bool :=
  let v := eccData w
  let c := eccBits w
  if Config.bramCheck v = c then (v.toNat, false)
  else if (List.range 8).any fun j => Config.bramCheck v ^^^ c == BitVec.ofNat 8 (2 ^ j) then (v.toNat, false)
  else
    match (List.range 64).find? fun i => Config.bramCheck (v ^^^ BitVec.ofNat 64 (2 ^ i)) == c with
    | some i => ((v ^^^ BitVec.ofNat 64 (2 ^ i)).toNat, false)
    | none => (v.toNat, true)

/-- What one port does on an edge: its word address, and its write. -/
structure PortAct where
  on : Bool
  addr : Nat
  write : Option BramWrite

/-- The number that nets spell, low bit first. -/
def FabEnv.num (x : FabEnv) (ns : List Net) : Nat := ns.foldr (fun n acc => (if x.v n then 1 else 0) + 2 * acc) 0

/-- The action of a port on an edge of the trees given. In the 72-bit shapes A writes and B reads (R70, table). -/
def FabEnv.portAct (x : FabEnv) (pri sec : Bool) (b : Fin 96) (second : Bool) : PortAct :=
  let c := x.cfg.bram b.val
  let p := if second then c.b else c.a
  let on := (if p.secondary then sec else pri) && x.v p.en
  let a := x.num p.addr % (8192 / c.k)
  let data := x.num p.din
  let mayWrite := p.writes && !(c.k == 8 && second)
  { on := on, addr := a
    write := if on && mayWrite && x.v p.we then
        some { bram := b, port := if second then 1 else 0, row := c.k * a, k := c.k
               data := if c.ecc then eccWord (BitVec.ofNat 64 data) else data % 2 ^ (9 * c.k) }
      else none }

/-- The writes of one edge, in the order in which they reach the array: where both ports write the same bits, port A's data is last,
and a write that it covers whole is not logged (R72, R130). -/
def edgeWrites (a b : PortAct) : List BramWrite :=
  match a.write, b.write with
  | some x, some y => if x.row ≤ y.row && y.row + y.k ≤ x.row + x.k then [x] else [y, x]
  | some x, none => [x]
  | none, some y => [y]
  | none, none => []

/-- What a port's read output becomes: its own write by its mode, else the contents before the edge; a port that writes only, or is
not enabled, holds it (R70, R72). -/
def Device.portOut (d : Device) (x : FabEnv) (r : RegionId) (log : List BramWrite) (b : Fin 96) (second : Bool)
    (act : PortAct) : Nat × Bool :=
  let c := x.cfg.bram b.val
  let p := if second then c.b else c.a
  let key := 2 * b.val + if second then 1 else 0
  let hold := (outGet x.g.bramOut key, x.g.bramErr.testBit key)
  let show' (w : Nat) : Nat × Bool := if c.ecc then eccRead w else (w, false)
  if !act.on || (c.k == 8 && !second) then hold
  else
    match act.write, p.mode with
    | some w, .writeFirst => show' w.data
    | some _, .noChange => hold
    | _, _ => show' (d.seenWord r log b.val c.k act.addr)

/-! ### Arithmetic blocks (R74, R75) -/

/-- A signed number of `n` bits. -/
def signedOf (n v : Nat) : Int := (BitVec.ofNat n v).toInt

/-- A lane after a product is added: wrapped or saturated to 16 signed bits (R74). -/
def laneAdd (sat : Bool) (acc : Nat) (p : Int) : Nat :=
  let s := signedOf 16 acc + p
  let t := if sat then max (-32768) (min 32767 s) else s
  (BitVec.ofInt 16 t).toNat

/-- The accumulator after an enabled edge: the product, or C, or the cascade from the block below, is added; in split mode four
products of 12-bit lanes are added to four 16-bit lanes (R74; notes/assumptions/77.md). -/
def accNext (c : ArithCfg) (a b : Nat) (cIn : Dword) (acc : Dword) : Dword :=
  if c.split then
    let p (i j : Nat) : Int := signedOf 12 (a / 2 ^ (12 * i) % 2 ^ 12) * signedOf 12 (b / 2 ^ (12 * j) % 2 ^ 12)
    let lane (n : Nat) (q : Int) : Nat := laneAdd c.saturate (acc.toNat / 2 ^ (16 * n) % 2 ^ 16) q
    BitVec.ofNat 64 (lane 0 (p 0 0) + 2 ^ 16 * lane 1 (p 0 1) + 2 ^ 32 * lane 2 (p 1 0) + 2 ^ 48 * lane 3 (p 1 1))
  else acc + (if c.useC || c.cascade then cIn else BitVec.ofInt 64 (signedOf 24 a * signedOf 24 b))

/-- The registers of one arithmetic block after an edge of the trees given. -/
def FabEnv.arithNext (x : FabEnv) (asserted : Fin 2 → Bool) (pri sec : Bool) (m : Sparse Dword) (a : Nat) : Sparse Dword :=
  let c := x.cfg.arith a
  let old := x.g.slots[x.slot.val].arith
  let reset := match c.rst with
    | some t => asserted t
    | none => false
  if reset then [8 * a, 8 * a + 1, 8 * a + 2, 8 * a + 7].foldl (fun m k => arithPut m k 0) m
  else if (if c.secondary then sec else pri) && x.v c.ce then
    let cIn : Dword := if c.cascade then (if a % 8 = 0 then 0 else arithOut x.cfg old (a - 1)) else BitVec.ofNat 64 (x.num c.c)
    let acc := arithGet old (8 * a + 7)
    let m1 := arithPut m (8 * a + 7) (accNext c (x.num c.a % 2 ^ 24) (x.num c.b % 2 ^ 24) cIn acc)
    arithPut (arithPut (arithPut m1 (8 * a) acc) (8 * a + 1) (arithGet old (8 * a))) (8 * a + 2) (arithGet old (8 * a + 1))
  else m

/-! ### The environment of a region -/

/-- The neighbour across a tile edge, by the edges of RGN_BORDERPOL: 0 north, 1 east, 2 south, 3 west (R157); none at the die
edge. -/
def neighbour (r : RegionId) (edge : Nat) : Option RegionId :=
  let row := r.val / 8
  let col := r.val % 8
  match edge with
  | 0 => if row < 7 then some (Fin.ofNat 64 (r.val + 8)) else none
  | 1 => if col < 7 then some (Fin.ofNat 64 (r.val + 1)) else none
  | 2 => if 0 < row then some (Fin.ofNat 64 (r.val - 8)) else none
  | _ => if 0 < col then some (Fin.ofNat 64 (r.val - 1)) else none

/-- The override of a tile edge, 0 to 7 (RGN_BORDERPOL). -/
def Device.edgePolicy (d : Device) (r : RegionId) (edge : Nat) : Nat :=
  d.fld (rgnPg r) F.RGN_BORDERPOL.edges / 4 ^ edge % 4

/-- What border output `k` presents to its neighbour: the value delivered; in load reset its policy, by line or by edge, and force 0
in a full load; 0 where the region is not powered (R77, R157, R392). Line `k` is line `k` mod 256 of edge `k` / 256, edges 0
to 3 of L0 and 4 to 7 of L1 as in RGN_BORDERPOL (notes/assumptions/78.md). -/
def Device.lineOut (d : Device) (r : RegionId) (k : Nat) : Bool :=
  let g := d.rg r
  let held := g.delivered.testBit k
  if 2 ≤ d.rgnP r.val then false
  else if !g.loadReset then held
  else
    match d.edgePolicy r (k / 256) with
    | 1 => held
    | 2 => false
    | 3 => true
    | _ =>
      if g.fullLoad then false
      else
        match g.linePol / 4 ^ k % 4 with
        | 1 => held
        | 2 => true
        | _ => false

/-- Border input `k` of a region: the line of the neighbour at that edge that faces it; 0 at the die edge (R77). -/
def Device.lineIn (d : Device) (r : RegionId) (k : Nat) : Bool :=
  match neighbour r (k / 256 % 4) with
  | some n => d.lineOut n (1024 * (k / 1024) + 256 * ((k / 256 + 2) % 4) + k % 256)
  | none => false

/-- The signals of the context-select and speculation ports, and FAB_CLKFAIL (04, 05, R373; `Net.ctl`). -/
def Device.ctlSignal (d : Device) (r : RegionId) (k : Nat) : Bool :=
  let g := d.rg r
  match k with
  | 0 => g.ctxPending
  | 1 => g.ctxSwitched
  | 2 => g.ctxMiss
  | 3 => g.spec.isSome
  | 4 => d.bit (rgnPg r) F.RGN_SPECSTAT.stalled
  | 5 => g.specRefused
  | 6 => g.specAborted
  | 7 => d.inn.clkFail.testBit (d.fld (rgnPg r) F.RGN_INFO.pri_tree + 1)
  | _ =>
    if k < 16 then (d.active r).val.testBit (k - 8)
    else (d.fld (rgnPg r) F.RGN_CTXSTAT.active_tag).testBit (k - 16)

/-- The fabric of a region as its active context has it. The signals of its other ports are free. -/
def Device.fab (d : Device) (r : RegionId) : FabEnv where
  cfg := d.cfg r (d.active r)
  depth := d.depth r
  table := d.tableBits r (d.active r)
  slot := d.active r
  g := d.rg r
  border := d.lineIn r
  ctl := d.ctlSignal r
  port k := Config.freeNat d.inn.free (2 ^ 16 * r.val + k) % 2 == 1

/-! ### One clock edge -/

/-- The write log of an open speculation. -/
def Region.log (g : Region) : List BramWrite :=
  match g.spec with
  | some sp => sp.log
  | none => []

/-- The writes of an edge reach the arrays, or the write log of an open speculation (R130). -/
def putWrites (r : RegionId) (ws : List BramWrite) : Op :=
  withD fun d =>
    match (d.rg r).spec with
    | some _ => modR r fun g => { g with spec := g.spec.map fun sp => { sp with log := sp.log ++ ws } }
    | none => forAll ws (retire r)

/-- What the block RAM ports do on an edge: the writes, and the region with the read, error and collision outputs that follow (R71 to
R73). -/
def Device.bramEdge (d : Device) (x : FabEnv) (r : RegionId) (pri sec : Bool) : List BramWrite × (Region → Region) :=
  let acts := (List.finRange 96).map fun b => (b, x.portAct pri sec b false, x.portAct pri sec b true)
  let log := x.g.log
  let outs := acts.flatMap fun t =>
    [(2 * t.1.val, d.portOut x r log t.1 false t.2.1), (2 * t.1.val + 1, d.portOut x r log t.1 true t.2.2)]
  let coll := natOfBits 192 fun k =>
    k % 2 == 1 && acts.any fun t => 2 * t.1.val + 1 == k &&
      (match t.2.1.write, t.2.2.write with
        | some v, some w => v.meets w
        | _, _ => false)
  (acts.flatMap fun t => edgeWrites t.2.1 t.2.2, fun g => { g with
    bramOut := outs.foldl (fun m o => sparsePut (fun _ => 0) m o.1 o.2.1) []
    bramErr := natOfBits 192 fun k => outs.any fun o => o.1 == k && o.2.2
    bramColl := coll })

/-- An edge of the region's primary or secondary tree with the regional enable high: flip-flops, block RAM ports and arithmetic
registers on that tree take their next values, all from what stood before it, `d` (R64, R66, R68, R71 to R75, R87). -/
def clockFabric (d : Device) (r : RegionId) (pri sec : Bool) : Op :=
  let x := d.fab r
  let init := initBits (d.ctxCells r x.slot)
  let e := d.bramEdge x r pri sec
  let asserted (t : Fin 2) : Bool := if t = 0 then d.inn.rstTree.1 else d.inn.rstTree.2
  let arith := (List.range 48).foldl (x.arithNext asserted pri sec) x.g.slots[x.slot.val].arith
  ops [putWrites r e.1,
    modR r fun g => { e.2 g with
      ff := x.ffs (d.rstAttached x.cfg) init pri sec
      slots := g.slots.set x.slot.val { g.slots[x.slot.val] with arith := arith } }]

/-! ### Border lines and pins (R77, R126 to R128, R341, R344) -/

/-- The values on the border outputs that the active context drives; one that it neither drives nor uses is 0 (R77). -/
def FabEnv.lines (x : FabEnv) : Nat :=
  natOfBits 2048 fun k =>
    match x.cfg.border k with
    | some b => x.v b.src
    | none => false

/-- The output enables, and the values at single and double data rate, that the active context drives on the pins. -/
def FabEnv.pinOe (x : FabEnv) : Nat := natOfBits 48 fun k => x.v (x.cfg.pin k).oe
def FabEnv.pinOut (x : FabEnv) : Nat :=
  natOfBits 96 fun k => if k % 2 = 0 then x.v (x.cfg.pin (k / 2)).out else (x.cfg.pin (k / 2)).ddr && x.v (x.cfg.pin (k / 2)).out2

/-- Bits of `a` where the mask has 1, of `b` elsewhere. -/
def mergeBits (mask a b : Nat) : Nat := a &&& mask ||| (b - (b &&& mask))

/-- The outputs and enables that the pins of the region's bank show last: the frozen ones while a speculation freezes them (R127). -/
def Region.pinLast (g : Region) : Nat × Nat := if g.frozen then g.pinHeld else (g.pinOut, g.pinOe)

/-- The registers of the pins on an edge of the trees given (R344): the input registers capture the levels, which are free values, the output
registers what the context drives. They run whatever the regional enable (R87 does not hold them). -/
def pinEdge (d : Device) (r : RegionId) (pri sec : Bool) : Op :=
  withFree fun f =>
    let x := d.fab r
    let on := natOfBits 48 fun k => if (x.cfg.pin k).secondary then sec else pri
    let on2 := natOfBits 96 fun k => on.testBit (k / 2)
    let level := natOfBits 96 fun k => Config.freeNat f (2 ^ 24 + 96 * r.val + k) % 2 == 1
    modR r fun g => { g with
      pinIn := mergeBits on2 level g.pinIn, pinOut := mergeBits on2 x.pinOut g.pinOut, pinOe := mergeBits on x.pinOe g.pinOe }

/-- The lines and pins that were frozen take their live values (R127, R135, R136): a registered line its cell's register, the pins
their registers. -/
def Region.thaw (g : Region) (c : FabCfg) (live : Nat) : Region :=
  let now := mergeBits c.registeredMask g.bcell (live &&& c.drivenMask)
  { g with frozen := false, delivered := mergeBits c.bufferedMask g.delivered now }

def thawRegion (r : RegionId) : Op :=
  withD fun d => modR r fun g => g.thaw (d.fab r).cfg (d.fab r).lines

end Sys2Proof.Machine
end

