-- ==== Sys2Proof/Machine/Contexts.lean ====
section
/-!
DEFINITION. Contexts, switching, the hamper and context faults (04_contexts.md), with the fabric state that a switch
moves (03, R64, R71, R75, R80 to R90).
-/

namespace Sys2Proof.Machine

/-! ### Slots -/

/-- Set a slot's state; an EMPTY or NONE slot has tag 0 (R120, RGN_SLOTTAG). -/
def setSlot (r : RegionId) (s : SlotId) (st : Nat) : Op :=
  ops [setF (rgnPg r) (fSlot s) st, whenB (st == slEmpty || st == slNone) (setF (rgnPg r) (fTag s) 0)]

/-! ### Causes of the region page -/

def ctxCause (r : RegionId) (i : Nat) : Op := causeAt (rgnPg r) R.RGN_CTXEV i 16 0
def specCause (r : RegionId) (i : Nat) : Op := causeAt (rgnPg r) R.RGN_SPECEV i 16 1

/-- A cause of RGN_FAULT. While the fault source is routed to the non-maskable class, an enabled uncorr_active raises a
non-maskable event whatever the mask (R54). -/
def faultCause (r : RegionId) (i : Nat) : Op :=
  withD fun d =>
    if i = 2 ∧ (d.route (3 * r.val + 2)).dest = 3 then
      whenB (!(d.inReset (rgnPg r)))
        (ops [setBit (rgnPg r) R.RGN_FAULT 2,
          whenB (d.regBit (rgnPg r) R.RGN_FAULT 18 && !(d.gated (rgnPg r)))
            (ops [setBit (rgnPg r) wRaw 2, setBit (rgnPg r) wPend 2, deliverNmi (3 * r.val + 2)])])
    else causeAt (rgnPg r) R.RGN_FAULT i 16 2

/-! ### Flip-flops and arithmetic registers on a switch (R64, R75, R88) -/

/-- Save the live flip-flops that context `a` declares private into its private-state bits, then load those that
context `b` declares private from its own (R64). -/
def Region.swapFf (g : Region) (a b : SlotId) (privA privB : Nat → Bool) : Region :=
  let keysA := (g.ff ++ g.slots[a.val].priv).map (·.1)
  let savedA := keysA.foldl (fun m k => if privA k then bitPut m k (bitGet g.ff k) else m) g.slots[a.val].priv
  let g1 := { g with slots := g.slots.set a.val { g.slots[a.val] with priv := savedA } }
  let keysB := (g1.ff ++ g1.slots[b.val].priv).map (·.1)
  { g1 with ff := keysB.foldl (fun m k => if privB k then bitPut m k (bitGet g1.slots[b.val].priv k) else m) g1.ff }

/-- A shared accumulator of the incoming context keeps the outgoing one's value (R75); accumulator of block `a` is
register 8 × a + 7. -/
def Region.swapAcc (g : Region) (a b : SlotId) (shared : Nat → Bool) : Region :=
  let keys := (g.slots[a.val].arith ++ g.slots[b.val].arith).map (·.1)
  let m := keys.foldl
    (fun m k => if k % 8 = 7 ∧ shared (k / 8) then arithPut m k (arithGet g.slots[a.val].arith k) else m)
    g.slots[b.val].arith
  { g with slots := g.slots.set b.val { g.slots[b.val] with arith := m } }

/-- The live flip-flops attached to an asserted reset tree take their initial values (R89). -/
def Region.resetFf (g : Region) (init : Sparse Bool) (attached : Nat → Bool) : Region :=
  { g with ff := ((g.ff ++ init).map (·.1)).foldl (fun m k => if attached k then bitPut m k (bitGet init k) else m) g.ff }

/-- The private-state bits of a slot attached to an asserted reset tree take their initial values (R89). -/
def Region.resetPriv (g : Region) (s : SlotId) (init : Sparse Bool) (attached : Nat → Bool) : Region :=
  let m := ((g.slots[s.val].priv ++ init).map (·.1)).foldl
    (fun m k => if attached k then bitPut m k (bitGet init k) else m) g.slots[s.val].priv
  { g with slots := g.slots.set s.val { g.slots[s.val] with priv := m } }

/-- What a switch from slot `a` to slot `b` does to the fabric (R64, R75), under reset trees that are asserted (R89). -/
def swapFabric (r : RegionId) (a b : SlotId) : Op :=
  withD fun d =>
    let dep := d.depth r
    let ca := d.cfg r a
    let cb := d.cfg r b
    modR r fun g =>
      ((g.swapFf a b (ca.keepsOwn dep) (cb.keepsOwn dep)).swapAcc a b cb.accShared).resetFf
        (initBits (d.ctxCells r b)) (d.rstAttached cb)

/-! ### The held place (R99) -/

/-- The order of classes, 0 the highest (R99). -/
def SwClass.rank : SwClass → Nat
  | .stop => 0 | .safe => 1 | .abort => 2 | .sched => 3 | .reg => 4 | .port => 5

/-- The source code of a class in RGN_CTXSTAT.last_src and RGN_SWMISS.src. -/
def SwClass.src : SwClass → Nat
  | .port => 1 | .reg => 2 | .sched => 3 | .safe => 4 | .stop => 5 | .abort => 6

/-- Record an event in RGN_SWMISS (R97, R99, R100), raise sw_miss, and pulse CTX_MISS where it shows. -/
def recordMiss (r : RegionId) (c : Nat) (src : Nat) (s : SlotId) (time : Option Nat) (pulse : Bool) : Op :=
  ops [setF (rgnPg r) F.RGN_SWMISS.cause c, setF (rgnPg r) F.RGN_SWMISS.src src,
    setF (rgnPg r) F.RGN_SWMISS.slot s.val, incF (rgnPg r) F.RGN_SWMISS.count,
    match time with
    | some t => setN64 (rgnPg r) R.RGN_MISSTIME_LO t
    | none => skip,
    whenB pulse (modR r fun g => { g with ctxMiss := true }), ctxCause r 1]

/-- A port request is lost: cause 4, port_lost (R99). -/
def portLost (r : RegionId) (s : SlotId) : Op := ops [recordMiss r 4 1 s none true, ctxCause r 5]

/-- A refused opening of a speculation (R124). -/
def refuseOpen (r : RegionId) (c : Nat) : Op :=
  ops [setF (rgnPg r) F.RGN_SPECSTAT.refuse_cause c, modR r fun g => { g with specRefused := true }, specCause r 4]

/-- A request is replaced in the held place by one of a higher class: it is handled as if it had just arrived, with
the place held (R99, R124). A register request is pending again with its own slot, unless a later one is pending already. -/
def displace (r : RegionId) (q : SwReq) : Op :=
  match q.opening, q.cls with
  | some _, _ => refuseOpen r 4
  | none, .port => portLost r q.slot
  | none, .reg => ops [setF (rgnPg r) F.RGN_CTXSEL.pend 1, modR r fun g => { g with regReq := g.regReq <|> some q.slot }]
  | none, .sched =>
    ops [setF (rgnPg r) F.RGN_SCHED_CTL.arm 1,
      modR r fun g => { g with armed := some (q.slot, q.target.getD 0) }]
  | none, _ => skip

/-! ### The edges of a request (R94, R101, R105, R106) -/

/-- The primary period of a region in units of 1/48 ns: 10 × n on KROOT; on OSC_F 200 MHz / ⌈n / 24⌉ (R85, R101, R364). -/
def Device.treePeriod48 (d : Device) (t : Nat) : Nat :=
  let n := d.fld 14 (F.CLK_GRP1.div.at t)
  if d.bit 14 (F.CLK_GRP1.on_oscf.at t) then 240 * ((n + 23) / 24) else 10 * n
def Device.period48 (d : Device) (r : RegionId) : Nat := d.treePeriod48 (d.fld (rgnPg r) F.RGN_INFO.pri_tree)

/-- The period of the CFG_CLK in force, in units of 1/48 ns: 400 MHz on KROOT, 100 MHz on OSC_F (R364). -/
def Device.cfgPeriod48 (d : Device) : Nat := if d.bit 14 (F.CLK_GRP0.on_oscf.at 0) then 480 else 120

/-- The stagger step: the smallest number of primary periods that spans a period of CFG_CLK (R106). -/
def Device.staggerStep (d : Device) (r : RegionId) : Nat :=
  if d.period48 r = 0 then 1 else (d.cfgPeriod48 + d.period48 r - 1) / d.period48 r

/-- The stagger phase applies to this switch: the stagger bit is set or it is a stop switch (R106). A run-ahead opening is no
switch (R123). -/
def Device.staggers (d : Device) (r : RegionId) (q : SwReq) : Bool :=
  (d.bit 0 F.DEV_SWCTL.stagger || q.cls == .stop) && r.val / 16 != 0 && !(q.opening.isSome && q.slot == d.active r)

/-- The edge 0 of a request captured now, in 1/48 ns of the region's copy of DEVTIME: two edges later, and phase × step edges
more where it is staggered (R94, R101, R106). -/
def Device.edge0 (d : Device) (r : RegionId) (q : SwReq) : Nat :=
  48 * (d.rg r).devtime + (2 + if d.staggers r q then r.val / 16 * d.staggerStep r else 0) * d.period48 r

/-- A request as it stands in the held place once captured now. -/
def Device.captured (d : Device) (r : RegionId) (q : SwReq) : SwReq :=
  { q with at48 := d.edge0 r q, staggered := d.staggers r q }

/-- A request takes the held place, replacing what it holds (R99). -/
def capture (r : RegionId) (q : SwReq) : Op :=
  withD fun d =>
    ops [match (d.rg r).held with
      | some old => displace r old
      | none => skip,
      modR r fun g => { g with held := some (d.captured r q), ctxPending := true }]

/-- The held place is free for a request of this class (R99). -/
def Region.placeFree (g : Region) (c : SwClass) : Bool :=
  match g.held with
  | none => true
  | some q => c.rank < q.cls.rank

/-! ### Holds and the regional enable (R87) -/

/-- The stop hold of R27. -/
def stopHold (r : RegionId) : Op := setF (rgnPg r) F.RGN_HOLD.stop_hold 1

/-! ### Speculation: resolution (05, R135 to R138) -/

/-- The streaming FIFOs as a commit leaves them (R132). -/
def Fifo.commit (f : Fifo) : Fifo := { f with popped := [], unc := 0 }

/-- The down FIFO as an abort leaves it: what the fabric popped is back (R126, R132). -/
def Fifo.abortDown (f : Fifo) : Fifo :=
  { q := f.popped.reverse ++ f.q, popped := [], unc := 0, rd := (f.rd + 16 - f.popped.length % 16) % 16 }

/-- The up FIFO as an abort leaves it: what the fabric pushed is gone. -/
def Fifo.abortUp (f : Fifo) : Fifo := { f with q := f.q.take (f.q.length - f.unc), popped := [], unc := 0 }

/-- Clear the stall conditions of RGN_SPECSTAT. -/
def clearStall (r : RegionId) : Op :=
  ops [setF (rgnPg r) F.RGN_SPECSTAT.stalled 0, setF (rgnPg r) F.RGN_SPECSTAT.win_full 0,
    setF (rgnPg r) F.RGN_SPECSTAT.log_full 0, setF (rgnPg r) F.RGN_SPECSTAT.held_full 0,
    setF (rgnPg r) F.RGN_SPECSTAT.buf_full 0]

/-- RGN_SPECLAST at a resolution. -/
def specLast (r : RegionId) (outcome c : Nat) (corr : Nat) (sp : Spec) : Op :=
  withD fun d =>
    ops [setF (rgnPg r) F.RGN_SPECLAST.outcome outcome, setF (rgnPg r) F.RGN_SPECLAST.cause c,
      setF (rgnPg r) F.RGN_SPECLAST.corr_slot corr, setF (rgnPg r) F.RGN_SPECLAST.stall (min sp.stallCycles 255),
      setF (rgnPg r) F.RGN_SPECLAST.window (d.fld (rgnPg r) F.RGN_SPECWIN.cycles)]

/-- Drop the uncommitted entries of the border commit buffer (R127). -/
def Region.dropBorder (g : Region) : Region := { g with border := g.border.filter (·.committed) }

/-- Edge 0 of an abort: log, uncommitted entries and held requests are discarded, pending requests are superseded (R100),
and a switch to the corrected slot takes the held place (R136). -/
def abortSpec (r : RegionId) (cls : SwClass) (corr : SlotId) (c : Nat) : Op :=
  withD fun d =>
    let g := d.rg r
    match g.spec with
    | none => skip
    | some sp =>
      ops [modR r fun g => { g.dropBorder with
          spec := none, aborting := some sp, portWait := [], regReq := none, schedDue := false, specReg := none
          down := g.down.map Fifo.abortDown, up := g.up.map Fifo.abortUp },
        clearStall r,
        forAll g.portWait fun s => recordMiss r 3 1 s (some g.devtime) true,
        match g.regReq with
        | some s => ops [setF (rgnPg r) F.RGN_CTXSEL.pend 0, recordMiss r 3 2 s (some g.devtime) false]
        | none => skip,
        match g.schedDue, g.armed with
        | true, some (s, t) =>
          ops [setF (rgnPg r) F.RGN_SCHED_CTL.arm 0, modR r fun g => { g with armed := none },
            recordMiss r 3 3 s (some t) false]
        | _, _ => skip,
        capture r { cls := cls, slot := corr, abort := some c }]

/-- A speculation is discarded with no resolution (R138): its effects reach nothing; the pins keep what they showed. -/
def discardSpec (r : RegionId) : Op :=
  withD fun d =>
    match (d.rg r).spec with
    | none => skip
    | some sp =>
      ops [specLast r 3 0 0 sp, clearStall r,
        modR r fun g => { g.dropBorder with spec := none, aborting := none, frozen := false
                                            pinOut := g.pinLast.1, pinOe := g.pinLast.2
                                            down := g.down.map Fifo.abortDown, up := g.up.map Fifo.abortUp }]

/-- Restore the checkpoint (R136, edge +1): flip-flops, arithmetic registers of the predicted slot, pin registers and border-cell
registers. Flip-flops attached to an asserted reset tree keep their initial values (R89). -/
def restoreCkpt (r : RegionId) : Op :=
  withD fun d =>
    modR r fun g =>
      match g.aborting with
      | none => g
      | some sp =>
        { g with ff := sp.ckpt.ff, pinOut := sp.ckpt.pinOut, pinOe := sp.ckpt.pinOe, bcell := sp.ckpt.bcell
                 slots := g.slots.set sp.pred.val { g.slots[sp.pred.val] with arith := sp.ckpt.arith } }.resetFf
          (initBits (d.ctxCells r sp.pred)) (d.rstAttached (d.cfg r sp.pred))

/-- The end of an abort, whether the corrected switch took place (R136 edge +2 and +3) or missed (R137). -/
def finishAbort (r : RegionId) (c : Nat) (corr : SlotId) : Op :=
  withD fun d =>
    match (d.rg r).aborting with
    | none => skip
    | some sp =>
      ops [modR r fun g => { g with aborting := none, specAborted := true }, thawRegion r,
        incReg (rgnPg r) R.RGN_SPECABORTS, specLast r 2 c corr.val sp, specCause r 2]

/-! ### The fault policy (R117, R118) -/

/-- The pause policy: the fault hold. -/
def pauseRegion (r : RegionId) : Op := setF (rgnPg r) F.RGN_HOLD.fault_hold 1

/-- The fallback of the safe policy to pause (R118). -/
def policyFallback (r : RegionId) : Op := both (pauseRegion r) (faultCause r 4)

/-- An uncorrectable error in the active context reaches the region (R117, R118). -/
def actOnActiveError (r : RegionId) : Op :=
  withD fun d =>
    let p := rgnPg r
    let safe : SlotId := Fin.ofNat 8 (d.fld p F.RGN_CTXCFG.safe_slot)
    match d.fld p F.RGN_CTXCFG.fault_policy with
    | 0 => skip
    | 2 =>
      if d.bit p F.RGN_CTXCFG.safe_en ∧ safe ≠ d.active r then
        if (d.rg r).spec.isSome then abortSpec r .safe safe 3
        else if (d.rg r).placeFree .safe then
          capture r { cls := .safe, slot := safe, abort := (d.rg r).aborting.map fun _ => 3 }
        else skip
      else policyFallback r
    | _ => pauseRegion r

/-- RGN_FAULTLOC of an error found in a codeword (R116, R117). -/
def faultLoc (r : RegionId) (s : SlotId) (pair : Bool) (codeword element : Nat) : Op :=
  ops [setF (rgnPg r) F.RGN_FAULTLOC.slot s.val, setB (rgnPg r) F.RGN_FAULTLOC.pair pair,
    setF (rgnPg r) F.RGN_FAULTLOC.codeword codeword, setF (rgnPg r) F.RGN_FAULTLOC.element element]

/-- The slots with bits in a pool codeword at a depth: a pair at depth 8, one at depths 4 and 2 (R59 to R61). -/
def codewordSlots (depth codeword : Nat) : List SlotId :=
  if depth = 8 then [Fin.ofNat 8 (2 * codeword), Fin.ofNat 8 (2 * codeword + 1)]
  else if depth = 4 then [Fin.ofNat 8 codeword]
  else if depth = 2 then [Fin.ofNat 8 (codeword / 2)]
  else []

/-- A fetch ends without a context: its slot is EMPTY, with the result given, and fetch_fail (R110, R113, R114). -/
def endFetch (r : RegionId) (result : Nat) : Op :=
  withD fun d =>
    match (d.rg r).fetch with
    | none => skip
    | some f =>
      ops [setSlot r f.slot slEmpty, modR r fun g => { g with fetch := none },
        setF (rgnPg r) F.RGN_FETCHSTAT.busy 0, setF (rgnPg r) F.RGN_FETCHSTAT.result result, ctxCause r 3,
        endCmds (.fetch r.val) 0 result]

/-- An uncorrectable codeword of slot `s`, which is not the slot of a fetch that has still to write it (R112, R116,
R117). A RESIDENT slot becomes UNUSABLE; the active slot keeps running under the fault policy; a FETCHING slot's fetch
fails. -/
def uncorrSlot (r : RegionId) (s : SlotId) : Op :=
  withD fun d =>
    let st := d.slot r s
    if st = slResident then setSlot r s slUnusable
    else if st = slFetching then endFetch r 6
    else if st = slActive then
      ops [modR r fun g => { g with activeBad := true }, faultCause r 2, actOnActiveError r]
    else skip

/-- What an uncorrectable error in a codeword does (R60, R112, R116, R117): every slot with bits in it, RGN_FAULTLOC
naming the active slot where it is one of them, else the lower (notes/assumptions/79.md), and uncorr_inactive where a slot that is not
active is affected. -/
def uncorrCodeword (r : RegionId) (element codeword : Nat) (fetchWrote : Bool) : Op :=
  withD fun d =>
    let ss := (codewordSlots (d.depth r) codeword).filter fun s => d.slot r s != slFetching || fetchWrote
    let act := ss.filter fun s => d.slot r s == slActive
    let named := match act, ss with
      | a :: _, _ => some a
      | [], s :: _ => some s
      | [], [] => none
    match named with
    | none => skip
    | some s =>
      ops [faultLoc r s (d.depth r == 8 && ss.length == 2) codeword element,
        forAll ss (uncorrSlot r), whenB (act.length < ss.length) (faultCause r 1)]

/-! ### Riser contention (R82 to R84) -/

/-- The shared risers whose two enables are on in a slot, by a corrupted bit. -/
def Region.contendIn (g : Region) (s : SlotId) : List Nat := (g.contend.filter fun x => x.1 == s).map (·.2)

/-- Both enables of a shared riser are on in the active context: the detector cuts it, unless it is cut already (R82). -/
def cutRiser (r : RegionId) (riser : Nat) : Op :=
  whenD (fun d => !((d.rg r).cuts.contains riser))
    (ops [modR r fun g => { g with cuts := riser :: g.cuts }, setF (rgnPg r) F.RGN_RISERCUT.cut_active 1,
      incSat (rgnPg r) F.RGN_RISERCUT.count, setF (rgnPg r) F.RGN_RISERCUT.riser riser, faultCause r 3])

/-! ### Taking effect (R94) -/

/-- The switch from the active slot to slot `b` takes effect: fabric, slot states, RGN_CTXSTAT, RGN_SWCNT, RGN_SWLAST,
sw_done (R94 edges 0 and +1; R117 for a slot in error that the region leaves). -/
def switchTo (r : RegionId) (b : SlotId) (src : Nat) (deferred staggered : Bool) : Op :=
  withD fun d =>
    let a := d.active r
    let p := rgnPg r
    ops [swapFabric r a b,
      whenB (a != b) (ops [setSlot r a (if (d.rg r).activeBad then slUnusable else slResident), setSlot r b slActive,
        modR r fun g => { g with activeBad := false }]),
      setF p F.RGN_CTXSTAT.prev_slot a.val, setF p F.RGN_CTXSTAT.active_slot b.val,
      withD fun d1 => setF p F.RGN_CTXSTAT.active_tag (d1.fld p (fTag b)),
      setF p F.RGN_CTXSTAT.last_src src, setB p F.RGN_CTXSTAT.deferred deferred,
      setB p F.RGN_CTXSTAT.staggered staggered, incReg p R.RGN_SWCNT, setN64 p R.RGN_SWLAST_LO (d.rg r).devtime,
      modR r fun g => { g with ctxSwitched := true, ctxPending := g.held.isSome }, ctxCause r 0,
      switchMatch r b, forAll ((d.rg r).contendIn b) (cutRiser r)]

/-! ### Meanings: the fabric -/

/-- RISER_CONTENTION (R82, R84). An upset leaves both enables of shared riser `riser` (index of R79, k 32 to 39) on in the active
context of a running region: the detector cuts the riser, RGN_RISERCUT and the fault source say so. -/
def execRiserContention (r : RegionId) (riser : Nat) (s : State) : Result :=
  go s <| withD fun d =>
    if 32 ≤ riser % 40 ∧ riser < 46080 ∧ d.running r then
      both (modR r fun g => { g with contend := (d.active r, riser) :: g.contend.filter (· != (d.active r, riser)) }) (cutRiser r riser)
    else skip

/-- Writing 1 to RGN_FAULT.riser_cut: every cut is released, and a riser that both ends still drive in the active context is cut again
(R83). -/
def releaseCuts (r : RegionId) : Op :=
  withD fun d =>
    ops [clearBits (rgnPg r) R.RGN_FAULT 8, modR r fun g => { g with cuts := [] },
      setF (rgnPg r) F.RGN_RISERCUT.cut_active 0, setF (rgnPg r) F.RGN_RISERCUT.count 0,
      whenB (d.running r) (forAll ((d.rg r).contendIn (d.active r)) (cutRiser r))]

/-- RISER_CUT_RELEASE (R83). A write of 1 to RGN_FAULT.riser_cut. -/
def execRiserCutRelease (r : RegionId) (s : State) : Result := go s (pageWrite (rgnPg r) (releaseCuts r))

/-- A region whose active context holds its flip-flops: loaded, released, in P0 or P1, not under test. Reset trees act on it without a
clock (R88). -/
def Device.fabricOn (d : Device) (r : RegionId) : Bool :=
  d.rgnP r.val ≤ 1 && !(d.rg r).loadReset && !(d.rg r).test && d.bit (rgnPg r) F.RGN_INFO.loaded

/-- The arithmetic block's registers select a tree that is asserted now (R88). -/
def Device.arithReset (d : Device) (c : FabCfg) (a : Nat) : Bool :=
  match (c.arith a).rst with
  | some t => if t = 0 then d.inn.rstTree.1 else d.inn.rstTree.2
  | none => false

/-- The arithmetic registers of a slot that are reset take 0. -/
def Region.resetArith (g : Region) (s : SlotId) (on : Nat → Bool) : Region :=
  let m := (g.slots[s.val].arith.map (·.1)).foldl (fun m k => if on (k / 8) then arithPut m k 0 else m) g.slots[s.val].arith
  { g with slots := g.slots.set s.val { g.slots[s.val] with arith := m } }

/-- The effect of asserted reset trees on one region (R88, R89). -/
def resetRegionFf (r : RegionId) : Op :=
  withD fun d =>
    if d.fabricOn r then
      let act := d.active r
      let rest := (List.finRange 8).filter fun s => d.slot r s == slResident
      ops [modR r fun g => (g.resetFf (initBits (d.ctxCells r act)) (d.rstAttached (d.cfg r act))).resetArith act (d.arithReset (d.cfg r act)),
        forAll rest fun s =>
          modR r fun g => g.resetPriv s (initBits (d.ctxCells r s)) (d.rstAttached (d.cfg r s))]
    else skip

/-- A reset tree is asserted; it is released (R88, R89). Tree 0 is FAB_RST0, tree 1 FAB_RST1. -/
def assertTree (tree : Fin 2) : Op :=
  both (modI fun n => { n with rstTree := if tree = 0 then (true, n.rstTree.2) else (n.rstTree.1, true) })
    (forAll (List.finRange 64) resetRegionFf)
def releaseTree (tree : Fin 2) : Op :=
  modI fun n => { n with rstTree := if tree = 0 then (false, n.rstTree.2) else (n.rstTree.1, false) }

/-- RESET_TREE_ASSERT (R88, R89). -/
def execResetTreeAssert (tree : Fin 2) (s : State) : Result := go s (assertTree tree)

/-- RESET_TREE_RELEASE (R88). The attached flip-flops run again; they keep the values they hold. -/
def execResetTreeRelease (tree : Fin 2) (s : State) : Result := go s (releaseTree tree)

/-! ### Meanings: requests -/

/-- CTX_REQ (R95, R99, R100). The personality requests a switch: captured where the held place is free, held while a
speculation is open, else lost. port_en 0 ignores it. -/
def execCtxReq (r : RegionId) (slot : SlotId) (s : State) : Result :=
  go s <| withD fun d =>
    let g := d.rg r
    if d.running r ∧ d.bit (rgnPg r) F.RGN_CTXCFG.port_en then
      if g.spec.isSome then modR r fun g => { g with portWait := g.portWait ++ [slot] }
      else if g.held.isNone then capture r { cls := .port, slot := slot }
      else portLost r slot
    else skip

/-- The write of RGN_CTXSEL (R95): next_slot, and pend where req is 1. A second request while one is pending replaces its slot. -/
def ctxselWrite (r : RegionId) (slot : SlotId) (req : Bool) : Op :=
  pageWrite (rgnPg r) (ops [setF (rgnPg r) F.RGN_CTXSEL.next_slot slot.val,
    whenB req (both (setF (rgnPg r) F.RGN_CTXSEL.pend 1) (modR r fun g => { g with regReq := some slot }))])

/-- CTXSEL_WRITE (R95). A write of RGN_CTXSEL with req at 1. -/
def execCtxselWrite (r : RegionId) (slot : SlotId) (s : State) : Result := go s (ctxselWrite r slot true)

/-- The pending register request is captured. -/
def captureReg (r : RegionId) (slot : SlotId) : Op :=
  ops [setF (rgnPg r) F.RGN_CTXSEL.pend 0, modR r fun g => { g with regReq := none }, capture r { cls := .reg, slot := slot }]

/-- A register opening that waits for the held place is captured (R124). -/
def captureOpening (r : RegionId) (src : Nat) : Op :=
  withD fun d =>
    both (modR r fun g => { g with specReg := none })
      (capture r { cls := .reg, slot := Fin.ofNat 8 (d.fld (rgnPg r) F.RGN_SPECCTL.pred_slot), opening := some src })

/-- SWITCH_CAPTURE (R94, R95, R99, R124). What waits is captured at edge -2: the pending register request or register opening,
where the held place is free or holds a port request; a deferred request again. Nothing is captured while a speculation is
open or its abort in progress. -/
def execSwitchCapture (r : RegionId) (s : State) : Result :=
  go s <| withD fun d =>
    let g := d.rg r
    if !(d.running r) || g.spec.isSome || g.aborting.isSome then skip
    else
      match g.placeFree .reg, g.regReq, g.specReg with
      | true, some slot, _ => captureReg r slot
      | true, none, some (.opn src, 0) => captureOpening r src
      | _, _, _ =>
        match g.held with
        | some q => whenB q.deferred (modR r fun g => { g with held := some { q with lateFetch := false } })
        | none => skip

/-! ### Meanings: edge -1 and edge 0 -/

/-- The cause for which a slot misses on edge -1, if it does (R96, R97). -/
def Device.missCause (d : Device) (r : RegionId) (q : SwReq) : Option Nat :=
  let st := d.slot r q.slot
  if q.lateFetch then some 1
  else if st = slActive then (if (d.rg r).activeBad then some 2 else none)
  else if st = slResident then none
  else if st = slUnusable then some 2
  else some 1

/-- A request misses on edge -1 (R97), with what a missed stop, safe or corrected switch does besides (R118, R119,
R137). -/
def missReq (r : RegionId) (q : SwReq) (c : Nat) : Op :=
    ops [modR r fun g => { g with held := none, ctxPending := false },
      recordMiss r c q.cls.src q.slot (some (q.target.getD (q.at48 / 48))) true,
      match q.abort with
      | some ac => ops [specCause r 6, finishAbort r ac q.slot]
      | none => skip,
      match q.cls with
      | .stop => stopHold r
      | .safe => policyFallback r
      | _ => skip]

/-- The CFG_CLK cycle in which the edge 0 of a request falls, counted from DEVTIME 0 (R105). -/
def Device.cycleOf (d : Device) (q : SwReq) : Nat := q.at48 / d.cfgPeriod48

/-- The request is granted and committed; it takes effect at edge 0 (R99, R105). Grants of cycles long past are forgotten. -/
def commitReq (r : RegionId) (q : SwReq) : Op :=
  withD fun d =>
    both (modI fun n => { n with grants := d.cycleOf q :: n.grants.filter fun c => d.cycleOf q < c + 64 })
      (modR r fun g => { g with held := none, committed := some q })

/-- The governor's order of two requests: a deferred one before a new one, then by class, then the lower region first (R105). -/
def SwReq.precedes (q : SwReq) (o : RegionId) (q' : SwReq) (r : RegionId) : Bool :=
  if q.deferred = q'.deferred then q.cls.rank < q'.cls.rank || q.cls.rank == q'.cls.rank && o.val < r.val else q.deferred

/-- The requests of other regions whose edge 0 falls in the same CFG_CLK cycle and that the governor grants before `q` of region
`r`: the requests that compete are those that the regions hold (R99, R105). -/
def Device.rivals (d : Device) (r : RegionId) (q : SwReq) : Nat :=
  ((List.finRange 64).filter fun o => o != r &&
    (match (d.rg o).held with
      | some x => d.cycleOf x == d.cycleOf q && x.precedes o q r
      | none => false)).length

/-- The governor grants at most 16 switches whose edge 0 falls in one CFG_CLK cycle (R105). -/
def Device.governorGrants (d : Device) (r : RegionId) (q : SwReq) : Bool :=
  (d.inn.grants.filter (· == d.cycleOf q)).length + d.rivals r q < 16

/-- A deferred request: its edge 0 falls on the first of the region's edges in the next CFG_CLK cycle (R105). -/
def Device.deferral (d : Device) (r : RegionId) (q : SwReq) : SwReq :=
  let per := d.period48 r
  let next := (d.cycleOf q + 1) * d.cfgPeriod48
  { q with deferred := true, at48 := if per = 0 then next else q.at48 + (next - q.at48 + per - 1) / per * per }

/-- The governor grants the request, or defers it (R105). -/
def grantOrDefer (r : RegionId) (q : SwReq) : Op :=
  withD fun d =>
    if d.governorGrants r q then commitReq r q
    else modR r fun g => { g with held := some (d.deferral r q) }

/-- What the check of a pool codeword finds: a single wrong bit, or two adjacent ones, is corrected (true); any other two are
uncorrectable (false); of more the spec says nothing (R58). -/
def poolJudge (bits : List (Fin 288)) : Option Bool :=
  match bits with
  | [] => none
  | [_] => some true
  | [i, j] => if i = j then none else some (i.val + 1 == j.val || j.val + 1 == i.val)
  | _ => Config.poolMany bits

/-- An error of the incoming context's codewords on edge -1 (R94, R115, R116). The slot of a fetch is left to the fetch, which writes
its half anew. -/
def checkCodewords (r : RegionId) (err : Option PoolError) : Op :=
  match err with
  | none => skip
  | some e =>
    match poolJudge e.bits with
    | none => skip
    | some true => ops [incReg (rgnPg r) R.RGN_CORRCNT, faultCause r 0]
    | some false => uncorrCodeword r e.element.val e.codeword.val false

/-- An opening is refused on edge -1: the held place is free, and the refusal is recorded (R124). -/
def refuseHeld (r : RegionId) (c : Nat) : Op :=
  both (modR r fun g => { g with held := none, ctxPending := false }) (refuseOpen r c)

/-- Edge -1 of a held request whose codewords are clean or corrected (R97, R105, R124). A run-ahead opening needs no grant. -/
def checkReq (r : RegionId) (q : SwReq) : Op :=
  withD fun d =>
    let st := d.slot r q.slot
    match q.opening, d.missCause r q with
    | some _, c =>
      if (d.rg r).spec.isSome then refuseHeld r 1
      else if st ≠ slActive ∧ c.isSome then refuseHeld r 2
      else if !((d.rg r).slots[q.slot.val].speculable) then refuseHeld r 3
      else if st = slActive then modR r fun g => { g with held := none, committed := some q }
      else grantOrDefer r q
    | none, some c => missReq r q c
    | none, none => grantOrDefer r q

/-- The codewords of the request's slot are checked on edge -1: not for a run-ahead opening, nor for an active slot whose
error is already recorded, nor for a slot that misses by its state (R94, R96, R123). -/
def Device.checksCodewords (d : Device) (r : RegionId) (q : SwReq) : Bool :=
  (d.missCause r q).isNone && !(d.slot r q.slot == slActive && q.opening.isSome)

/-- SWITCH_CHECK (R94, R96, R97, R99, R105, R124). Edge -1 of the held request: an opening is checked under R124, a
switch under R97; what passes is granted or deferred. At edge +1 of an abort the checkpoint is restored first (R136). `err` is an
error in the incoming context's codewords; one that is uncorrectable makes the request miss, and is then handled as R116 and
R117 say. -/
def execSwitchCheck (r : RegionId) (err : Option PoolError) (s : State) : Result :=
  go s <| withD fun d =>
    match (d.rg r).held, (d.rg r).committed with
    | some q, none =>
      ops [whenB q.abort.isSome (restoreCkpt r),
        if !(d.checksCodewords r q) then checkReq r q
        else
          match err with
          | none => checkReq r q
          | some e =>
            if poolJudge e.bits = some false ∧ (codewordSlots (d.depth r) e.codeword.val).contains q.slot then
              both (if q.opening.isSome then refuseHeld r 2 else missReq r q 2) (checkCodewords r err)
            else both (checkCodewords r err) (checkReq r q)]
    | _, _ => skip

/-- SWITCH_TAKE_EFFECT (R94, R64, R71, R75, R136). Edge 0 of a committed switch; a corrected-context switch also ends
its abort. A committed opening takes effect by SPEC_OPENING_EDGE instead. -/
def execSwitchTakeEffect (r : RegionId) (s : State) : Result :=
  go s <| withD fun d =>
    match (d.rg r).committed with
    | none => skip
    | some q =>
      if q.opening.isSome then skip
      else
        ops [modR r fun g => { g with committed := none },
          switchTo r q.slot q.cls.src q.deferred q.staggered,
          match q.abort with
          | some c => finishAbort r c q.slot
          | none => skip]

/-! ### Meanings: scheduled and stop switches -/

/-- Arm a scheduled switch (R102): slot and target are taken as one snapshot. -/
def schedArm (r : RegionId) (slot : SlotId) : Op :=
  pageWrite (rgnPg r) (withD fun d =>
    ops [setF (rgnPg r) F.RGN_SCHED_CTL.slot slot.val, setF (rgnPg r) F.RGN_SCHED_CTL.arm 1,
      setF (rgnPg r) F.RGN_SCHED_CTL.late 0,
      modR r fun g => { g with armed := some (slot, d.reg64 (rgnPg r) R.RGN_SCHED_LO), schedDue := false }])

/-- Disarm a scheduled switch that is not captured (R102). -/
def schedDisarm (r : RegionId) : Op :=
  ops [setF (rgnPg r) F.RGN_SCHED_CTL.arm 0, modR r fun g => { g with armed := none, schedDue := false }]

/-- SCHED_ARM (R102). A write of 1 to RGN_SCHED_CTL.arm with the slot. -/
def execSchedArm (r : RegionId) (slot : SlotId) (s : State) : Result := go s (schedArm r slot)

/-- SCHED_DISARM (R102). A write of 0 to RGN_SCHED_CTL.arm with the slot field. -/
def execSchedDisarm (r : RegionId) (slot : SlotId) (s : State) : Result :=
  go s (pageWrite (rgnPg r) (both (setF (rgnPg r) F.RGN_SCHED_CTL.slot slot.val) (schedDisarm r)))

/-- SCHED_CAPTURE (R101, R103). The edge two periods before the first edge at or after T: captured, late where an
earlier edge would have done. While a speculation is open it is held (R100); where the held place is taken by the same
or a higher class it stays armed (R99). -/
def execSchedCapture (r : RegionId) (s : State) : Result :=
  go s <| withD fun d =>
    let g := d.rg r
    match g.armed with
    | none => skip
    | some (slot, t) =>
      let per := d.period48 r
      if !(d.running r) || 48 * g.devtime + 2 * per < 48 * t then skip
      else if g.spec.isSome then modR r fun g => { g with schedDue := true }
      else if !(g.placeFree .sched) then skip
      else
        ops [schedDisarm r,
          whenB (48 * g.devtime + per ≥ 48 * t)
            (ops [setF (rgnPg r) F.RGN_SCHED_CTL.late 1, ctxCause r 4]),
          capture r { cls := .sched, slot := slot, target := some t }]

/-- The stop switch of one region (R26, R27, R119): into its stop slot, an open speculation aborted to it; a region with
no stop context is held. -/
def stopRegion (r : RegionId) : Op :=
  withD fun d =>
    let p := rgnPg r
    let sl : SlotId := Fin.ofNat 8 (d.fld p F.RGN_CTXCFG.stop_slot)
    if d.rgnP r.val ≠ 0 then skip
    else if (d.rg r).test then modR r fun g => { g with stopDue := true }
    else if d.running r ∧ d.bit p F.RGN_CTXCFG.stop_en then
      if (d.rg r).spec.isSome then abortSpec r .stop sl 2
      else
        let ab := match (d.rg r).held with
          | some q => q.abort.map (fun _ => 2)
          | none => none
        capture r { cls := .stop, slot := sl, abort := ab }
    else stopHold r

/-- STOP_SWITCH_CAPTURE (R26, R27, R106). The DEVTIME of the stop lead arrives: every region in P0 is switched, in
stagger mode, or held. -/
def execStopSwitchCapture (s : State) : Result :=
  go s <| withD fun d =>
    match d.inn.stopAt with
    | none => skip
    | some t =>
      if t ≤ d.now then
        both (modI fun n => { n with stopAt := none }) (forAll (List.finRange 64) stopRegion)
      else skip

/-! ### Meanings: the hamper -/

/-- Set the hamper's size and the entry count it gives at the region's depth (R107). -/
def setHamper (r : RegionId) (size : Nat) : Op :=
  withD fun d => ops [setF (rgnPg r) F.RGN_HAMPER.size size,
    setF (rgnPg r) F.RGN_HAMPER.entries (hamperEntries size (d.depth r))]

/-- A write of RGN_HAMPER.size (R107): shrinking acts at once, growing starts the header writes. A value above 12, a
write while a fetch is in progress, and a write without the unlock leave the field unchanged. -/
def hamperResize (who : Who) (r : RegionId) (size : Nat) : Op :=
  pageWrite (rgnPg r) (withD fun d =>
    let old := d.fld (rgnPg r) F.RGN_HAMPER.size
    if d.unlockedFor (rgnPg r) who ∧ size ≤ 12 ∧ (d.rg r).fetch = none ∧ (d.rg r).grow = none then
      if size ≤ old then setHamper r size else modR r fun g => { g with grow := some size }
    else skip)

/-- HAMPER_RESIZE (R107). -/
def execHamperResize (who : Who) (r : RegionId) (size : Fin 16) (s : State) : Result :=
  go s (byWrite who (rgnPg r) (hamperResize who r size.val))

/-- HAMPER_GROWTH_DONE (R107). Every added entry's header line is written with every field zero and fresh check bits;
then the larger size takes effect. -/
def execHamperGrowthDone (r : RegionId) (s : State) : Result :=
  go s <| withD fun d =>
    match (d.rg r).grow with
    | none => skip
    | some n =>
      let dep := d.depth r
      let old := hamperEntries (d.fld (rgnPg r) F.RGN_HAMPER.size) dep
      let new := hamperEntries n dep
      ops [forAll (List.range (new - old)) fun i => writeFresh (hamperEntry r.val dep (old + i)) (List.replicate 64 0),
        modR r fun g => { g with grow := none }, setHamper r n]

/-- The refusal of a fetch, in the order of R109, or none. -/
def Device.fetchRefusal (d : Device) (r : RegionId) (slot : SlotId) : Option Nat :=
  let g := d.rg r
  let p := rgnPg r
  let st := d.slot r slot
  let heldHere : Bool := match g.held with
    | some q => q.slot == slot
    | none => false
  let committedHere : Bool := match g.committed with
    | some q => q.slot == slot
    | none => false
  let predHere : Bool := match g.spec with
    | some sp => sp.pred == slot
    | none => false
  if d.bit 17 F.PWR_DEVSTAT.forbid then some 4
  else if g.loading then some 8
  else if g.fetch.isSome ∨ g.test then some 2
  else if st = slActive ∨ st = slNone ∨ heldHere ∨ committedHere ∨ predHere ∨
      (d.bit p F.RGN_CTXCFG.stop_en ∧ d.fld p F.RGN_CTXCFG.stop_slot = slot.val) ∨
      (d.bit p F.RGN_CTXCFG.safe_en ∧ d.fld p F.RGN_CTXCFG.safe_slot = slot.val) then some 3
  else none

/-- A write of RGN_FETCH with start at 1 (R109, R110). -/
def fetchStart (r : RegionId) (entry : Nat) (slot : SlotId) : Op :=
  pageWrite (rgnPg r) (withD fun d =>
    let p := rgnPg r
    ops [setF p F.RGN_FETCH.entry entry, setF p F.RGN_FETCH.slot slot.val,
      match d.fetchRefusal r slot with
      | some c => ops [setF p F.RGN_FETCHSTAT.result c, ctxCause r 3]
      | none =>
        ops [setSlot r slot slFetching, setF p F.RGN_FETCHSTAT.busy 1, setF p F.RGN_FETCHSTAT.slot slot.val,
          setF p F.RGN_FETCHSTAT.entry entry, setF p F.RGN_FETCHSTAT.result 0,
          modR r fun g => { g with fetch := some { entry := entry, slot := slot } }]])

/-- FETCH_START (R109). -/
def execFetchStart (r : RegionId) (entry : Fin 256) (slot : SlotId) (s : State) : Result :=
  go s (fetchStart r entry.val slot)

/-- An entry header as the model lays it out: byte 0 bit 0 valid, byte 1 depth, bytes 2 and 3 tag, bytes 8 to 15
image_id (R108; notes/assumptions/12.md). -/
def entryHeader (valid : Bool) (depth tag imageId : Nat) : List Byte :=
  [if valid then 1 else 0, BitVec.ofNat 8 depth] ++ Word.bytesOfNat 2 tag ++ Word.bytesOfNat 4 0 ++
    Word.bytesOfNat 8 imageId ++ List.replicate 48 0

/-- The header of an entry is valid and has the region's depth, and the entry number is below RGN_HAMPER.entries (R110). -/
def Device.entryOk (d : Device) (r : RegionId) (e : Nat) : Bool :=
  let a := hamperEntry r.val (d.depth r) e
  e < d.fld (rgnPg r) F.RGN_HAMPER.entries && (d.tierByte a).getLsbD 0 && (d.tierByte (a + 1)).toNat == d.depth r

/-- FETCH_HEADER_CHECK (R110, R113, R167). The entry's header line is read: the fetch goes on, fails with result 5, or with result 6
where a chunk of it is uncorrectable. -/
def execFetchHeaderCheck (rd : HeaderRead) (s : State) : Result :=
  let r := rd.region
  go s <| withD fun d =>
    match (d.rg r).fetch with
    | none => skip
    | some f =>
      let a := hamperEntry r.val (d.depth r) f.entry
      if d.fld (rgnPg r) F.RGN_HAMPER.entries ≤ f.entry then endFetch r 5
      else
        ops [chunkFound r (a % 0x4000000) 3 0x3FF rd.found.c0, chunkFound r (a % 0x4000000 + 32) 3 0x3FF rd.found.c1,
          withD fun d1 =>
            if d1.chunkBad a || d1.chunkBad (a + 32) then endFetch r 6
            else if d1.entryOk r f.entry then modR r fun g => { g with fetch := some { f with headerOk := true } }
            else endFetch r 5]

/-- What a slot holds once its cells are written: initial values, and the descriptor at `a` (R67, R144). -/
def freshSlot (d : Device) (cells : List (Nat × Byte)) (a : Nat) : SlotS where
  priv := initBits cells
  arith := []
  speculable := (d.byte (a + 2)).getLsbD 0
  bramWe := (d.byte (a + 4)).toNat
  buffered := d.num (a + 6) 2

/-- A slot takes its descriptor, its private-state bits their initial values, its arithmetic registers zero (R67, R110,
R144). -/
def initSlot (r : RegionId) (sl : SlotId) : Op :=
  withD fun d =>
    let cells := d.ctxCells r sl
    let a := slotBase r sl + settingsOff
    ops [setF (rgnPg r) (fTag sl) (d.num a 2),
      modR r fun g => { g with slots := g.slots.set sl.val (freshSlot d cells a), contend := g.contend.filter fun x => x.1 != sl }]

/-- The first uncorrectable or poisoned chunk of an entry's context, as an offset in the entry, if it has one (R113, R169). -/
def Device.entryBad (d : Device) (r : RegionId) (e : Nat) : Option Nat :=
  let a := hamperEntry r.val (d.depth r) e
  (d.inn.badChunks.filterMap fun c =>
    match d.tierOf (32 * c) with
    | some x => if a ≤ x ∧ x < a + 64 + contextSize (d.depth r) + 24576 then some (x - a) else none
    | none => none).min?

/-- FETCH_DONE (R110, R111, R113). The slot holds the entry's context, RESIDENT with its tag; RGN_FETCHTIME takes the duration
in CFG_CLK cycles. A held request for the slot was captured before this completion (R97). `fixed` are the chunks that the reads
corrected: offset in the entry, symbol (R167). An entry with a chunk known to be uncorrectable fails the fetch. -/
def execFetchDone (r : RegionId) (done : FetchEnd) (s : State) : Result :=
  go s <| withD fun d =>
    match (d.rg r).fetch with
    | none => skip
    | some f =>
      let dep := d.depth r
      let src := hamperEntry r.val dep f.entry
      let dst := slotBase r f.slot
      if f.headerOk then
        match d.entryBad r f.entry with
        | some off => ops [logUncorr r (src % 0x4000000 + off) 3, endFetch r 6]
        | none => ops [forAll done.fixed fun x => chunkFound r (src % 0x4000000 + x.1 % 0x500000) 3 0x3FF (.corrected x.2),
          tierLoad (src + 64) dst (contextSize dep),
          tierLoad (src + 64 + contextSize dep) (dst + settingsOff) 24576,
          setSlot r f.slot slResident, initSlot r f.slot,
          modR r fun g => { g with fetch := none
                                   held := g.held.map fun q => if q.slot = f.slot then { q with lateFetch := true } else q },
          setF (rgnPg r) F.RGN_FETCHSTAT.busy 0, setF (rgnPg r) F.RGN_FETCHSTAT.result 1,
          setReg (rgnPg r) R.RGN_FETCHTIME done.cycles, ctxCause r 2, endCmds (.fetch r.val) 0 1]
      else skip

/-- FETCH_READ_UNCORR (R113). A vault read of the fetch returns uncorrectable data, at byte `off` of the entry: the fetch
fails with result 6 and the vault logs the error. -/
def execFetchReadUncorr (r : RegionId) (off : Nat) (s : State) : Result :=
  go s <| withD fun d =>
    match (d.rg r).fetch with
    | none => skip
    | some f => ops [logUncorr r (hamperEntry r.val (d.depth r) f.entry % 0x4000000 + off) 3, endFetch r 6]

/-! ### Meanings: context faults -/

/-- SCRUB_CODEWORD_CHECK (R58, R112, R115, R116, R117). A C-tier scrub engine has checked a pool codeword of an element and
found these of its 288 bits wrong. `fetchWrote`: a fetch in progress has already written the codeword; where it has not, the finding
is neither acted on nor reported. A correction ends the contention of its cluster's risers in the codeword's contexts; it does not
release a cut (R83). -/
def execScrubCodewordCheck (r : RegionId) (element : Fin 36864) (codeword : Fin 4) (bits : List (Fin 288))
    (fetchWrote : Bool) (s : State) : Result :=
  go s <| withD fun d =>
    let ss := codewordSlots (d.depth r) codeword.val
    if (d.rg r).test ∨ (¬ fetchWrote ∧ ss.any fun sl => d.slot r sl == slFetching) then skip
    else
      match poolJudge bits with
      | none => skip
      | some true =>
        ops [incReg (rgnPg r) R.RGN_CORRCNT, faultCause r 0,
          modR r fun g => { g with contend := g.contend.filter fun x => !(ss.contains x.1 && x.2 / 40 == element.val % 18432 / 16) }]
      | some false => uncorrCodeword r element.val codeword.val true

/-- A write of 1 to RGN_HOLD.release (R117). -/
def faultHoldRelease (r : RegionId) : Op := pageWrite (rgnPg r) (setF (rgnPg r) F.RGN_HOLD.fault_hold 0)

/-- FAULT_HOLD_RELEASE (R117). The fault hold is cleared; the regional enable may rise (R87). -/
def execFaultHoldRelease (r : RegionId) (s : State) : Result := go s (faultHoldRelease r)

end Sys2Proof.Machine
end

