-- ==== Sys2Proof/Machine/Operands.lean ====
section
/-!
DEFINITION. The operand forms and results of the integer instructions (09, R221 to R223, R226, R228): what each computes
from its operands.
-/

namespace Sys2Proof.Machine

/-- Immediates: sign-extended, or zero-extended for andi, ori and xori (R221, R223). -/
def sext (v : BitVec 16) : Word := v.signExtend 32
def zext (v : BitVec 16) : Word := v.zeroExtend 32

/-- The quotient of a signed division, rounded toward zero and saturating (R222). -/
def divS (a b : Word) : Word :=
  if b = 0 then (if a.msb then 0x80000000 else 0x7FFFFFFF)
  else if a = 0x80000000 ∧ b = 0xFFFFFFFF then 0x7FFFFFFF
  else BitVec.ofInt 32 (a.toInt.tdiv b.toInt)

/-- The remainder of a signed division, 0 wherever the quotient saturates (R222). -/
def remS (a b : Word) : Word :=
  if b = 0 ∨ a = 0x80000000 ∧ b = 0xFFFFFFFF then 0 else BitVec.ofInt 32 (a.toInt.tmod b.toInt)

/-- The unsigned quotient and remainder (R222). -/
def divU (a b : Word) : Word := if b = 0 then 0xFFFFFFFF else BitVec.ofNat 32 (a.toNat / b.toNat)
def remU (a b : Word) : Word := if b = 0 then 0 else BitVec.ofNat 32 (a.toNat % b.toNat)

/-- The result of an integer register operation (table Integer register operations). -/
def aluVal (op : AluOp) (a b : Word) : Word :=
  match op with
  | .add => a + b
  | .sub => a - b
  | .and => a &&& b
  | .or => a ||| b
  | .xor => a ^^^ b
  | .shl => a <<< (b.toNat % 32)
  | .shr => a >>> (b.toNat % 32)
  | .sar => a.sshiftRight (b.toNat % 32)
  | .lt => Word.ofBool (a.slt b)
  | .ltu => Word.ofBool (a.ult b)
  | .mul => a * b
  | .mulhs => BitVec.ofInt 32 (a.toInt * b.toInt / 2 ^ 32)
  | .mulhu => BitVec.ofNat 32 (a.toNat * b.toNat / 2 ^ 32)
  | .div => divS a b
  | .divu => divU a b
  | .rem => remS a b
  | .remu => remU a b

/-- The result of an immediate operation (R223). -/
def immVal (op : ImmOp) (a : Word) (v : BitVec 16) : Word :=
  match op with
  | .addi => a + sext v
  | .andi => a &&& zext v
  | .ori => a ||| zext v
  | .xori => a ^^^ zext v
  | .lti => Word.ofBool (a.slt (sext v))
  | .ltiu => Word.ofBool (a.ult (sext v))

/-- The result of a shift by an immediate (R223). -/
def shiftVal (op : ShiftOp) (a : Word) (n : Fin 32) : Word :=
  match op with
  | .shli => a <<< n.val
  | .shri => a >>> n.val
  | .sari => a.sshiftRight n.val

/-- The condition of a branch (R228). -/
def branchTaken (op : BranchOp) (a b : Word) : Bool :=
  match op with
  | .beq => a == b
  | .bne => a != b
  | .blt => a.slt b
  | .bge => !(a.slt b)
  | .bltu => a.ult b
  | .bgeu => !(a.ult b)

/-- The target of a branch, and of a jump, from the instruction's own address (R228). -/
def branchTarget (pc : Word) (off : BitVec 16) : Word := pc + (sext off) * 4
def jumpTarget (pc : Word) (off : BitVec 26) : Word := pc + (off.signExtend 32) * 4

/-- Bytes that a load or store moves (R226). -/
def loadSize : LoadOp → Nat
  | .lb | .lbu => 1
  | .lh | .lhu => 2
  | .lw | .lwf => 4

def storeSize : StoreOp → Nat
  | .sb => 1
  | .sh => 2
  | .sw | .swf => 4

/-- The word a load leaves from the bytes it read, least significant first (R226). -/
def loadVal (op : LoadOp) (n : Nat) : Word :=
  match op with
  | .lb => (BitVec.ofNat 8 n).signExtend 32
  | .lh => (BitVec.ofNat 16 n).signExtend 32
  | .lbu | .lhu | .lw | .lwf => BitVec.ofNat 32 n

end Sys2Proof.Machine
end

