-- ==== Sys2Proof/Machine/Flags.lean ====
section
/-!
DEFINITION. Floating-point arithmetic and its flags (09, R224, R225): IEEE 754 binary32 computed exactly on integers and
rounded once. A flag word has bit 0 invalid, 1 divide by zero, 2 overflow, 3 underflow, 4 inexact (table FSTAT).
-/

namespace Sys2Proof.Machine

/-- The KE32 default NaN (R224). -/
def fNaN : Word := 0x7FE00000
def fInvalid : Nat := 1
def fDivZero : Nat := 2
def fOverflow : Nat := 4
def fUnderflow : Nat := 8
def fInexact : Nat := 16

/-- A binary32 value taken apart: a finite nonzero value is (−1)^neg × m × 2^e. -/
inductive FVal
  | nan (signalling : Bool)
  | inf (neg : Bool)
  | zero (neg : Bool)
  | fin (neg : Bool) (m : Nat) (e : Int)
deriving DecidableEq, Repr

def fExp (w : Word) : Nat := w.toNat / 2 ^ 23 % 256
def fFrac (w : Word) : Nat := w.toNat % 2 ^ 23

/-- The value of a word. -/
def fUnpack (w : Word) : FVal :=
  let ex := fExp w
  let fr := fFrac w
  if ex = 255 then (if fr = 0 then .inf w.msb else .nan (fr / 2 ^ 22 == 0))
  else if ex = 0 then (if fr = 0 then .zero w.msb else .fin w.msb fr (-149))
  else .fin w.msb (fr + 2 ^ 23) (Int.ofNat ex - 150)

def FVal.isNaN : FVal → Bool
  | .nan _ => true
  | _ => false

def FVal.isSNaN : FVal → Bool
  | .nan s => s
  | _ => false

def signBit (neg : Bool) : Nat := if neg then 2 ^ 31 else 0
def fZero (neg : Bool) : Word := BitVec.ofNat 32 (signBit neg)
def fInf (neg : Bool) : Word := BitVec.ofNat 32 (signBit neg + 0x7F800000)
def fMax (neg : Bool) : Word := BitVec.ofNat 32 (signBit neg + 0x7F7FFFFF)

/-- Rounding of `m / 2^n` to an integer under FSTAT.rm: the integer, and whether it is inexact (table FSTAT: 0 nearest
even, 1 upward, 2 downward, 3 toward zero). -/
def roundShift (rm : Nat) (neg : Bool) (m n : Nat) : Nat × Bool :=
  let q := m / 2 ^ n
  let r := m % 2 ^ n
  let up : Bool :=
    match rm with
    | 0 => 2 ^ n < 2 * r || (2 * r == 2 ^ n && n != 0 && q % 2 == 1)
    | 1 => r != 0 && !neg
    | 2 => r != 0 && neg
    | _ => false
  (if up then q + 1 else q, r != 0)

/-- A result too large for the format (IEEE 754). -/
def fOverflowed (rm : Nat) (neg : Bool) : Word :=
  match rm with
  | 0 => fInf neg
  | 1 => if neg then fMax neg else fInf neg
  | 2 => if neg then fInf neg else fMax neg
  | _ => fMax neg

/-- `m × 2^e` with `m` brought to exactly `q` as the exponent of its last bit. -/
def roundAt (rm : Nat) (neg : Bool) (m : Nat) (e q : Int) : Nat × Bool :=
  if q ≤ e then (m * 2 ^ (e - q).toNat, false) else roundShift rm neg m (q - e).toNat

/-- The value is tiny: below 2^−126 before rounding, or also after rounding to 24 bits with no bound on the exponent; which
of the two IEEE 754 leaves to the implementation (`Config.tinyAfterRounding`). A value that rounding leaves tiny is tiny before it. -/
def isTiny (rm : Nat) (neg : Bool) (m : Nat) (e : Int) : Bool :=
  let len : Int := Int.ofNat (Nat.log2 m + 1)
  let q := e + len - 24
  e + len - 1 < -126 &&
    (!Config.tinyAfterRounding || q + (if 2 ^ 24 ≤ (roundAt rm neg m e q).1 then 24 else 23) < -126)

/-- Round (−1)^neg × m × 2^e, m not 0, to binary32, with the flags that raises. -/
def fRound (rm : Nat) (neg : Bool) (m : Nat) (e : Int) : Word × Nat :=
  let len : Int := Int.ofNat (Nat.log2 m + 1)
  let q := max (e + len - 24) (-149)
  let (r0, inexact) := roundAt rm neg m e q
  let (r, q) := if 2 ^ 24 ≤ r0 then (r0 / 2, q + 1) else (r0, q)
  let ix := if inexact then fInexact else 0
  if r < 2 ^ 23 then
    (BitVec.ofNat 32 (signBit neg + r), ix ||| (if inexact && isTiny rm neg m e then fUnderflow else 0))
  else
    let ex := (q + 150).toNat
    if 255 ≤ ex then (fOverflowed rm neg, fOverflow ||| fInexact)
    else
      (BitVec.ofNat 32 (signBit neg + ex * 2 ^ 23 + (r - 2 ^ 23)),
        ix ||| (if inexact && isTiny rm neg m e then fUnderflow else 0))

/-- A NaN operand of an operation that delivers a number: the default NaN, invalid for a signalling one (R224). -/
def nanResult (a b : FVal) : Word × Nat := (fNaN, if a.isSNaN || b.isSNaN then fInvalid else 0)

/-- The sign of an exact sum of 0 (IEEE 754): downward rounding gives −0. -/
def zeroSum (rm : Nat) : Word := fZero (rm == 2)

def signed (neg : Bool) (m : Nat) : Int := if neg then -Int.ofNat m else Int.ofNat m

/-- The sum of two values. -/
def fAddVal (rm : Nat) (a b : FVal) : Word × Nat :=
  match a, b with
  | .nan _, _ | _, .nan _ => nanResult a b
  | .inf s, .inf t => if s = t then (fInf s, 0) else (fNaN, fInvalid)
  | .inf s, _ | _, .inf s => (fInf s, 0)
  | .zero s, .zero t => (if s = t then fZero s else zeroSum rm, 0)
  | .zero _, .fin s m e | .fin s m e, .zero _ => fRound rm s m e
  | .fin s m e, .fin t n f =>
    let g := min e f
    let v := signed s (m * 2 ^ (e - g).toNat) + signed t (n * 2 ^ (f - g).toNat)
    if v = 0 then (zeroSum rm, 0) else fRound rm (v < 0) v.natAbs g

def FVal.negate : FVal → FVal
  | .nan s => .nan s
  | .inf s => .inf !s
  | .zero s => .zero !s
  | .fin s m e => .fin (!s) m e

/-- The product of two values. -/
def fMulVal (rm : Nat) (a b : FVal) : Word × Nat :=
  match a, b with
  | .nan _, _ | _, .nan _ => nanResult a b
  | .inf _, .zero _ | .zero _, .inf _ => (fNaN, fInvalid)
  | .inf s, .inf t | .inf s, .fin t _ _ | .fin s _ _, .inf t => (fInf (s != t), 0)
  | .zero s, .zero t | .zero s, .fin t _ _ | .fin s _ _, .zero t => (fZero (s != t), 0)
  | .fin s m e, .fin t n f => fRound rm (s != t) (m * n) (e + f)

/-- The quotient of two values: 64 more bits than the operands, the last standing for the rest. -/
def fDivVal (rm : Nat) (a b : FVal) : Word × Nat :=
  match a, b with
  | .nan _, _ | _, .nan _ => nanResult a b
  | .inf _, .inf _ | .zero _, .zero _ => (fNaN, fInvalid)
  | .inf s, .zero t | .inf s, .fin t _ _ => (fInf (s != t), 0)
  | .zero s, .inf t | .zero s, .fin t _ _ | .fin s _ _, .inf t => (fZero (s != t), 0)
  | .fin s _ _, .zero t => (fInf (s != t), fDivZero)
  | .fin s m e, .fin t n f =>
    let x := m * 2 ^ 64
    fRound rm (s != t) (2 * (x / n) + (if x % n = 0 then 0 else 1)) (e - f - 65)

/-- The integer square root of `n`, from a root `r` of the higher bits, with `k` bits to go. -/
def isqrt (n : Nat) : Nat → Nat → Nat
  | 0, r => r
  | k + 1, r => isqrt n k (if (r + 2 ^ k) * (r + 2 ^ k) ≤ n then r + 2 ^ k else r)

/-- The square root of a value. -/
def fSqrtVal (rm : Nat) (a : FVal) : Word × Nat :=
  match a with
  | .nan s => (fNaN, if s then fInvalid else 0)
  | .zero s => (fZero s, 0)
  | .inf true | .fin true _ _ => (fNaN, fInvalid)
  | .inf false => (fInf false, 0)
  | .fin false m e =>
    let (m1, e1) := if e % 2 = 0 then (m, e) else (2 * m, e - 1)
    let x := m1 * 2 ^ 64
    let r := isqrt x 46 0
    fRound rm false (2 * r + (if r * r = x then 0 else 1)) (e1 / 2 - 33)

/-- The order of two values that are not NaN: −0 equals +0. -/
def fLess (a b : FVal) : Bool :=
  match a, b with
  | .nan _, _ | _, .nan _ => false
  | .inf s, .inf t => s && !t
  | .inf s, _ => s
  | _, .inf t => !t
  | .zero _, .zero _ => false
  | .zero _, .fin t _ _ => !t
  | .fin s _ _, .zero _ => s
  | .fin s m e, .fin t n f =>
    let g := min e f
    decide (signed s (m * 2 ^ (e - g).toNat) < signed t (n * 2 ^ (f - g).toNat))

def fEqual (a b : FVal) : Bool := !a.isNaN && !b.isNaN && !(fLess a b) && !(fLess b a)

/-- Invalid for a signalling NaN alone: the quiet operations (R224). -/
def quietFlags (a b : FVal) : Nat := if a.isSNaN || b.isSNaN then fInvalid else 0

/-- The smaller of two words, −0 below +0; a NaN gives the default NaN (table Floating-point operations). -/
def fMinVal (x y : Word) : Word × Nat :=
  let a := fUnpack x
  let b := fUnpack y
  if a.isNaN || b.isNaN then nanResult a b
  else if fLess a b || (fEqual a b && x.msb) then (x, 0) else (y, 0)

/-- The larger of two words. -/
def fMaxVal (x y : Word) : Word × Nat :=
  let a := fUnpack x
  let b := fUnpack y
  if a.isNaN || b.isNaN then nanResult a b
  else if fLess b a || (fEqual a b && !x.msb) then (x, 0) else (y, 0)

/-- A word with another sign. -/
def withSign (w : Word) (neg : Bool) : Word := BitVec.ofNat 32 (signBit neg + w.toNat % 2 ^ 31)

/-- The result of a floating-point operation of two operands, with the flags it raises. The comparisons give a word for
a general register. -/
def fp2Val (op : Fp2Op) (rm : Nat) (x y : Word) : Word × Nat :=
  let a := fUnpack x
  let b := fUnpack y
  match op with
  | .fadd => fAddVal rm a b
  | .fsub => fAddVal rm a b.negate
  | .fmul => fMulVal rm a b
  | .fdiv => fDivVal rm a b
  | .fmin => fMinVal x y
  | .fmax => fMaxVal x y
  | .fcsgn => (withSign x y.msb, 0)
  | .fnsgn => (withSign x !y.msb, 0)
  | .fxsgn => (withSign x (x.msb != y.msb), 0)
  | .fceq => (Word.ofBool (fEqual a b), quietFlags a b)
  | .fclt => (Word.ofBool (fLess a b), quietFlags a b)
  | .fcle => (Word.ofBool (fLess a b || fEqual a b), quietFlags a b)
  | .fcun => (Word.ofBool (a.isNaN || b.isNaN), quietFlags a b)

/-- The integer nearest to a value under rm, and whether it is inexact. -/
def fToInt (rm : Nat) (neg : Bool) (m : Nat) (e : Int) : Int × Bool :=
  let (r, ix) := roundAt rm neg m e 0
  (signed neg r, ix)

/-- A conversion to an integer between two bounds: out of range saturates and raises invalid, a NaN gives 0 (R224). -/
def convert (rm : Nat) (lo hi : Int) (a : FVal) : Word × Nat :=
  match a with
  | .nan _ => (0, fInvalid)
  | .inf s => (BitVec.ofInt 32 (if s then lo else hi), fInvalid)
  | .zero _ => (0, 0)
  | .fin s m e =>
    let (v, ix) := fToInt rm s m e
    if v < lo then (BitVec.ofInt 32 lo, fInvalid)
    else if hi < v then (BitVec.ofInt 32 hi, fInvalid)
    else (BitVec.ofInt 32 v, if ix then fInexact else 0)

/-- The value of an integer in binary32. -/
def fromInt (rm : Nat) (v : Int) : Word × Nat := if v = 0 then (0, 0) else fRound rm (v < 0) v.natAbs 0

/-- The class code of a value (table Floating-point operations, fkind). -/
def kindCode (w : Word) : Nat :=
  match fUnpack w with
  | .nan s => if s then 9 else 8
  | .inf s => if s then 7 else 3
  | .zero s => if s then 4 else 0
  | .fin s _ _ => (if s then 4 else 0) + (if fExp w = 0 then 1 else 2)

/-- The result of a floating-point operation of one operand, with the flags it raises. -/
def fp1Val (op : Fp1Op) (rm : Nat) (x : Word) : Word × Nat :=
  match op with
  | .fsqrt => fSqrtVal rm (fUnpack x)
  | .ftoi => convert rm (-2 ^ 31) (2 ^ 31 - 1) (fUnpack x)
  | .ftou => convert rm 0 (2 ^ 32 - 1) (fUnpack x)
  | .itof => fromInt rm x.toInt
  | .utof => fromInt rm (Int.ofNat x.toNat)
  | .fmvg | .fmvf => (x, 0)
  | .fkind => (BitVec.ofNat 32 (kindCode x), 0)

/-- Where a floating-point operation writes: a general register, or a floating-point one. -/
def fp2ToG : Fp2Op → Bool
  | .fceq | .fclt | .fcle | .fcun => true
  | _ => false

def fp1ToG : Fp1Op → Bool
  | .ftoi | .ftou | .fmvg | .fkind => true
  | _ => false

/-- Where an operation of one operand reads: a general register, or a floating-point one. -/
def fp1FromG : Fp1Op → Bool
  | .itof | .utof | .fmvf => true
  | _ => false

end Sys2Proof.Machine
end

