-- ==== Sys2Proof/Machine/Engine.lean ====
section
/-!
DEFINITION. The sequencer engines (08_sequencer_engines.md): when an instruction executes, traps, interrupts and the
non-maskable input, the watchdog, the windows, the streaming ports.
-/

namespace Sys2Proof.Machine

/-! ### Control registers (R219) -/

def esIe : Fld := ⟨0, 0, 0⟩
def esPie : Fld := ⟨0, 1, 1⟩
def esTf : Fld := ⟨0, 2, 2⟩
def esMask : Fld := ⟨0, 31, 16⟩
def wnVbase : Fld := ⟨0, 31, 16⟩
def wnSize : Fld := ⟨0, 15, 11⟩
def wnWprot : Fld := ⟨0, 5, 5⟩
def wnExec : Fld := ⟨0, 4, 4⟩
def wnSpec : Fld := ⟨0, 3, 3⟩
def wnSide : Fld := ⟨0, 2, 2⟩
def wnCache : Fld := ⟨0, 1, 1⟩
def wnEn : Fld := ⟨0, 0, 0⟩

def engCause (e : EngineId) (i : Nat) : Op := cause (engPg e) R.ENG_EV i

/-! ### Windows (R196 to R200) -/

/-- The value a write of WINxA leaves (R197, R198): a size outside 16 to 32 leaves the field; side clears cache, spec and
exec; reserved bits read zero. -/
def winAWrite (old new : Word) : Word :=
  let v := new &&& 0xFFFFF83F
  let v := if 16 ≤ wnSize.get v ∧ wnSize.get v ≤ 32 then v else wnSize.set (wnSize.get old) v
  if wnSide.get v = 1 then wnCache.set 0 (wnSpec.set 0 (wnExec.set 0 v)) else v

/-- Window `x` contains a virtual address (R197). -/
def Engine.winHas (n : Engine) (x : Fin 16) (va : Nat) : Bool :=
  let a := n.winA[x.val]
  let sz := wnSize.get a
  wnEn.get a == 1 && va / 2 ^ sz == (wnVbase.get a * 65536) / 2 ^ sz

/-- The lowest-numbered enabled window that contains an address. -/
def Engine.window (n : Engine) (va : Nat) : Option (Fin 16) := (List.finRange 16).find? fun x => n.winHas x va

/-- The device address of a virtual address in a window (R197). -/
def Engine.translate (n : Engine) (x : Fin 16) (va : Nat) : Nat :=
  let sz := wnSize.get n.winA[x.val]
  (n.winB[x.val]).toNat * 65536 / 2 ^ sz * 2 ^ sz + va % 2 ^ sz

/-! ### Places (R196, R197) -/

/-- Where a virtual address leads: a tightly coupled memory, the data or status word of a streaming port, reserved local space,
no window, or a device address in a window. -/
inductive KPlace
  | tcm
  | portData (p : Nat)
  | portStat (p : Nat)
  | reserved
  | nowhere
  | window (x : Fin 16) (a : Nat)
deriving DecidableEq, Repr

/-- The place of a virtual address. -/
def Engine.place (n : Engine) (va : Nat) : KPlace :=
  if va < 0x20000 then .tcm
  else if va < 0x20800 then
    if va % 0x100 = 0 then .portData ((va - 0x20000) / 0x100)
    else if va % 0x100 = 4 then .portStat ((va - 0x20000) / 0x100)
    else .reserved
  else if va < 0x40000 then .reserved
  else
    match n.window va with
    | some x => .window x (n.translate x va % 2 ^ 48)
    | none => .nowhere

/-- A window is cached: its cache bit, and a target in the memory tier or external memory (R198). -/
def Engine.cached (n : Engine) (x : Fin 16) (a : Nat) : Bool := wnCache.get n.winA[x.val] == 1 && (inTier a || inExt a)

/-! ### When an instruction executes -/

/-- The pending interrupt lines that ESTAT's mask enables (R211). -/
def Device.irqDue (d : Device) (e : EngineId) : Nat :=
  (d.reg (engPg e) R.ENG_IRQ).toNat &&& esMask.get (d.en e).estat

/-- The lowest-numbered pending and enabled line (R211). -/
def Device.irqLine (d : Device) (e : EngineId) : Option Nat :=
  (List.range 16).find? fun i => (d.irqDue e).testBit i

/-- An interrupt is taken at the next boundary: ESTAT.ie is 1 and an enabled line is pending (R211). -/
def Device.irqTakes (d : Device) (e : EngineId) : Bool :=
  esIe.get (d.en e).estat == 1 && (d.irqLine e).isSome

/-- The engine executes: its clock runs, and it is RUNNING with its region in P0, or in MONITOR with a live handler (R186, R459;
PG_GATE.clk_en runs the block's clock, notes/assumptions/56.md). -/
def Device.engRuns (d : Device) (e : EngineId) : Bool :=
  d.clocked (engPg e) && !(d.inReset (engPg e)) && (d.engState e == esRunning || (d.engState e == esMonitor && (d.en e).liveRuns)) && d.rgnP (engRgn e) == 0

/-- The instruction at the engine's address can be fetched: it lies in instruction memory, in a word not known to be
uncorrectable, or in a window whose exec is 1 (R199, R201). -/
def Engine.canFetch (n : Engine) : Bool :=
  match n.place n.pc.toNat with
  | .tcm => n.pc.toNat < 0x10000 && !(n.tcmBad.contains (0, n.pc.toNat / 4))
  | .window x _ => wnExec.get n.winA[x.val] == 1
  | _ => false

/-- The engine stands at a boundary: it executes, no demand fill is awaited (R194), and no imprecise store trap goes before its
next instruction, nor, outside MONITOR, an NMI or interrupt (R206, R233, R460). -/
def Device.engBoundary (d : Device) (e : EngineId) : Bool :=
  d.engRuns e && (d.en e).miss.isNone && (d.en e).storeErr.isNone &&
    !(((d.en e).nmi || d.irqTakes e) && d.engState e == esRunning)

/-- An instruction retires at this boundary. -/
def Device.engReady (d : Device) (e : EngineId) : Bool := d.engBoundary e && (d.en e).canFetch

/-- Reads of the engine outside local space that are outstanding (R204). -/
def Device.engReads (d : Device) (e : EngineId) : Nat :=
  (if (d.en e).miss.isSome then 1 else 0) + (d.en e).fills.length +
    (d.inn.host.reads.filter fun x => x.who == (Who.engine e).id && x.data.isNone).length

/-- A further read may be issued: at most 8 are outstanding (R204). -/
def Device.readRoom (d : Device) (e : EngineId) : Bool := d.engReads e < 8

/-! ### Traps (R213, R232) -/

/-- Enter HALTED on a double trap (R213). -/
def doubleTrap (e : EngineId) : Op :=
  ops [dropResv e, modE e Engine.endAhead, setF (engPg e) F.ENG_STAT.state esHalted,
    setF (engPg e) F.ENG_TRAP.double 1, engCause e 0]

/-- Save the interrupted address and the cause, set tf, and enter the vector (R213). -/
def enterTrap (e : EngineId) (c : Nat) (epc eaddr : Word) (imprecise unrecov : Bool) : Op :=
  let p := engPg e
  let ec := BitVec.ofNat 32 (c + (if imprecise then 2 ^ 30 else 0) + (if unrecov then 2 ^ 31 else 0))
  ops [dropResv e,
    modE e fun n => { n.endAhead with
      epc := epc &&& 0xFFFFFFFC, ecause := ec, eaddr := eaddr
      estat := esTf.set 1 (esIe.set 0 (esPie.set (esIe.get n.estat) n.estat))
      pc := n.evbase + BitVec.ofNat 32 (64 * c) },
    setF p F.ENG_TRAP.cause c, setB p F.ENG_TRAP.imprecise imprecise,
    incF p F.ENG_TRAP.count, setReg p R.ENG_TRAPPC (epc &&& 0xFFFFFFFC)]

/-- The NMI is taken: with tf at 1 it is marked unrecoverable in ECAUSE and ENG_TRAP (R212). -/
def enterNmi (e : EngineId) : Op :=
  withD fun d =>
    let lost := esTf.get (d.en e).estat == 1
    ops [enterTrap e 0x20 (d.en e).pc 0 false lost, setB (engPg e) F.ENG_TRAP.unrecov lost,
      modE e fun n => { n with nmi := false }]

/-- A synchronous trap of the instruction at the engine's address: a double trap while tf is 1 (R213). -/
def syncTrap (e : EngineId) (c : Nat) (eaddr : Word) : Op :=
  withD fun d =>
    if esTf.get (d.en e).estat = 1 then doubleTrap e
    else enterTrap e c (d.en e).pc eaddr false false

/-- The engine's next instruction stands four bytes on. -/
def nextPc (e : EngineId) : Op := modE e fun n => { n with pc := n.pc + 4 }

/-! ### Run-ahead (R194, R195) -/

/-- An access ends run-ahead: one not aligned, to local space other than data memory, to no window, to one that is side-effect or
has spec at 0, or a store that a window refuses (R195). -/
def Engine.endsAhead (n : Engine) (a : Access) : Bool :=
  a.addr % a.size != 0 ||
    (match n.place a.addr with
    | .tcm => a.addr < 0x10000
    | .window x _ => wnSide.get n.winA[x.val] == 1 || wnSpec.get n.winA[x.val] == 0 || (a.kind == 2 && wnWprot.get n.winA[x.val] == 1)
    | _ => true)

/-- The line of a load that run-ahead may prefetch: in a cacheable window, neither in the data cache nor on its way (R194). -/
def Engine.prefetchLine (n : Engine) (a : Access) : Option Nat :=
  match n.place a.addr with
  | .window x t =>
    let l := t / 64
    if a.kind = 1 ∧ n.cached x t ∧ n.dc.all (fun y => y.1 != l) ∧ !(n.fills.contains l) ∧ n.miss.all (fun m => m.1 != l) then some l
    else none
  | _ => none

/-- An instruction behind a load that waits for its line: it runs ahead, and only a prefetch is left of it; run-ahead ends at the 64th
instruction after the load, at one that R195 names (`stop`), and at such an access. Addresses are those that the registers as they
stand give (notes/assumptions/86.md). -/
def runAhead (e : EngineId) (stop : Bool) (as : Device → List Access) : Op :=
  withD fun d =>
    let n := d.en e
    match n.runAhead with
    | none => skip
    | some k =>
      if stop ∨ 63 ≤ k ∨ (as d).any n.endsAhead then modE e fun n => { n with runAhead := none }
      else
        modE e fun m => { m with
          runAhead := some (k + 1)
          fills := if d.readRoom e then (as d).filterMap n.prefetchLine ++ m.fills else m.fills }

/-- An instruction of the engine, one that ends run-ahead where `stop` holds: it runs ahead while a load waits for its line; nothing where
it does not retire now; where a debug comparator matches it or an access of
it, the comparator's action is taken, and an instruction it halts at does not retire (R463); else its effect. Nothing matches
the instruction at which a halted engine resumed, until it has retired. -/
def kExecIf (ready : Device → Bool) (e : EngineId) (stop : Bool) (as : Device → List Access) (body : Op) : Op :=
  withD fun d =>
    if d.engRuns e && (d.en e).miss.isSome then runAhead e stop as
    else if ready d then
      let accs := { kind := 0, addr := (d.en e).pc.toNat, size := 1 : Access } :: as d
      if d.engState e = esMonitor then body
      else if (d.en e).noMatch then
        both body (withD fun d1 => whenB ((as d).isEmpty || (d1.en e).pc != (d.en e).pc) (modE e fun n => { n with noMatch := false }))
      else
        let one := fun k => accs.any fun a => d.cmpEngine k e a
        ops [recordHits (d.linked one), engineActions e (d.acting one), whenB (!((d.acting one).any d.haltsEngine)) body]
    else skip

/-- An instruction that retires at an ordinary boundary. -/
def kExec (e : EngineId) (as : Device → List Access) (body : Op) : Op := kExecIf (fun d => d.engReady e) e false as body

/-- An instruction with no access to data. -/
def kPlain (e : EngineId) (body : Op) : Op := kExec e (fun _ => []) body

/-- An instruction that ends run-ahead: a reservation, a control register, a fence, cache maintenance, a system instruction, or one that
traps (R195). -/
def kStop (e : EngineId) (as : Device → List Access) (body : Op) : Op := kExecIf (fun d => d.engReady e) e true as body

/-! ### Streaming ports (R208, R209) -/

/-- FIFO pair of port `p` of an engine in its region: 8j + p (08). There are 32 pairs, so both vectors hold 32. -/
def fifoIndex (e : EngineId) (p : Nat) : Fin 32 := Fin.ofNat 32 (8 * (e.val % 4) + p)

/-- Words in the up FIFO and free places in the down FIFO as the engine sees them: committed only (R132, R209). -/
def Fifo.engWords (f : Fifo) : Nat := f.q.length - f.unc
def Fifo.engFree (f : Fifo) : Nat := 16 - (f.q.length + f.popped.length)

/-! ### Meanings: interrupts -/

/-- INTERRUPT_TAKE (R211, R213, R232, R233). The engine takes its lowest enabled pending line at the boundary; a due NMI
goes before it. In run-ahead EPC is at the missing load (R195). -/
def execInterruptTake (e : EngineId) (s : State) : Result :=
  go s <| withD fun d =>
    if d.engRuns e ∧ d.engState e = esRunning ∧ d.irqTakes e ∧ ¬ (d.en e).nmi then
      match d.irqLine e with
      | some i => enterTrap e (0x10 + i) (d.en e).pc 0 false false
      | none => skip
    else skip

/-- NMI_TAKE (R212, R232). A due NMI is taken at the boundary whatever ESTAT holds; with tf at 1 it is marked
unrecoverable. -/
def execNmiTake (e : EngineId) (s : State) : Result :=
  go s <| withD fun d =>
    if d.engRuns e ∧ d.engState e = esRunning ∧ (d.en e).nmi then enterNmi e else skip

/-- Pending bits set by a write of ENG_IRQ.set, or cleared by a write of 1 to ENG_IRQ.pend (R211). -/
def irqSet (e : EngineId) (bits : Nat) : Op :=
  pageWrite (engPg e) (withD fun d => setReg (engPg e) R.ENG_IRQ (d.reg (engPg e) R.ENG_IRQ ||| BitVec.ofNat 32 (bits % 65536)))
def irqClear (e : EngineId) (bits : Nat) : Op := pageWrite (engPg e) (clearBits (engPg e) R.ENG_IRQ (bits % 65536))

/-- IRQ_SET (R211). -/
def execIrqSet (e : EngineId) (bits : BitVec 16) (s : State) : Result := go s (irqSet e bits.toNat)

/-- IRQ_CLEAR (R211). -/
def execIrqClear (e : EngineId) (bits : BitVec 16) (s : State) : Result := go s (irqClear e bits.toNat)

/-- STORE_ERROR (R206). A retired store or write-back has met an error: the imprecise trap is taken at the boundary, with
cause 0x0C or 0x0D. -/
def execStoreError (e : EngineId) (s : State) : Result :=
  go s <| withD fun d =>
    match (d.en e).storeErr with
    | none => skip
    | some (c, a) =>
      if d.engRuns e then
        both (modE e fun n => { n with storeErr := none }) (enterTrap e c (d.en e).pc a true false)
      else skip

/-- An error of a retired store: the first is due as a trap, further ones only count (R206). -/
def storeError (e : EngineId) (c : Nat) (a : Word) : Op :=
  withD fun d =>
    match (d.en e).storeErr with
    | none => modE e fun n => { n with storeErr := some (c, a) }
    | some _ => incF (engPg e) F.ENG_TRAP.count

/-- ILLEGAL_INSTRUCTION (R221, R232, R233). The engine reaches a word that is no instruction: trap 0x01 with the word in
EADDR. A word that decodes is not one. -/
def execIllegalInstruction (e : EngineId) (w : Word) (s : State) : Result :=
  go s (if (decodeKE32 w).isSome then skip else kStop e (fun _ => []) (syncTrap e 0x01 w))

/-! ### Meanings: the watchdog (R215, R216) -/

/-- The reload value, 2^exp. -/
def Device.wdtReload (d : Device) (e : EngineId) : Nat := 2 ^ d.fld (engPg e) F.ENG_WDT.exp

/-- A write of ENG_WDT.kick. -/
def wdtKick (e : EngineId) (key : Nat) : Op :=
  pageWrite (engPg e) (withD fun d => whenB (key == 0x6B1D) (setN (engPg e) R.ENG_WDTCNT (d.wdtReload e)))

/-- WDT_KICK (R215). -/
def execWdtKick (e : EngineId) (key : BitVec 16) (s : State) : Result := go s (wdtKick e key.toNat)

/-- A write of ENG_WDT.en, under an open unlock: a change from 0 to 1 reloads the count (R215). -/
def wdtEnable (who : Who) (e : EngineId) (en : Bool) : Op :=
  pageWrite (engPg e) (withD fun d =>
    if d.unlockedFor (engPg e) who then
      both (setB (engPg e) F.ENG_WDT.en en)
        (whenB (en && !(d.bit (engPg e) F.ENG_WDT.en)) (setN (engPg e) R.ENG_WDTCNT (d.wdtReload e)))
    else skip)

/-- WDT_ENABLE (R215). -/
def execWdtEnable (who : Who) (e : EngineId) (s : State) : Result := go s (byWrite who (engPg e) (wdtEnable who e true))

/-- The count on leaving MONITOR: the larger of itself and 4,096 (R216). -/
def leaveMonitorWdt (e : EngineId) : Op :=
  withD fun d => setN (engPg e) R.ENG_WDTCNT (max (d.reg (engPg e) R.ENG_WDTCNT).toNat 4096)

/-- ENG_CTL.park on an engine that executes (R189): it finishes in PARKING, where its reads and stores end; a halt in MONITOR ends
(R216). -/
def startPark (e : EngineId) : Op :=
  withD fun d =>
    ops [whenB (d.engState e == esMonitor) (leaveMonitorWdt e),
      modE e fun n => { n with runAhead := none, liveRuns := false }, setF (engPg e) F.ENG_STAT.state esParking]

/-- The watchdog's action at count zero: event; event and NMI; event and park (R215, R216). -/
def wdtAction (e : EngineId) : Op :=
  withD fun d =>
    ops [engCause e 1,
      match d.fld (engPg e) F.ENG_WDT.action with
      | 2 => both (setN (engPg e) R.ENG_WDTCNT 0) (startPark e)
      | 1 => both (setN (engPg e) R.ENG_WDTCNT (d.wdtReload e)) (modE e fun n => { n with nmi := true })
      | _ => setN (engPg e) R.ENG_WDTCNT (d.wdtReload e)]

/-- The watchdog counts: it is enabled, the engine's clock runs, and the engine is RUNNING, or in MONITOR with no pause by a
debug session of D1 or higher (R215, R216). -/
def Device.wdtCounts (d : Device) (e : EngineId) : Bool :=
  let p := engPg e
  d.bit p F.ENG_WDT.en && d.rgnP (engRgn e) == 0 && d.clocked p && !(d.inReset p) &&
    (d.engState e == esRunning ||
      (d.engState e == esMonitor && !(d.regBit p R.ENG_WDT 30 && 1 ≤ d.dbgLevel)))

/-- WDT_EXPIRY (R215, R216). The count of a watchdog that counts has reached zero, and its action is taken. -/
def execWdtExpiry (e : EngineId) (s : State) : Result :=
  go s (whenD (fun d => d.wdtCounts e && d.reg (engPg e) R.ENG_WDTCNT == 0) (wdtAction e))

/-- ENG_STAT as it reads (08, ENG_STAT): state, outstanding reads, stores buffered, run-ahead, reservation, in a trap. -/
def Device.engStat (d : Device) (e : EngineId) : Word :=
  let n := d.en e
  let b (x : Bool) (i : Nat) : Nat := if x then 2 ^ i else 0
  let views := (min (d.engReads e) 8) * 2 ^ 25 + (min n.sbuf.length 15) * 2 ^ 21 + b n.runAhead.isSome 20 +
    b (d.inn.resv.any fun x => x.1 == e.val) 19 + b (esTf.get n.estat == 1) 18
  (d.reg (engPg e) R.ENG_STAT &&& 0xE0020000) ||| BitVec.ofNat 32 views

/-! ### Meanings: run and windows -/

/-- Start a PARKED engine at ENG_BOOT.pc; in any other state, or with its region not in P0, nothing (R190); an engine whose
checkers failed stays PARKED (R414). -/
def startEngine (e : EngineId) : Op :=
  withD fun d =>
    if d.engState e = esParked ∧ d.rgnP (engRgn e) = 0 ∧ !(d.fenced (engPg e)) then
      ops [modE e fun n => { n with pc := d.reg (engPg e) R.ENG_BOOT, miss := none, runAhead := none, fills := [] }, setF (engPg e) F.ENG_STAT.state esRunning,
        releaseAllWithheld]
    else skip

/-- ENGINE_RUN (R190, R52). A write of run to ENG_CTL; what was withheld from the engine is delivered. -/
def execEngineRun (e : EngineId) (s : State) : Result := go s (pageWrite (engPg e) (startEngine e))

/-- A write of ENG_WINA (`b` false) or ENG_WINB of the selected window by host, steward or debugger (R200): only while the
engine is PARKED. -/
def windowWrite (e : EngineId) (b : Bool) (v : Word) : Op :=
  pageWrite (engPg e) (withD fun d =>
    let x : Fin 16 := Fin.ofNat 16 (d.fld (engPg e) F.ENG_WINSEL.sel)
    if d.engState e = esParked then
      if b then modE e fun n => { n with winB := n.winB.set x.val v }
      else modE e fun n => { n with winA := n.winA.set x.val (winAWrite n.winA[x.val] v) }
    else setF (engPg e) F.ENG_STAT.win_refused 1)

/-- WINDOW_WRITE (R197, R198, R200). -/
def execWindowWrite (e : EngineId) (b : Bool) (v : Word) (s : State) : Result := go s (windowWrite e b v)

/-! ### Meanings: the fabric side of a streaming port -/

/-- A word pushed at the tail of an up FIFO; during a speculation it is not yet seen by the engine (R132). -/
def Fifo.push (f : Fifo) (w : Word) (spec : Bool) : Fifo :=
  { f with q := f.q ++ [w], unc := if spec then f.unc + 1 else f.unc }

/-- SPU_PUSH (R208, R132, R87, R210). The fabric pushes a word into up FIFO `k`: not taken while it holds 16 words, while
the regional enable is low or in load reset. During a speculation the engine does not see it until commit. -/
def execSpuPush (r : RegionId) (k : Fin 32) (w : Word) (s : State) : Result :=
  go s <| withD fun d =>
    let g := d.rg r
    if d.enable r ∧ ¬ g.loadReset ∧ (g.up[k.val]).q.length < 16 then
      modR r fun g => { g with up := g.up.set k.val ((g.up[k.val]).push w g.spec.isSome) }
    else skip

end Sys2Proof.Machine
end

