-- ==== Sys2Proof/Machine/KInt.lean ====
section
/-!
DEFINITION. The integer instructions of KE32 (09, R221 to R223), each an instruction of one engine: `e` the engine, then
the register operands in the order of the assembler.
-/

namespace Sys2Proof.Machine

/-- An instruction that writes one general register and goes on to the next address. -/
def writeG (e : EngineId) (rd : GReg) (v : Word) : Op := both (setG e rd v) (nextPc e)

/-- The effect of an integer register operation (R222: never a trap, never a flag). -/
def aluOp (e : EngineId) (op : AluOp) (rd rs1 rs2 : GReg) : Op :=
  withD fun d => writeG e rd (aluVal op (d.g e rs1) (d.g e rs2))

/-- The effect of an immediate operation (R223). -/
def immOp (e : EngineId) (op : ImmOp) (rd rs1 : GReg) (v : BitVec 16) : Op :=
  withD fun d => writeG e rd (immVal op (d.g e rs1) v)

/-- The effect of a shift by an immediate (R223). -/
def shiftOp (e : EngineId) (op : ShiftOp) (rd rs1 : GReg) (n : Fin 32) : Op :=
  withD fun d => writeG e rd (shiftVal op (d.g e rs1) n)

/-- The effect of `lui` (R223). -/
def luiOp (e : EngineId) (rd : GReg) (v : BitVec 16) : Op := writeG e rd ((zext v) <<< 16)

/-- ADD (R221). The sum of two registers, modulo 2^32. -/
def execAdd (e : EngineId) (rd rs1 rs2 : GReg) (s : State) : Result := go s (kPlain e (aluOp e .add rd rs1 rs2))

/-- SUB (R221). The difference, modulo 2^32. -/
def execSub (e : EngineId) (rd rs1 rs2 : GReg) (s : State) : Result := go s (kPlain e (aluOp e .sub rd rs1 rs2))

/-- AND (R221). Bitwise AND. -/
def execAnd (e : EngineId) (rd rs1 rs2 : GReg) (s : State) : Result := go s (kPlain e (aluOp e .and rd rs1 rs2))

/-- OR (R221). Bitwise OR. -/
def execOr (e : EngineId) (rd rs1 rs2 : GReg) (s : State) : Result := go s (kPlain e (aluOp e .or rd rs1 rs2))

/-- XOR (R221). Bitwise XOR. -/
def execXor (e : EngineId) (rd rs1 rs2 : GReg) (s : State) : Result := go s (kPlain e (aluOp e .xor rd rs1 rs2))

/-- SHL (R221). Shift left by rs2 bits 4:0. -/
def execShl (e : EngineId) (rd rs1 rs2 : GReg) (s : State) : Result := go s (kPlain e (aluOp e .shl rd rs1 rs2))

/-- SHR (R221). Logical shift right by rs2 bits 4:0. -/
def execShr (e : EngineId) (rd rs1 rs2 : GReg) (s : State) : Result := go s (kPlain e (aluOp e .shr rd rs1 rs2))

/-- SAR (R221). Arithmetic shift right by rs2 bits 4:0. -/
def execSar (e : EngineId) (rd rs1 rs2 : GReg) (s : State) : Result := go s (kPlain e (aluOp e .sar rd rs1 rs2))

/-- LT (R221). 1 where rs1 < rs2, signed, else 0. -/
def execLt (e : EngineId) (rd rs1 rs2 : GReg) (s : State) : Result := go s (kPlain e (aluOp e .lt rd rs1 rs2))

/-- LTU (R221). 1 where rs1 < rs2, unsigned, else 0. -/
def execLtu (e : EngineId) (rd rs1 rs2 : GReg) (s : State) : Result := go s (kPlain e (aluOp e .ltu rd rs1 rs2))

/-- MUL (R221). Low 32 bits of the product. -/
def execMul (e : EngineId) (rd rs1 rs2 : GReg) (s : State) : Result := go s (kPlain e (aluOp e .mul rd rs1 rs2))

/-- MULHS (R221). High 32 bits of the signed product. -/
def execMulhs (e : EngineId) (rd rs1 rs2 : GReg) (s : State) : Result := go s (kPlain e (aluOp e .mulhs rd rs1 rs2))

/-- MULHU (R221). High 32 bits of the unsigned product. -/
def execMulhu (e : EngineId) (rd rs1 rs2 : GReg) (s : State) : Result := go s (kPlain e (aluOp e .mulhu rd rs1 rs2))

/-- DIV (R221, R222). Signed quotient rounded toward zero, saturating. -/
def execDiv (e : EngineId) (rd rs1 rs2 : GReg) (s : State) : Result := go s (kPlain e (aluOp e .div rd rs1 rs2))

/-- DIVU (R221, R222). Unsigned quotient, saturating. -/
def execDivu (e : EngineId) (rd rs1 rs2 : GReg) (s : State) : Result := go s (kPlain e (aluOp e .divu rd rs1 rs2))

/-- REM (R221, R222). Signed remainder, 0 wherever the quotient saturates. -/
def execRem (e : EngineId) (rd rs1 rs2 : GReg) (s : State) : Result := go s (kPlain e (aluOp e .rem rd rs1 rs2))

/-- REMU (R221, R222). Unsigned remainder, 0 on division by zero. -/
def execRemu (e : EngineId) (rd rs1 rs2 : GReg) (s : State) : Result := go s (kPlain e (aluOp e .remu rd rs1 rs2))

/-- ADDI (R223). Sum with the sign-extended immediate. -/
def execAddi (e : EngineId) (rd rs1 : GReg) (v : BitVec 16) (s : State) : Result := go s (kPlain e (immOp e .addi rd rs1 v))

/-- ANDI (R223). AND with the zero-extended immediate. -/
def execAndi (e : EngineId) (rd rs1 : GReg) (v : BitVec 16) (s : State) : Result := go s (kPlain e (immOp e .andi rd rs1 v))

/-- ORI (R223). OR with the zero-extended immediate. -/
def execOri (e : EngineId) (rd rs1 : GReg) (v : BitVec 16) (s : State) : Result := go s (kPlain e (immOp e .ori rd rs1 v))

/-- XORI (R223). XOR with the zero-extended immediate. -/
def execXori (e : EngineId) (rd rs1 : GReg) (v : BitVec 16) (s : State) : Result := go s (kPlain e (immOp e .xori rd rs1 v))

/-- LTI (R223). Signed compare with the sign-extended immediate. -/
def execLti (e : EngineId) (rd rs1 : GReg) (v : BitVec 16) (s : State) : Result := go s (kPlain e (immOp e .lti rd rs1 v))

/-- LTIU (R223). Unsigned compare with the sign-extended immediate. -/
def execLtiu (e : EngineId) (rd rs1 : GReg) (v : BitVec 16) (s : State) : Result := go s (kPlain e (immOp e .ltiu rd rs1 v))

/-- SHLI (R223). Shift left by an immediate amount. -/
def execShli (e : EngineId) (rd rs1 : GReg) (n : Fin 32) (s : State) : Result := go s (kPlain e (shiftOp e .shli rd rs1 n))

/-- SHRI (R223). Logical shift right by an immediate amount. -/
def execShri (e : EngineId) (rd rs1 : GReg) (n : Fin 32) (s : State) : Result := go s (kPlain e (shiftOp e .shri rd rs1 n))

/-- SARI (R223). Arithmetic shift right by an immediate amount. -/
def execSari (e : EngineId) (rd rs1 : GReg) (n : Fin 32) (s : State) : Result := go s (kPlain e (shiftOp e .sari rd rs1 n))

/-- LUI (R223). rd takes the immediate shifted left by 16. -/
def execLui (e : EngineId) (rd : GReg) (v : BitVec 16) (s : State) : Result := go s (kPlain e (luiOp e rd v))

end Sys2Proof.Machine
end

