-- ==== Sys2Proof/Machine/KFloat.lean ====
section
/-!
DEFINITION. The floating-point instructions of KE32 (09, R224, R225).
-/

namespace Sys2Proof.Machine

/-- Fields of FSTAT. -/
def fsFlags : Fld := ⟨0, 4, 0⟩
def fsRm : Fld := ⟨0, 10, 8⟩
def fsTrapEn : Fld := ⟨0, 20, 16⟩

/-- A floating-point register. -/
def Device.f (d : Device) (e : EngineId) (r : GReg) : Word := (d.en e).fr[r.val]

/-- Write a floating-point register. -/
def setFr (e : EngineId) (r : GReg) (v : Word) : Op := modE e fun n => { n with fr := n.fr.set r.val v }

/-- The end of a floating-point instruction (R225): its flags are added to FSTAT; where one is enabled it traps with no
destination written, else the destination is written and the engine goes on. -/
def fpFinish (e : EngineId) (toG : Bool) (rd : GReg) (r : Word × Nat) : Op :=
  ops [modE e fun n => { n with fstat := fsFlags.set (fsFlags.get n.fstat ||| r.2) n.fstat },
    withD fun d =>
      if r.2 &&& fsTrapEn.get (d.en e).fstat ≠ 0 then syncTrap e 0x0E 0
      else both (if toG then setG e rd r.1 else setFr e rd r.1) (nextPc e)]

/-- The effect of an operation of two operands. -/
def fp2Op (e : EngineId) (op : Fp2Op) (rd rs1 rs2 : GReg) : Op :=
  withD fun d => fpFinish e (fp2ToG op) rd (fp2Val op (fsRm.get (d.en e).fstat) (d.f e rs1) (d.f e rs2))

/-- The effect of an operation of one operand. -/
def fp1Op (e : EngineId) (op : Fp1Op) (rd rs1 : GReg) : Op :=
  withD fun d =>
    fpFinish e (fp1ToG op) rd (fp1Val op (fsRm.get (d.en e).fstat) (if fp1FromG op then d.g e rs1 else d.f e rs1))

/-- FADD (R224, R225). Sum, rounded under FSTAT.rm. -/
def execFadd (e : EngineId) (rd rs1 rs2 : GReg) (s : State) : Result := go s (kPlain e (fp2Op e .fadd rd rs1 rs2))

/-- FSUB (R224, R225). Difference, rounded under FSTAT.rm. -/
def execFsub (e : EngineId) (rd rs1 rs2 : GReg) (s : State) : Result := go s (kPlain e (fp2Op e .fsub rd rs1 rs2))

/-- FMUL (R224, R225). Product, rounded under FSTAT.rm. -/
def execFmul (e : EngineId) (rd rs1 rs2 : GReg) (s : State) : Result := go s (kPlain e (fp2Op e .fmul rd rs1 rs2))

/-- FDIV (R224, R225). Quotient, rounded under FSTAT.rm. -/
def execFdiv (e : EngineId) (rd rs1 rs2 : GReg) (s : State) : Result := go s (kPlain e (fp2Op e .fdiv rd rs1 rs2))

/-- FMIN (R224, R225). Quiet minimum; −0 is below +0, a NaN operand gives the default NaN. -/
def execFmin (e : EngineId) (rd rs1 rs2 : GReg) (s : State) : Result := go s (kPlain e (fp2Op e .fmin rd rs1 rs2))

/-- FMAX (R224, R225). Quiet maximum; −0 is below +0, a NaN operand gives the default NaN. -/
def execFmax (e : EngineId) (rd rs1 rs2 : GReg) (s : State) : Result := go s (kPlain e (fp2Op e .fmax rd rs1 rs2))

/-- FCSGN (R224, R225). fs1 with the sign of fs2; no flag. -/
def execFcsgn (e : EngineId) (rd rs1 rs2 : GReg) (s : State) : Result := go s (kPlain e (fp2Op e .fcsgn rd rs1 rs2))

/-- FNSGN (R224, R225). fs1 with the inverse of the sign of fs2; no flag. -/
def execFnsgn (e : EngineId) (rd rs1 rs2 : GReg) (s : State) : Result := go s (kPlain e (fp2Op e .fnsgn rd rs1 rs2))

/-- FXSGN (R224, R225). fs1 with the XOR of both signs; no flag. -/
def execFxsgn (e : EngineId) (rd rs1 rs2 : GReg) (s : State) : Result := go s (kPlain e (fp2Op e .fxsgn rd rs1 rs2))

/-- FCEQ (R224, R225). Quiet equality into a general register. -/
def execFceq (e : EngineId) (rd rs1 rs2 : GReg) (s : State) : Result := go s (kPlain e (fp2Op e .fceq rd rs1 rs2))

/-- FCLT (R224, R225). Quiet less-than into a general register. -/
def execFclt (e : EngineId) (rd rs1 rs2 : GReg) (s : State) : Result := go s (kPlain e (fp2Op e .fclt rd rs1 rs2))

/-- FCLE (R224, R225). Quiet less-or-equal into a general register. -/
def execFcle (e : EngineId) (rd rs1 rs2 : GReg) (s : State) : Result := go s (kPlain e (fp2Op e .fcle rd rs1 rs2))

/-- FCUN (R224, R225). 1 where either operand is a NaN. -/
def execFcun (e : EngineId) (rd rs1 rs2 : GReg) (s : State) : Result := go s (kPlain e (fp2Op e .fcun rd rs1 rs2))

/-- FSQRT (R224, R225). Square root, rounded under FSTAT.rm. -/
def execFsqrt (e : EngineId) (rd rs1 : GReg) (s : State) : Result := go s (kPlain e (fp1Op e .fsqrt rd rs1))

/-- FTOI (R224, R225). Signed integer, rounded under rm, saturating. -/
def execFtoi (e : EngineId) (rd rs1 : GReg) (s : State) : Result := go s (kPlain e (fp1Op e .ftoi rd rs1))

/-- FTOU (R224, R225). Unsigned integer, rounded under rm, saturating. -/
def execFtou (e : EngineId) (rd rs1 : GReg) (s : State) : Result := go s (kPlain e (fp1Op e .ftou rd rs1))

/-- ITOF (R224, R225). From a signed integer, rounded under rm. -/
def execItof (e : EngineId) (rd rs1 : GReg) (s : State) : Result := go s (kPlain e (fp1Op e .itof rd rs1))

/-- UTOF (R224, R225). From an unsigned integer, rounded under rm. -/
def execUtof (e : EngineId) (rd rs1 : GReg) (s : State) : Result := go s (kPlain e (fp1Op e .utof rd rs1))

/-- FMVG (R224, R225). Bits of a floating-point register to a general register. -/
def execFmvg (e : EngineId) (rd rs1 : GReg) (s : State) : Result := go s (kPlain e (fp1Op e .fmvg rd rs1))

/-- FMVF (R224, R225). Bits of a general register to a floating-point register. -/
def execFmvf (e : EngineId) (rd rs1 : GReg) (s : State) : Result := go s (kPlain e (fp1Op e .fmvf rd rs1))

/-- FKIND (R224, R225). Class code of a value. -/
def execFkind (e : EngineId) (rd rs1 : GReg) (s : State) : Result := go s (kPlain e (fp1Op e .fkind rd rs1))

end Sys2Proof.Machine
end

