-- ==== Sys2Proof/Machine/KControl.lean ====
section
/-!
DEFINITION. Branches, jumps and the system instructions of KE32 that access no memory (09, R219, R228, R230 to R232).
-/

namespace Sys2Proof.Machine

/-- The branch predictor learns how a branch or jump resolved: a 2-bit counter that saturates, and the target (R193; the rule of the
counter is the model's, notes/assumptions/86.md). -/
def Engine.learn (n : Engine) (taken : Bool) (target : Word) : Engine :=
  let i := n.pc.toNat / 4 % 512
  let old := (n.predictor.find? fun x => x.1 == i).map (·.2)
  let c := (old.map (·.1)).getD 0
  let new := (if taken then min (c + 1) 3 else c - 1, if taken then target else (old.map (·.2)).getD 0)
  { n with predictor := n.predictor.filter (fun x => x.1 != i) ++ [(i, new)] }

/-- Continue at an address. -/
def jumpTo (e : EngineId) (a : Word) : Op := modE e fun n => { n with pc := a }

/-- The effect of a conditional branch (R228). -/
def branchOp (e : EngineId) (op : BranchOp) (rs1 rs2 : GReg) (off : BitVec 16) : Op :=
  withD fun d =>
    let t := branchTarget (d.en e).pc off
    let taken := branchTaken op (d.g e rs1) (d.g e rs2)
    both (modE e fun n => n.learn taken t) (if taken then jumpTo e t else nextPc e)

/-- The effect of `j`, and of `jal` with its link into g31 (R228). -/
def jumpOp (e : EngineId) (link : Bool) (off : BitVec 26) : Op :=
  withD fun d =>
    let t := jumpTarget (d.en e).pc off
    ops [whenB link (setG e 31 ((d.en e).pc + 4)), modE e fun n => n.learn true t, jumpTo e t]

/-- The effect of `jalr` (R228): a target not aligned traps at the instruction, with rd unchanged. -/
def jalrOp (e : EngineId) (rd rs1 : GReg) (v : BitVec 16) : Op :=
  withD fun d =>
    let t := d.g e rs1 + sext v
    if t.toNat % 4 ≠ 0 then syncTrap e 0x04 t
    else ops [setG e rd ((d.en e).pc + 4), modE e fun n => n.learn true t, jumpTo e t]

/-- BEQ (R228). Branches where the registers are equal. -/
def execBeq (e : EngineId) (rs1 rs2 : GReg) (off : BitVec 16) (s : State) : Result :=
  go s (kPlain e (branchOp e .beq rs1 rs2 off))

/-- BNE (R228). Branches where the registers differ. -/
def execBne (e : EngineId) (rs1 rs2 : GReg) (off : BitVec 16) (s : State) : Result :=
  go s (kPlain e (branchOp e .bne rs1 rs2 off))

/-- BLT (R228). Branches where rs1 is less than rs2, signed. -/
def execBlt (e : EngineId) (rs1 rs2 : GReg) (off : BitVec 16) (s : State) : Result :=
  go s (kPlain e (branchOp e .blt rs1 rs2 off))

/-- BGE (R228). Branches where rs1 is not less than rs2, signed. -/
def execBge (e : EngineId) (rs1 rs2 : GReg) (off : BitVec 16) (s : State) : Result :=
  go s (kPlain e (branchOp e .bge rs1 rs2 off))

/-- BLTU (R228). Branches where rs1 is less than rs2, unsigned. -/
def execBltu (e : EngineId) (rs1 rs2 : GReg) (off : BitVec 16) (s : State) : Result :=
  go s (kPlain e (branchOp e .bltu rs1 rs2 off))

/-- BGEU (R228). Branches where rs1 is not less than rs2, unsigned. -/
def execBgeu (e : EngineId) (rs1 rs2 : GReg) (off : BitVec 16) (s : State) : Result :=
  go s (kPlain e (branchOp e .bgeu rs1 rs2 off))

/-- JAL (R228). Jumps, with the address of the next instruction in g31. -/
def execJal (e : EngineId) (off : BitVec 26) (s : State) : Result := go s (kPlain e (jumpOp e true off))

/-- J (R228). Jumps without a link. -/
def execJ (e : EngineId) (off : BitVec 26) (s : State) : Result := go s (kPlain e (jumpOp e false off))

/-- JALR (R228). Jumps to rs1 plus the immediate and links into rd. -/
def execJalr (e : EngineId) (rd rs1 : GReg) (v : BitVec 16) (s : State) : Result := go s (kPlain e (jalrOp e rd rs1 v))

/-! ### Control registers -/

/-- The value a control register reads as (R219). -/
def Engine.cr (n : Engine) : CReg → Word
  | .estat => n.estat
  | .ecause => n.ecause
  | .epc => n.epc
  | .eaddr => n.eaddr
  | .evbase => n.evbase
  | .ctxid => n.ctxid
  | .fstat => n.fstat
  | .winA x => n.winA[x.val]
  | .winB x => n.winB[x.val]

/-- What a write of FSTAT leaves: an rm of 4 to 7 leaves the field unchanged (table FSTAT). -/
def fstatWrite (old new : Word) : Word :=
  let v := new &&& 0x001F071F
  if 4 ≤ fsRm.get v then fsRm.set (fsRm.get old) v else v

/-- A control register written with a value; ECAUSE and EADDR are read-only (R219, R197, R198). -/
def Engine.setCr (n : Engine) (c : CReg) (v : Word) : Engine :=
  match c with
  | .estat => { n with estat := v &&& 0xFFFF0007 }
  | .ecause | .eaddr => n
  | .epc => { n with epc := v &&& 0xFFFFFFFC }
  | .evbase => { n with evbase := v &&& 0xFFFFF000 }
  | .ctxid => { n with ctxid := v &&& 0x0000FFFF }
  | .fstat => { n with fstat := fstatWrite n.fstat v }
  | .winA x => { n with winA := n.winA.set x.val (winAWrite n.winA[x.val] v) }
  | .winB x => { n with winB := n.winB.set x.val v }

/-- The effect of `mfcr`. -/
def mfcrOp (e : EngineId) (rd : GReg) (c : CReg) : Op := withD fun d => writeG e rd ((d.en e).cr c)

/-- The effect of `mtcr`; of a read-only register it is an illegal instruction (R219, R230). -/
def mtcrOp (e : EngineId) (c : CReg) (rs1 : GReg) : Op :=
  withD fun d =>
    if c.readOnly then syncTrap e 0x01 (encodeKE32 (.mtcr c rs1))
    else both (modE e fun n => n.setCr c (d.g e rs1)) (nextPc e)

/-- The effect of `mtcrm`: the masked bits in one step (R230). -/
def mtcrmOp (e : EngineId) (c : CReg) (rs1 gm : GReg) : Op :=
  withD fun d =>
    if c.readOnly then syncTrap e 0x01 (encodeKE32 (.mtcrm c rs1 gm))
    else
      let m := d.g e gm
      both (modE e fun n => n.setCr c ((n.cr c &&& ~~~m) ||| (d.g e rs1 &&& m))) (nextPc e)

/-- MFCR (R219, R230). Reads a control register of any type. -/
def execMfcr (e : EngineId) (rd : GReg) (c : CReg) (s : State) : Result := go s (kStop e (fun _ => []) (mfcrOp e rd c))

/-- MTCR (R219, R230). Writes a control register. -/
def execMtcr (e : EngineId) (c : CReg) (rs1 : GReg) (s : State) : Result := go s (kStop e (fun _ => []) (mtcrOp e c rs1))

/-- MTCRM (R230). Writes the masked bits of a control register in one step. -/
def execMtcrm (e : EngineId) (c : CReg) (rs1 gm : GReg) (s : State) : Result := go s (kStop e (fun _ => []) (mtcrmOp e c rs1 gm))

/-! ### Traps and waits -/

/-- The effect of `tret` (R230): continue at EPC, ie takes pie, tf is cleared. In a live handler a return to the halt
address halts the engine again (R459). -/
def tretOp (e : EngineId) : Op :=
  withD fun d =>
    let n := d.en e
    both
      (modE e fun n => { n with pc := n.epc, estat := esTf.set 0 (esIe.set (esPie.get n.estat) n.estat) })
      (if n.liveRuns && n.epc == n.haltAt then
        both (modE e fun n => { n with liveRuns := false, halts := (n.halts + 1) % 65536 }) (dbgCause 2)
      else skip)

/-- The effect of `brk` (R232): the breakpoint trap; where a debugger catches it, the engine halts at it (R461). -/
def brkOp (e : EngineId) : Op :=
  withD fun d =>
    if (d.en e).catchBrk && !(d.en e).liveRuns then enterMonitor e 3 0 else syncTrap e 0x02 0

/-- `idle` retires while a masked-in line is pending or an NMI is due (R231). -/
def Device.idleEnds (d : Device) (e : EngineId) : Bool := (d.irqLine e).isSome || (d.en e).nmi

/-- The effect of `idle`: it waits at its own address until it may retire (R231). -/
def idleOp (e : EngineId) : Op := whenD (fun d => d.idleEnds e) (nextPc e)

/-- SYS (R232). The system-call trap, EPC at the instruction. -/
def execSys (e : EngineId) (s : State) : Result := go s (kStop e (fun _ => []) (syncTrap e 0x03 0))

/-- BRK (R232, R461). The breakpoint trap, or the halt of a debugger that catches it. -/
def execBrk (e : EngineId) (s : State) : Result := go s (kStop e (fun _ => []) (brkOp e))

/-- TRET (R230, R459). Returns from a trap. -/
def execTret (e : EngineId) (s : State) : Result := go s (kStop e (fun _ => []) (tretOp e))

/-- IDLE (R231). Waits until an enabled interrupt is pending or an NMI falls due; it retires then even where the
interrupt is taken next, with EPC after it. -/
def execIdle (e : EngineId) (s : State) : Result :=
  go s (kExecIf (fun d => d.engRuns e && (d.en e).miss.isNone && (d.en e).storeErr.isNone && (d.en e).canFetch &&
    (d.idleEnds e || !(d.en e).noMatch)) e true (fun _ => []) (idleOp e))

end Sys2Proof.Machine
end

