-- ==== Sys2Proof/Machine/Speculation.lean ====
section
/-!
DEFINITION. Speculative contexts (05_speculative_contexts.md) and the vertical port (07, R164 to R166), whose requests
a speculation holds.
-/

namespace Sys2Proof.Machine

/-! ### Stalls (R133) -/

/-- Places left among the 16 of R28. -/
def Spec.heldFree (sp : Spec) : Nat := 16 - sp.held.length

/-- The region stalls: the condition's field of RGN_SPECSTAT, stalled, and RGN_SPECEV.stalled (R133). -/
def stallRegion (r : RegionId) (f : Fld) : Op :=
  ops [setF (rgnPg r) f 1, setF (rgnPg r) F.RGN_SPECSTAT.stalled 1, specCause r 3]

/-- Hold a request of the region's fabric; fewer than two places left stall the region (R131, R133). -/
def holdReq (r : RegionId) (q : HeldReq) : Op :=
  ops [modR r fun g => { g with spec := g.spec.map fun sp => { sp with held := sp.held ++ [q] } },
    whenD (fun d =>
      match (d.rg r).spec with
      | some sp => sp.heldFree < 2
      | none => false) (stallRegion r F.RGN_SPECSTAT.held_full)]

/-! ### Opening -/

/-- SPEC_OPEN (R121 to R124). The personality requests an opening: refused where one is open or the held place is taken,
else captured with port class. RGN_SPECCTL.port_en 0 ignores it. -/
def execSpecOpen (r : RegionId) (pred : SlotId) (s : State) : Result :=
  go s <| withD fun d =>
    let g := d.rg r
    if d.running r ∧ d.bit (rgnPg r) F.RGN_SPECCTL.port_en then
      if g.spec.isSome then refuseOpen r 1
      else if g.held.isSome then refuseOpen r 5
      else capture r { cls := .port, slot := pred, opening := some 1 }
    else skip

/-- RGN_SPECPRED.src of a register request (R121). -/
def specSrc : Who → Nat
  | .engine _ => 3
  | _ => 2

/-- A register request is written: it is captured on the second primary edge from here (R122); a later request replaces one that is
not captured yet (notes/assumptions/23.md). -/
def specRequest (r : RegionId) (q : SpecReg) : Op :=
  whenD (fun d => d.running r) (modR r fun g => { g with specReg := some (q, 2) })

/-- SPECCTL_OPEN (R122 to R124, R139). A write of open to RGN_SPECCTL with the predicted slot. -/
def execSpecctlOpen (who : Who) (r : RegionId) (pred : SlotId) (s : State) : Result :=
  go s (byWrite who (rgnPg r) (pageWrite (rgnPg r) (ops [
    whenD (fun d => pred.val < d.depth r) (setF (rgnPg r) F.RGN_SPECCTL.pred_slot pred.val), specRequest r (.opn (specSrc who))])))

/-- SPEC_OPENING_EDGE (R123, R126, R127). Edge 0 of a committed opening: the switch where the predicted slot was not
active, the checkpoint, SPEC_ON; buffering, logging and holding begin. A register opening that still waits is refused: one is open (R124). -/
def execSpecOpeningEdge (r : RegionId) (s : State) : Result :=
  go s <| withD fun d =>
    match (d.rg r).committed with
    | none => skip
    | some q =>
      match q.opening with
      | none => skip
      | some src =>
        let p := rgnPg r
        let prior := d.active r
        ops [modR r fun g => { g with committed := none },
          whenB (prior != q.slot) (switchTo r q.slot q.cls.src q.deferred q.staggered),
          modR r fun g =>
            let ck : Ckpt := { ff := g.ff, arith := g.slots[q.slot.val].arith, pinOut := g.pinOut, pinOe := g.pinOe, bcell := g.bcell }
            { g with spec := some { pred := q.slot, prior := prior, ckpt := ck }, frozen := true, pinHeld := (g.pinOut, g.pinOe),
                     ctxPending := g.held.isSome },
          setF p F.RGN_SPECWIN.cycles 0, clearStall r,
          withD fun d1 => setF p F.RGN_SPECPRED.pred_tag (d1.fld p (fTag q.slot)),
          setF p F.RGN_SPECPRED.src src, setB p F.RGN_SPECPRED.run_ahead (prior == q.slot),
          setF p F.RGN_SPECPRED.prior_slot prior.val, setF p F.RGN_SPECPRED.pred_slot q.slot.val,
          specCause r 0,
          whenD (fun d1 => match (d1.rg r).specReg with
            | some (.opn _, 0) => true
            | _ => false) (both (modR r fun g => { g with specReg := none }) (refuseOpen r 1))]

/-! ### Commit and abort -/

/-- What a speculation held of switch requests is captured on the commit edge (R100, R138): the highest class takes the held place; a
register request of a lower class stays pending, a port request that finds the place taken is lost (R99). A scheduled switch is
late where its edge 0 comes after the first edge at or after its target (R101, R138). -/
def captureHeld (r : RegionId) : Op :=
  withD fun d =>
    let g := d.rg r
    let ports (xs : List SlotId) : Op := forAll xs (portLost r)
    if g.held.isSome then ports g.portWait
    else
      both (modR r fun g => { g with portWait := [], schedDue := false })
        (match g.schedDue, g.armed, g.regReq, g.portWait with
          | true, some (sl, t), _, xs =>
            ops [setF (rgnPg r) F.RGN_SCHED_CTL.arm 0, modR r fun g => { g with armed := none },
              whenB (48 * g.devtime + d.period48 r ≥ 48 * t) (ops [setF (rgnPg r) F.RGN_SCHED_CTL.late 1, ctxCause r 4]),
              capture r { cls := .sched, slot := sl, target := some t }, ports xs]
          | _, _, some sl, xs =>
            ops [setF (rgnPg r) F.RGN_CTXSEL.pend 0, modR r fun g => { g with regReq := none },
              capture r { cls := .reg, slot := sl }, ports xs]
          | _, _, none, x :: xs => both (capture r { cls := .port, slot := x }) (ports xs)
          | _, _, none, [] => skip)

/-- Edge 0 of a commit (R135): the log retires oldest first, held requests are released in order, buffered entries are
committed, immediate lines and pins take their live values, the FIFO views and the checkpoint are released, what the speculation
held of switch requests is captured. -/
def commitSpec (r : RegionId) : Op :=
  withD fun d =>
    match (d.rg r).spec with
    | none => skip
    | some sp =>
      let isVp : HeldReq → Bool
        | .vp .. => true
        | _ => false
      ops [forAll sp.log (retire r),
        modR r fun g => { g with
          spec := none, specReg := none
          border := g.border.map fun e => { e with committed := true }
          outbox := g.outbox ++ sp.held.filter fun q => !isVp q
          vp := g.vp ++ sp.held.filter isVp
          down := g.down.map Fifo.commit, up := g.up.map Fifo.commit },
        thawRegion r, clearStall r, incReg (rgnPg r) R.RGN_SPECCOMMITS, specLast r 1 0 0 sp, specCause r 1, captureHeld r]

/-- SPEC_COMMIT (R122, R135). The personality drives SPEC_COMMIT; with no speculation open it has no effect. A register abort captured on
the same edge is carried out instead, with conflict set. -/
def execSpecCommit (r : RegionId) (s : State) : Result :=
  go s <| whenD (fun d => d.bit (rgnPg r) F.RGN_SPECCTL.port_en) (withD fun d =>
    match (d.rg r).spec, (d.rg r).specReg with
    | some _, some (.abort, 1) =>
      both (specCause r 7) (abortSpec r .abort (Fin.ofNat 8 (d.fld (rgnPg r) F.RGN_SPECCTL.corr_slot)) 1)
    | _, _ => commitSpec r)

/-- SPECCTL_COMMIT (R122, R135, R139). A write of commit to RGN_SPECCTL; the speculation is committed on the second primary edge. -/
def execSpecctlCommit (r : RegionId) (s : State) : Result := go s (pageWrite (rgnPg r) (specRequest r .commit))

/-- SPEC_ABORT (R122, R135, R136). The personality drives SPEC_ABORT with SPEC_CORR; a commit on the same edge, by the port or by
register, is ignored and sets conflict. -/
def execSpecAbort (r : RegionId) (corr : SlotId) (withCommit : Bool) (s : State) : Result :=
  go s <| whenD (fun d => d.bit (rgnPg r) F.RGN_SPECCTL.port_en && (d.rg r).spec.isSome) (withD fun d =>
    both (whenB (withCommit || (d.rg r).specReg == some (.commit, 1)) (specCause r 7)) (abortSpec r .abort corr 0))

/-- SPECCTL_ABORT (R122, R136, R139). A write of abort to RGN_SPECCTL with the corrected slot; the abort is captured on the second
primary edge. -/
def execSpecctlAbort (r : RegionId) (corr : SlotId) (s : State) : Result :=
  go s (pageWrite (rgnPg r) (ops [
    whenD (fun d => corr.val < d.depth r) (setF (rgnPg r) F.RGN_SPECCTL.corr_slot corr.val), specRequest r .abort]))

/-- One primary edge of a pending register request to a speculation (R122, R124): on the second it is captured. A commit or abort with
no speculation open has no effect; an opening is refused where one is open, captured where the held place allows it, and else waits. -/
def specRegEdge (r : RegionId) : Op :=
  withD fun d =>
    match (d.rg r).specReg with
    | none => skip
    | some (q, n + 2) => modR r fun g => { g with specReg := some (q, n + 1) }
    | some (.commit, _) => both (modR r fun g => { g with specReg := none }) (commitSpec r)
    | some (.abort, _) =>
      both (modR r fun g => { g with specReg := none })
        (abortSpec r .abort (Fin.ofNat 8 (d.fld (rgnPg r) F.RGN_SPECCTL.corr_slot)) 1)
    | some (.opn src, _) =>
      if (d.rg r).spec.isSome then both (modR r fun g => { g with specReg := none }) (refuseOpen r 1)
      else if (d.rg r).placeFree .reg ∧ (d.rg r).aborting.isNone ∧ (d.rg r).regReq.isNone then captureOpening r src
      else modR r fun g => { g with specReg := some (.opn src, 0) }

/-- SPEC_WINDOW_FULL (R133). The window count reaches 128, and the region stalls. -/
def execSpecWindowFull (r : RegionId) (s : State) : Result :=
  go s <| whenD (fun d => (d.rg r).spec.isSome)
    (both (setF (rgnPg r) F.RGN_SPECWIN.cycles 128) (stallRegion r F.RGN_SPECSTAT.win_full))

/-- SPEC_STALL_TIMEOUT (R134). The stall cycles reach RGN_SPECWIN.stall_limit: the speculation is aborted to the slot
active before it, and timeout is set. With a limit of 0 a stall never times out. -/
def execSpecStallTimeout (r : RegionId) (s : State) : Result :=
  go s <| withD fun d =>
    let limit := d.fld (rgnPg r) F.RGN_SPECWIN.stall_limit
    if d.bit (rgnPg r) F.RGN_SPECSTAT.stalled ∧ limit ≠ 0 then
      match (d.rg r).spec with
      | some sp =>
        ops [modR r fun g => { g with spec := g.spec.map fun x => { x with stallCycles := limit } },
          specCause r 5, abortSpec r .abort sp.prior 4]
      | none => skip
    else skip

/-- Fewer log entries remain free than the active context has write-enabled block RAM ports (R133). -/
def Device.logShort (d : Device) (r : RegionId) : Bool :=
  match (d.rg r).spec with
  | some sp => 64 < sp.log.length + ((d.rg r).slots[(d.active r).val]).bramWe
  | none => false

/-- The region stalls on a full log (R133). -/
def logStall (r : RegionId) : Op :=
  whenD (fun d => d.logShort r && !(d.bit (rgnPg r) F.RGN_SPECSTAT.log_full)) (stallRegion r F.RGN_SPECSTAT.log_full)

/-- WRITE_LOG_FULL (R130, R133). Block RAM writes of the open speculation, performed while the regional enable is high, go into the write
log; where fewer entries remain free than the active context has write-enabled ports, the region stalls. -/
def execWriteLogFull (r : RegionId) (writes : List BramWrite) (s : State) : Result :=
  go s <| whenD (fun d => (d.rg r).spec.isSome && d.enable r) (both (putWrites r writes) (logStall r))

/-! ### The border commit buffer and the primary edge (R127 to R129, R133, R134) -/

/-- The oldest committed entry that differs from what was last delivered, with the entries after it; equal committed
entries before it are discarded (R128). -/
def drainBorder (last : Nat) : List BorderEntry → Option Nat × List BorderEntry
  | [] => (none, [])
  | e :: es =>
    if e.committed then
      if e.lines = last then drainBorder last es else (some e.lines, es)
    else (none, e :: es)

/-- The border outputs after a primary edge on which the active context drives `lines`: cells register them; buffered lines pass through
the commit buffer, straight while it is empty and no speculation is open; immediate lines are frozen while one is (R77, R127, R128).
`enabled` is an edge with the regional enable high. -/
def Region.borderEdge (g : Region) (c : FabCfg) (lines : Nat) (enabled : Bool) : Region :=
  let lines := lines &&& c.drivenMask
  let buf := c.bufferedMask
  let spec := g.spec.isSome || g.aborting.isSome
  let entries := if (if spec then g.spec.isSome && enabled else !g.border.isEmpty) then
      g.border ++ [{ committed := !spec, lines := lines &&& buf }] else g.border
  let last := g.delivered &&& buf
  let (v, rest) := drainBorder last entries
  let shown := if entries.isEmpty && !spec then lines &&& buf else v.getD last
  { g with bcell := lines &&& c.registeredMask, border := rest
           delivered := mergeBits buf shown (if g.frozen then g.delivered else lines) }

/-- One cycle of a stall that is not a fault hold or a debug halt counts, and the limit aborts the speculation to the slot active before
it (R134, R138). -/
def stallEdge (r : RegionId) : Op :=
  withD fun d =>
    let p := rgnPg r
    let limit := d.fld p F.RGN_SPECWIN.stall_limit
    match (d.rg r).spec with
    | none => skip
    | some sp =>
      if d.bit p F.RGN_SPECSTAT.stalled ∧ ¬ d.bit p F.RGN_HOLD.fault_hold ∧ ¬ (d.rg r).dbgHalt then
        both (modR r fun g => { g with spec := g.spec.map fun x => { x with stallCycles := x.stallCycles + 1 } })
          (whenB (limit != 0 && sp.stallCycles + 1 == limit) (both (specCause r 5) (abortSpec r .abort sp.prior 4)))
      else skip

/-- The window count of an enabled cycle of an open speculation, and the stalls of a full window and a full commit buffer (R133).
RGN_SPECSTAT.buf_full shows whether the buffer is full now. -/
def windowEdge (r : RegionId) (enabled : Bool) : Op :=
  withD fun d =>
    let p := rgnPg r
    if (d.rg r).spec.isNone then skip
    else
      ops [whenB enabled (both (incF p F.RGN_SPECWIN.cycles)
          (whenD (fun d => 128 ≤ d.fld p F.RGN_SPECWIN.cycles) (stallRegion r F.RGN_SPECSTAT.win_full))),
        whenD (fun d => 128 ≤ (d.rg r).border.length && !(d.bit p F.RGN_SPECSTAT.stalled)) (stallRegion r F.RGN_SPECSTAT.buf_full),
        withD fun d => setB p F.RGN_SPECSTAT.buf_full (128 ≤ (d.rg r).border.length)]

/-- One edge of the region's ungated primary clock, beside the fabric (R77, R122, R127 to R129, R133, R134): border cells and the commit
buffer, the counts of an open speculation, a register request. `enabled` is the regional enable as the edge finds it. -/
def primaryEdge (r : RegionId) (lines : Nat) (enabled : Bool) : Op :=
  ops [withD fun d => modR r fun g => g.borderEdge (d.cfg r (d.active r)) lines enabled, stallEdge r, windowEdge r enabled, specRegEdge r]

/-- BORDER_COMMIT_BUFFER_DRAIN (R127 to R129, R133). One primary edge of a running region, on which its personality drives these values on
its border outputs. -/
def execBorderCommitBufferDrain (r : RegionId) (lines : Nat) (s : State) : Result :=
  go s <| withD fun d => whenB (d.running r) (primaryEdge r lines (d.enable r))

/-! ### The vertical port (R164 to R166) -/

/-- The tag of a vertical-port request. -/
def HeldReq.vpTag : HeldReq → Option Nat
  | .vp _ _ t _ _ => some t
  | _ => none

/-- The line of a vertical-port request. -/
def HeldReq.vpLine : HeldReq → Option Nat
  | .vp l _ _ _ _ => some l
  | _ => none

/-- A held write of the same line (R131). -/
def Spec.holdsWrite (sp : Spec) (line : Nat) : Bool :=
  sp.held.any fun q =>
    match q with
    | .vp l w _ _ _ => w && l == line
    | _ => false

/-- The requests of the vertical port without their responses, held ones among them (R164). -/
def Region.vpAll (g : Region) : List HeldReq :=
  g.vp ++ (match g.spec with
    | some sp => sp.held.filter fun q => q.vpTag.isSome
    | none => [])

/-- VP_REQUEST (R164, R165, R28, R131). The personality presents a request with its tag: accepted while VP_READY is 1
and the regional enable is high (R87). While a speculation is open, a write, and a read of a line that a held write
matches, is held. A tag that is reused before its response is what R164 says must not be: a fault. -/
def execVpRequest (r : RegionId) (line : Fin 1048576) (write : Bool) (tag : Fin 32) (be : Nat) (data : List Byte)
    (s : State) : Result :=
  let d := s.dev
  let g := d.rg r
  let q : HeldReq := .vp line.val write tag.val be data
  if d.running r ∧ d.enable r ∧ g.vpAll.length < 32 then
    if g.vpAll.any fun q => q.vpTag == some tag.val then .fault .tagReused
    else
      go s (match g.spec with
        | some sp => if write || sp.holdsWrite line.val then holdReq r q
          else modR r fun g => { g with vp := g.vp ++ [q] }
        | none => modR r fun g => { g with vp := g.vp ++ [q] })
  else .next s

/-- The bytes that a byte-enable mask selects, as (offset in the line, byte). -/
def enabledBytes (be : Nat) (data : List Byte) : List (Nat × Byte) :=
  (List.range 64).filterMap fun i => if be.testBit i then some (i, data.getD i 0) else none

/-- A chunk of the line that the mask covers only in part. -/
def partChunk (be c : Nat) : Bool :=
  let m := be / 2 ^ (32 * c) % 2 ^ 32
  m != 0 && m != 2 ^ 32 - 1

/-- A line write by byte enables at a line of the memory tier (R167, R168): refused with partial_fail where a chunk
covered in part is uncorrectable, else merged; whole chunks get fresh check bits. -/
def lineWrite (v : VaultId) (line be : Nat) (data : List Byte) : Op :=
  withD fun d =>
    let a := vaultBase v.val + 64 * line
    let fresh := [0, 1].filterMap fun c =>
      if be / 2 ^ (32 * c) % 2 ^ 32 = 2 ^ 32 - 1 then some (d.tierCell (a + 32 * c) / 32) else none
    ops [forAll (enabledBytes be data) fun p => setByte (d.tierCell (a + p.1)) p.2, breakResv (a / 64),
      modI fun n => { n with badChunks := n.badChunks.filter fun c => !fresh.contains c }]

/-- A line write meets an uncorrectable chunk that it covers in part (R168). -/
def Device.linePartialBad (d : Device) (v : VaultId) (line be : Nat) : Bool :=
  [0, 1].any fun c => partChunk be c && d.chunkBad (vaultBase v.val + 64 * line + 32 * c)

end Sys2Proof.Machine
end

