-- ==== Sys2Proof/Machine/Network.lean ====
section
/-!
DEFINITION. The tile network (10_tile_network.md): routes and waymarks, the fabric's requests and their injection, the
target queue and its messages, timeouts and retries, router ports, token buckets. The requests of fabrics, and those
that reach the device from another over Guleg, travel as packets; what a packet does at its target, and the delivery of
a response, stand in Machine/NetServe.lean.
-/

namespace Sys2Proof.Machine

/-! ### Errors of a network interface (R252) -/

def modNet (f : List Packet → List Packet) : Op := modI fun n => { n with net := f n.net }

/-- A cause of NI_ERR of network interface `r`; an enabled one raises the summary source of its events page. -/
def niCause (r : RegionId) (i : Nat) : Op :=
  whenD (fun d => !(d.gated (niPg r)) && !(d.inReset (niPg r)))
    (both (setBit (niPg r) R.NI_ERR i)
      (whenD (fun d => d.regBit (niPg r) R.NI_ERR (16 + i)) (raise (8 + r.val / 16) 0)))

/-- The cause of NI_ERR that a status sets: domain_off, route_fault, timeout, bus_err, poison, loading. -/
def statusCause (st : Nat) : Option Nat :=
  if st = 3 then some 0 else if st = 4 then some 1 else if st = 6 then some 2 else if st = 1 then some 3
  else if st = 2 then some 4 else if st = 5 then some 8 else none

/-- NI_ERRSRC and NI_ERRADDR take the last error. -/
def niRecord (r : RegionId) (st kind init router addr : Nat) : Op :=
  ops [setF (niPg r) F.NI_ERRSRC.status st, setF (niPg r) F.NI_ERRSRC.kind kind,
    setF (niPg r) F.NI_ERRSRC.initiator init, setF (niPg r) F.NI_ERRSRC.router router,
    setN64 (niPg r) R.NI_ERRADDR_LO (addr % 2 ^ 48)]

/-- An error status comes back to network interface `r`. -/
def niError (r : RegionId) (st kind init router addr : Nat) : Op :=
  match statusCause st with
  | some i => both (niRecord r st kind init router addr) (niCause r i)
  | none => skip

/-! ### Routes (R238, R240, R241) -/

/-- One hop in the grid: 0 north, 1 east, 2 south, 3 west. -/
def hop (r dir : Nat) : Option Nat :=
  match dir with
  | 0 => if r / 8 < 7 then some (r + 8) else none
  | 1 => if r % 8 < 7 then some (r + 1) else none
  | 2 => if 8 ≤ r then some (r - 8) else none
  | _ => if 0 < r % 8 then some (r - 1) else none

/-- The router port of an exit code. -/
def exitPort (x : Nat) : Nat := if x = 0 then 4 else if x = 1 then 5 else 6

/-- Port `p` of router `n` is disabled (R250). -/
def Device.portOff (d : Device) (n p : Nat) : Bool := d.regBit (320 + n) R.NI_RTRCTL p

/-- Router and exit of a device address (R238, R32); none outside the ranges. -/
def destOf (a : Nat) : Option (Nat × Nat) :=
  if a < 0x100000000 then some (a / 0x4000000, 1)
  else if a < 0x500000000 then some (24, 2)
  else if a < 0x900000000 then some (31, 2)
  else if regBase ≤ a ∧ a < regBase + 0x400000 then some (4, 2)
  else if thermosBase ≤ a ∧ a < thermosBase + 0x400000 then some (32, 2)
  else if flashBase ≤ a ∧ a < flashBase + 0x8000000 then some (39, 2)
  else if hostBase ≤ a ∧ a < 2 * hostBase then some (3, 2)
  else none

/-- This device's number. -/
def Device.devnum (d : Device) : Nat := d.fld 80 F.LNK_DEV.devnum

/-- Router and exit of a fabric's request (R238); none where the fabric does not reach the range: its own vault it reaches by the
vertical port alone (R33). -/
def Device.fabDest (d : Device) (r : RegionId) (q : FabReq) : Option (Nat × Nat) :=
  if q.dev ≠ d.devnum then some (if d.fld (niPg r) F.NI_CTL.link_agent = 0 then 59 else 60, 2)
  else if q.kind = .msg ∨ q.kind = .msgp then some (q.addr % 64, 0)
  else if inTier q.addr then (if q.addr / 0x4000000 = r.val then none else destOf q.addr)
  else if inExt q.addr then destOf q.addr
  else none

/-! ### Responses (R242, R248 to R250) -/

def isPosted (kind : Nat) : Bool := kind == 2 || kind == 4

/-- The response or EVENT that goes back along the recorded way. A posted request that met no error has none. -/
def reply (p : Packet) (st : Nat) (poison : Bool) (data : List Byte) : Op :=
  if isPosted p.kind && st == 0 then skip
  else modNet fun ps =>
    ps ++ [{ p with kind := if isPosted p.kind then 8 else 7, req := p.kind, word := 0, data := data, status := st, poison := poison,
                    dirs := p.rdirs, exit := p.rexit, rdirs := [], out := false }]

/-! ### Fabric requests (R251, R245, R246) -/

/-- The fabric tags in use: requests without a response, responses not yet presented, and requests that wait to be injected
(R246, R393). -/
def Region.tagUsed (g : Region) (t : Fin 32) : Bool :=
  g.pend.any (fun x => x.req.tag == t && !(isPosted x.req.kind.code)) || (g.nrq.any fun x => x.1 == t.val) ||
    g.outbox.any fun h =>
      match h with
      | .net q => q.tag == t && !(isPosted q.kind.code)
      | _ => false

/-- NQ_REQUEST (R251, R28, R131, R246). Taken while the fabric runs and its tag is free, which a posted request does not need; held while a speculation is
open. -/
def execNqRequest (r : RegionId) (q : FabReq) (s : State) : Result :=
  go s <| withD fun d =>
    let g := d.rg r
    if !(d.running r) || !(d.enable r) then skip
    else if g.spec.isSome then holdReq r (.net q)
    else if !(isPosted q.kind.code) && g.tagUsed q.tag then skip
    else modR r fun g => { g with outbox := g.outbox ++ [.net q] }

/-- Class `c` of network interface `r` may inject a flit: it is unregulated, or its bucket holds one and its rate is not 0, which
stalls the class (R245, NI_TB0). -/
def Device.bucketOk (d : Device) (r : RegionId) (c : Fin 4) : Bool :=
  let rate := d.fld (niPg r) (F.NI_TB0.rate.at c.val)
  rate == 256 || (rate != 0 && 0 < (d.rg r).bucket[c.val])

/-- Debit a flit from the bucket of a class. -/
def debit (r : RegionId) (c : Fin 4) : Op :=
  whenD (fun d => d.fld (niPg r) (F.NI_TB0.rate.at c.val) != 256)
    (modR r fun g => { g with bucket := g.bucket.set c.val (g.bucket[c.val] - 1) })

/-- Put the packet of a fabric's request into the network; a request that reaches nothing comes back with BUS_ERR. -/
def sendFab (r : RegionId) (q : FabReq) : Op :=
  withD fun d =>
    let g := d.rg r
    let base : Packet :=
      { kind := q.kind.code, cls := q.cls.val, tag := q.tag.val, src := 0x140 + r.val, dev := q.dev, addr := q.addr,
        be := q.be, word := q.word, data := q.data, pos := r.val, seq := g.netSeq }
    let note (m : Nat) : Op := whenB (!(isPosted q.kind.code))
      (modR r fun g => { g with pend := g.pend ++ [{ req := q, since := d.now, router := m, seq := g.netSeq }] })
    ops [debit r q.cls,
      match d.fabDest r q with
      | some (m, x) =>
        ops [note m, modNet fun ps => ps ++ [{ base with dirs := d.route' r.val m, exit := x }]]
      | none => ops [note r.val, reply base Status.busErr.code false []],
      modR r fun g => { g with netSeq := g.netSeq + 1 }]

/-- The response of the fabric to a MSG that it took (R251). -/
def sendNtRsp (r : RegionId) (id : Nat) (err : Bool) (data : List Byte) : Op :=
  withD fun d =>
    match (d.rg r).taken.find? fun x => x.1 == id with
    | some (_, p) =>
      both (modR r fun g => { g with taken := g.taken.filter fun x => x.1 != id })
        (reply p (if err then 1 else 0) false data)
    | none => skip

/-- The request of the outbox that is injected next: a response first, else the first of the highest class whose first may inject: its
bucket holds a flit and its tag is free (R245, R246). -/
def Device.pickOut (d : Device) (r : RegionId) : Option HeldReq :=
  let g := d.rg r
  let isRsp : HeldReq → Bool
    | .rsp .. => true
    | _ => false
  let ofClass (c : Fin 4) : HeldReq → Bool
    | .net q => q.cls == c
    | _ => false
  let free : HeldReq → Bool
    | .net q => isPosted q.kind.code || !(g.pend.any (fun x => x.req.tag == q.tag) || g.nrq.any fun x => x.1 == q.tag.val)
    | _ => true
  match g.outbox.find? isRsp with
  | some h => some h
  | none => [3, 2, 1, 0].findSome? fun c => ((g.outbox.find? (ofClass c)).filter free).filter fun _ => d.bucketOk r c

/-- PACKET_INJECT (R241, R245, R246). The network interface injects the next request that its bucket lets go; a closing
one injects none (R248). -/
def execPacketInject (r : RegionId) (s : State) : Result :=
  go s <| withD fun d =>
    if d.inn.closing.contains r.val ∨ !(d.domOn r.val) then skip
    else
      match d.pickOut r with
      | some h =>
        both (modR r fun g => { g with outbox := g.outbox.erase h })
          (match h with
          | .net q => sendFab r q
          | .rsp id err data => sendNtRsp r id err data
          | .vp .. => skip)
      | none => skip

/-- TOKEN_BUCKET_REFILL (R245). -/
def execTokenBucketRefill (r : RegionId) (s : State) : Result :=
  go s <| withD fun d =>
    let fill (g : Region) (c : Fin 4) : Nat :=
      min (d.fld (niPg r) (F.NI_TB0.burst.at c.val)) (g.bucket[c.val] + d.fld (niPg r) (F.NI_TB0.rate.at c.val))
    modR r fun g => { g with bucket := Vector.ofFn (fill g) }

/-- A response to the fabric: NR_TAG, NR_STATUS, NR_DATA. With the regional enable low, or others before it, it waits in the port
(R87, R393). -/
def toFabric (r : RegionId) (tag st : Nat) (data : List Byte) : Op :=
  withD fun d =>
    if d.running r && d.enable r && (d.rg r).nrq.isEmpty then emit (.fabric r.val 1 ([tag, st] ++ data.map (·.toNat)))
    else modR r fun g => { g with nrq := g.nrq ++ [(tag, st, data)] }

/-- An edge with the regional enable high presents the oldest response that waits (R87). -/
def presentNr (r : RegionId) : Op :=
  withD fun d =>
    match (d.rg r).nrq with
    | (tag, st, data) :: rest =>
      both (modR r fun g => { g with nrq := rest }) (emit (.fabric r.val 1 ([tag, st] ++ data.map (·.toNat))))
    | [] => skip

/-- REQUEST_TIMEOUT (R244). NI_CTL.tmo has passed without a response: the tag is freed and the fabric receives TIMEOUT. -/
def execRequestTimeout (r : RegionId) (tag : Fin 32) (s : State) : Result :=
  go s <| withD fun d =>
    match (d.rg r).pend.find? fun x => x.req.tag == tag with
    | some x =>
      ops [modR r fun g => { g with pend := g.pend.filter fun x => x.req.tag != tag },
        niError r Status.timeout.code x.req.kind.code (0x140 + r.val) x.router x.req.addr,
        toFabric r tag.val Status.timeout.code []]
    | none => skip

/-- BUSY_RETRY (R239). The request that was answered BUSY or BUSY_TEST is injected again. -/
def execBusyRetry (r : RegionId) (tag : Fin 32) (s : State) : Result :=
  go s <| withD fun d =>
    match (d.rg r).pend.find? fun x => x.req.tag == tag && x.retry with
    | some x =>
      if d.bucketOk r x.req.cls ∧ ¬ d.inn.closing.contains r.val ∧ d.domOn r.val then
        ops [incReg (niPg r) R.NI_BUSYCNT,
          modR r fun g => { g with pend := g.pend.filter fun y => y.req.tag != tag }, sendFab r x.req,
          modR r fun g => { g with pend := g.pend.map fun y => if y.req.tag == tag then { y with since := x.since } else y }]
      else skip
    | none => skip

/-! ### Waymarks and ports (R243, R250) -/

/-- No west move follows a move in another direction. -/
def westFirst : List Nat → Bool
  | [] => true
  | x :: xs => (x == 3 || !(xs.contains 3)) && westFirst xs

/-- No move reverses the one before it. -/
def noReversal : List Nat → Bool
  | x :: y :: xs => !(x != y && x % 2 == y % 2) && noReversal (y :: xs)
  | _ => true

/-- The router at which a route ends, or none where it leaves the grid. -/
def walk : Nat → List Nat → Option Nat
  | r, [] => some r
  | r, x :: xs => (hop r x).bind fun q => walk q xs

/-- The check of a shadow waymark: the code of NI_WMCTL.cause, 0 where it passes (R243). -/
def wmCheck (n m w : Nat) : Nat :=
  let ds := wmDirs w
  if 14 < w / 2 ^ 28 then 1
  else if !(westFirst ds) then 2
  else if !(noReversal ds) then 3
  else match walk n ds with
    | none => 4
    | some k => if k = m then 0 else 5

/-- A write of flip to NI_WMCTL with an entry. -/
def waymarkFlip (r : RegionId) (e : Nat) : Op :=
  pageWrite (niPg r) (withD fun d =>
    let w := d.reg (niPg r) (320 + e)
    let c := wmCheck r.val e w.toNat
    ops [setF (niPg r) F.NI_WMCTL.entry e, setF (niPg r) F.NI_WMCTL.cause c,
      if c = 0 then both (setReg (niPg r) (256 + e) w) (setF (niPg r) F.NI_WMCTL.result 1)
      else both (setF (niPg r) F.NI_WMCTL.result 2) (niCause r 6)])

/-- WAYMARK_FLIP (R243). -/
def execWaymarkFlip (r : RegionId) (e : Fin 64) (s : State) : Result := go s (waymarkFlip r e.val)

/-- A write of NI_RTRCTL.dis (R250). -/
def portDisable (r : RegionId) (dis : Nat) : Op := pageWrite (niPg r) (setF (niPg r) F.NI_RTRCTL.dis dis)

/-- PORT_DISABLE (R250). -/
def execPortDisable (r : RegionId) (dis : BitVec 7) (s : State) : Result := go s (portDisable r dis.toNat)

/-! ### Messages (R249, R251) -/

/-- A message that the fabric does not take: MSG is answered with the status; MSGP is dropped, with an EVENT to its
source. `count` counts a drop at this fabric (R249). -/
def turnAway (r : RegionId) (st : Nat) (count : Bool) (p : Packet) : Op :=
  ops [whenB (count && isPosted p.kind) (both (incReg (niPg r) R.NI_DROPCNT) (niCause r 7)), reply p st false []]

/-- The free NT_ID, if any: a taken MSG keeps its own until it is answered. -/
def Region.freeNt (g : Region) : Option Nat :=
  (List.range 8).find? fun i => !(g.tq.any fun x => x.1 == i) && !(g.taken.any fun x => x.1 == i)

/-- The oldest packet that has left the network for a fabric and is a message. -/
def Device.msgFor (d : Device) (r : RegionId) : Option Packet :=
  d.inn.net.find? fun p => p.out && p.pos == r.val && p.exit == 0 && (p.kind == 3 || p.kind == 4)

/-- MSG_RECEIVE (R249, R251, R481). The message is queued; a full queue answers MSG BUSY and lets MSGP wait, a region test MSG
BUSY_TEST; in load reset and with nt_en 0 it is turned away. -/
def execMsgReceive (r : RegionId) (s : State) : Result :=
  go s <| withD fun d =>
    match d.msgFor r with
    | none => skip
    | some p =>
      let g := d.rg r
      let take := modNet fun ps => ps.erase p
      if g.test then whenB (!(isPosted p.kind)) (both take (reply p Status.busyTest.code false []))
      else if g.loadReset then both take (turnAway r Status.loading.code true p)
      else if !(d.bit (niPg r) F.NI_CTL.nt_en) then both take (turnAway r Status.busErr.code true p)
      else
        match g.freeNt with
        | some i => both take (modR r fun g => { g with tq := g.tq ++ [(i, p)] })
        | none => if isPosted p.kind then skip else both take (reply p Status.busy.code false [])

/-- NT_TAKE (R251). The personality takes the oldest message: NT_ID, NT_SRC, NT_POSTED, NT_WORD, NT_DATA. -/
def execNtTake (r : RegionId) (s : State) : Result :=
  go s <| withD fun d =>
    match (d.rg r).tq with
    | (i, p) :: rest =>
      if d.running r && d.enable r then
        ops [modR r fun g => { g with tq := rest, taken := if isPosted p.kind then g.taken else g.taken ++ [(i, p)] },
          emit (.fabric r.val 2 ([i, p.src, if isPosted p.kind then 1 else 0, p.word.toNat] ++ p.data.map (·.toNat)))]
      else skip
    | [] => skip

/-- NT_RESPONSE (R251, R131). The personality answers a MSG that it took; held while a speculation is open. -/
def execNtResponse (r : RegionId) (id : Fin 8) (err : Bool) (data : List Byte) (s : State) : Result :=
  go s <| withD fun d =>
    let g := d.rg r
    if !(d.running r) || !(d.enable r) || !(g.taken.any fun x => x.1 == id.val) then skip
    else if g.spec.isSome then holdReq r (.rsp id.val err data)
    else sendNtRsp r id.val err data

/-- What the network interface does when load reset is asserted (R249): messages are turned away, the fabric's own
requests are ended and their tags freed; the vault still answers those of the vertical port, too late for the fabric. -/
def niLoadReset (r : RegionId) : Op :=
  withD fun d =>
    ops [forAll ((d.rg r).tq ++ (d.rg r).taken) fun x => turnAway r Status.loading.code true x.2,
      modR r fun g => { g with tq := [], taken := [], pend := [], nrq := [], outbox := [], vp := []
                               vpEnded := g.vpEnded ++ g.vp }]

/-- What the network interface does when it closes (R248): its messages receive DOMAIN_OFF. -/
def niClose (r : RegionId) : Op :=
  withD fun d =>
    ops [forAll ((d.rg r).tq ++ (d.rg r).taken) fun x => turnAway r Status.domainOff.code false x.2,
      modR r fun g => { g with tq := [], taken := [] }]

/-! ### Responses of the vertical port -/

/-- The vault serves a vertical-port request (R164 to R168, R177); `reply` takes VP_ERR, VP_POISON and the bytes. -/
def serveVp (r : RegionId) (line be : Nat) (write : Bool) (data : List Byte) (f0 f1 : Found)
    (reply : Nat → Nat → List Byte → Op) : Op :=
  withD fun d =>
    let a := vaultBase r.val + 64 * line
    let init := 0x140 + r.val
    if write then
      if d.inHamper a then reply 1 0 []
      else
        ops [whenB (partChunk be 0) (chunkFound r (64 * line) 1 init f0),
          whenB (partChunk be 1) (chunkFound r (64 * line + 32) 1 init f1),
          withD fun d1 =>
            if d1.linePartialBad r line be then ops [vltCause r 7, reply 1 0 []]
            else ops [lineWrite r line be data, reply 0 0 []]]
    else
      ops [chunkFound r (64 * line) 1 init f0, chunkFound r (64 * line + 32) 1 init f1,
        withD fun d1 =>
          let poison := (if d1.chunkBad a then 1 else 0) + (if d1.chunkBad (a + 32) then 2 else 0)
          reply 0 poison ((List.range 64).map fun i => d1.tierByte (a + i))]

/-- VP_RESPONSE (R164 to R168, R177, R249). The vault answers the oldest request of a tag: not before an earlier request to the same
line. A write into the hamper range, and a partial write that meets an uncorrectable chunk, end with VP_ERR; a read
returns the line with VP_POISON for each uncorrectable chunk. `f0` and `f1` are what the check of the chunks finds.
The output numbers are: tag, VP_ERR, VP_POISON, then the bytes. The response to a request that a load reset ended is discarded and
counted. -/
def execVpResponse (r : RegionId) (tag : Fin 32) (f0 f1 : Found) (s : State) : Result :=
  go s <| withD fun d =>
    let g := d.rg r
    let late := g.vpEnded.any fun q => q.vpTag == some tag.val
    match (g.vpEnded ++ g.vp).find? (fun q => q.vpTag == some tag.val) with
    | some (.vp line write t be data) =>
      let first := ((g.vpEnded ++ g.vp).find? fun q => q.vpLine == some line) == some (.vp line write t be data)
      if !first || !(late || d.enable r) || (d.vlt r).filling then skip
      else if late then
        both (modR r fun g => { g with vpEnded := g.vpEnded.erase (.vp line write t be data) })
          (serveVp r line be write data f0 f1 fun _ _ _ => both (incReg (niPg r) R.NI_LATECNT) (niCause r 5))
      else
        both (modR r fun g => { g with vp := g.vp.filter fun q => q.vpTag != some tag.val })
          (serveVp r line be write data f0 f1 fun err poison bs =>
            emit (.fabric r.val 0 ([t, err, poison] ++ bs.map (·.toNat))))
    | _ => skip

end Sys2Proof.Machine
end

