-- ==== Sys2Proof/Machine/Loading.lean ====
section
/-!
DEFINITION. Loading personalities (06_personality_loading.md): the Milim image and its checks, verification and
measurement by the steward, sections and their targets, load reset and release, chain streams, border policy; and the
expected signatures of TEST sections (R485).
-/

namespace Sys2Proof.Machine

/-! ### The image (R140 to R142) -/

/-- A little-endian number of `n` bytes at an offset of a byte string. -/
def numAt (bs : List Byte) (off n : Nat) : Nat := Word.natOfBytes ((bs.drop off).take n)

/-- The bytes of a range. -/
def slice (bs : List Byte) (off n : Nat) : List Byte := (bs.drop off).take n

/-- A manifest entry (R141). -/
structure Section where
  kind : Nat
  region : Nat
  index : Nat
  depth : Nat
  offset : Nat
  stored : Nat
  output : Nat
  hash : List Byte
deriving DecidableEq, Repr

def imgKind (b : List Byte) : Nat := numAt b 6 1
def imgGlobal (b : List Byte) : Bool := numAt b 7 1 % 2 == 1
def imgBound (b : List Byte) : Bool := numAt b 7 1 / 2 % 2 == 1
def imgMeas (b : List Byte) : Nat := numAt b 0x0C 1
def imgPort (b : List Byte) : Nat := numAt b 0x0D 1
def imgSections (b : List Byte) : Nat := numAt b 0x0E 2
def imgId (b : List Byte) : Nat := numAt b 0x10 8
def imgVersion (b : List Byte) : Nat := numAt b 0x18 4
def imgLength (b : List Byte) : Nat := numAt b 0x30 8
def imgSigOff (b : List Byte) : Nat := 0x100 + 64 * imgSections b

/-- Entry `i` of the manifest. -/
def sectionOf (b : List Byte) (i : Nat) : Section :=
  let o := 0x100 + 64 * i
  { kind := numAt b o 1, region := numAt b (o + 2) 1, index := numAt b (o + 3) 1, depth := numAt b (o + 4) 1
    offset := numAt b (o + 8) 8, stored := numAt b (o + 0x10) 4, output := numAt b (o + 0x14) 4
    hash := slice b (o + 0x20) 32 }

/-- The sections of an image. -/
def sectionsOf (b : List Byte) : List Section := (List.range (imgSections b)).map (sectionOf b)

/-- The stored bytes of a section, and the regions it names: a set begins with its mask (R141). -/
def secBytes (b : List Byte) (s : Section) : List Byte := slice b s.offset s.stored
def secRegions (b : List Byte) (s : Section) : List RegionId :=
  if s.region = 0x40 then (List.finRange 64).filter fun r => (numAt b s.offset 8).testBit r.val
  else [Fin.ofNat 64 s.region]
def secBody (b : List Byte) (s : Section) : List Byte := if s.region = 0x40 then (secBytes b s).drop 8 else secBytes b s

/-- The device identity, 16 bytes. -/
def uidBytes : List Byte := (List.range 4).flatMap fun i => Word.bytes (Config.uid i)

/-- The area of flash that holds the boot image (15, the flash map). -/
def flashImage : Nat := flashBase + 0x220000
def flashImageSpan : Nat := 0x3DE0000

/-- The check of an image's header (R140, R150): the cause of a rejection, 0 where it passes. `src` as in DEV_LOADSTAT. A length that ends
before the signature block does, or beyond the boot image's area of flash, is refused with the header (notes/assumptions/30.md). -/
def headerCause (b : List Byte) (src : Nat) : Nat :=
  let k := imgKind b
  if numAt b 0 4 ≠ 0x4D494C4D ∨ numAt b 4 2 ≠ 1 ∨ k = 0 ∨ 5 < k ∨ 3 < numAt b 7 1 ∨ numAt b 0x1C 4 ≠ 0 ∨
      imgMeas b < 2 ∨ 9 < imgMeas b ∨ (11 < imgPort b ∧ imgPort b ≠ 0xFF) ∨ imgSections b = 0 ∨ 1024 < imgSections b ∨
      numAt b 0x38 4 ≠ 0x100 ∨ numAt b 0x3C 4 ≠ imgSigOff b ∨ numAt b 0x40 192 ≠ 0 ∨
      imgLength b < imgSigOff b + 3732 ∨ (src = 1 ∧ flashImageSpan < imgLength b) then 1
  else if numAt b 8 2 ≠ 0x2405 ∨ numAt b 0x0A 2 % 2 = 0 then 2
  else if imgBound b ∧ slice b 0x20 16 ≠ uidBytes then 3
  else if (src = 1) ≠ (k = 1) then 7
  else 0

/-- A section type is allowed in an image kind (R141, table Section types). -/
def kindAllows (k t : Nat) : Bool :=
  match t with
  | 1 => k == 1 || k == 2
  | 2 | 3 | 4 => k == 1 || k == 2 || k == 3
  | 5 | 6 => k != 5
  | 7 => k == 5
  | _ => false

/-- Sections overlap. -/
def overlap (s t : Section) : Bool := s.offset < t.offset + t.stored && t.offset < s.offset + s.stored

/-- An entry may name a region: by its number, or as a set, whose mask stands in the section's own bytes and not in the manifest. -/
def Section.mayName (s : Section) (r : Nat) : Bool := s.region == r || s.region == 0x40

/-- The manifest conditions that R147 step 3 checks, from the manifest alone (R142). What a set names is not known yet: it counts as
naming a region where a condition asks for a section of that region; `setRepeats` looks again when its bytes have come
(notes/assumptions/30.md). -/
def manifestOk (b : List Byte) : Bool :=
  let ss := sectionsOf b
  let n := ss.length
  let k := imgKind b
  ss.all (fun s => kindAllows k s.kind && s.offset % 64 == 0 && s.stored ≤ 0x100000 &&
      imgSigOff b + 3732 ≤ s.offset && s.offset + s.stored ≤ imgLength b && s.region ≤ 0x40 &&
      (if s.kind = 2 ∨ s.kind = 5 then s.depth == 2 || s.depth == 4 || s.depth == 8 else s.depth == 0)) &&
    (List.range n).all (fun i => (List.range i).all fun j => !(overlap (sectionOf b i) (sectionOf b j))) &&
    (if k = 1 ∨ k = 2 then (sectionOf b 0).kind == 1 else true) && ((ss.drop 1).all fun s => s.kind != 1) &&
    (List.range n).all fun i =>
      let s := sectionOf b i
      let before := ((List.range i).map (sectionOf b)).filter fun t => t.kind == 2
      if s.kind = 2 then !(s.region != 0x40 && before.any fun t => t.region == s.region)
      else if s.kind = 3 ∨ s.kind = 4 then
        before.any fun t => (s.region == 0x40 || t.mayName s.region) && (s.kind == 4 || s.index < t.depth)
      else true

/-! ### Records and frames (R143, R145) -/

/-- One record: first frame index, further indices, frame. -/
abbrev Rec := Nat × Nat × List Byte

/-- The words of a PACKED frame, from its mask and the bytes that follow. -/
def unpack : Nat → Nat → List Byte → List Byte
  | 0, _, _ => []
  | n + 1, m, bs =>
    if m % 2 = 1 then bs.take 16 ++ unpack n (m / 2) (bs.drop 16) else List.replicate 16 0 ++ unpack n (m / 2) bs

/-- The number of bits set in a mask of `n` bits. -/
def popcount : Nat → Nat → Nat
  | 0, _ => 0
  | n + 1, m => m % 2 + popcount n (m / 2)

/-- The records of a section; none where the stream is malformed (R145). -/
def records : Nat → List (List Byte) → List Byte → Option (List Rec)
  | 0, _, _ => none
  | fuel + 1, hist, bs =>
    if bs.isEmpty then some []
    else if bs.length < 8 then none
    else
      let h := numAt bs 0 8
      let op := h / 2 ^ 60
      let k := h / 2 ^ 56 % 16
      let f := h / 2 ^ 40 % 2 ^ 16
      let run := h / 2 ^ 24 % 2 ^ 16
      let rest := bs.drop 8
      let mask := numAt rest 0 4
      let len := if op = 1 then 512 else if op = 2 then 4 + 16 * popcount 32 mask else 0
      if h % 2 ^ 24 ≠ 0 ∨ rest.length < len then none
      else
        let frame : Option (List Byte) :=
          match op with
          | 1 => some (rest.take 512)
          | 2 => some (unpack 32 mask (rest.drop 4))
          | 3 => some (List.replicate 512 0)
          | 4 => hist[k]?
          | _ => none
        match frame with
        | none => none
        | some fr =>
          let hist' := if op = 1 ∨ op = 2 then (fr :: hist).take 16 else hist
          (records fuel hist' (rest.drop len)).map fun rs => (f, run, fr) :: rs

/-- The frame indices of a record all lie within the range of a section type at a depth (R145, table Frames per target). -/
def frameIn (kind depth f : Nat) : Bool :=
  match kind with
  | 3 => f < 9792 / depth || (0xF000 ≤ f && f < 0xF030)
  | 4 => f < 1728
  | _ => f < hamperStride depth / 512

/-- The records of a SLOT, BRAM or HAMPER section that is well formed (R143, R145). -/
def goodRecords (b : List Byte) (s : Section) (depth : Nat) : Option (List Rec) :=
  let body := secBody b s
  match records (body.length + 1) [] body with
  | none => none
  | some rs =>
    if rs.all (fun r => frameIn s.kind depth r.1 && frameIn s.kind depth (r.1 + r.2.1) && (s.kind != 3 || 0xF000 ≤ r.1 || r.1 + r.2.1 < 0xF000)) &&
        ((rs.map fun r => (r.2.1 + 1) * 512).sum == s.output) &&
        (s.kind != 5 || rs.all fun r => r.1 != 0 || (r.2.2.take 64).all (· == 0)) then some rs
    else none

/-- Write the frames of records; `place` is the address of a frame. -/
def writeFrames (place : Nat → Nat) (w : Nat → List Byte → Op) (rs : List Rec) : Op :=
  forAll rs fun r => forAll (List.range (r.2.1 + 1)) fun i => w (place (r.1 + i)) r.2.2

/-! ### The steward's part (R147, R432, R433) -/

def modStw (f : StwS → StwS) : Op := modI fun n => { n with stw := f n.stw }

/-- Extend a measurement slot by a value (R433). -/
def extendSlot (i : Nat) (x : List Byte) : Op :=
  modStw fun w =>
    let k : Fin 16 := Fin.ofNat 16 i
    { w with slots := w.slots.set k.val (Config.sha3 (w.slots[k.val] ++ x)), seqs := w.seqs.set k.val (w.seqs[k.val] + 1) }

/-- The check of an image's signer, signature and version (R141, R432): the cause of a rejection, 0 where it passes. -/
def Device.signerCause (d : Device) (b : List Byte) : Nat :=
  let o := imgSigOff b
  let key := slice b o 1312
  let h := Config.sha3 key
  let owner := decide (h = d.inn.stw.owner)
  let keyOk := match d.lcs with
    | 0 => true
    | 1 => owner || d.bit 3 F.STW_POLICY.open_any
    | 2 => owner
    | _ => decide (h = Config.analysisKeyHash)
  let k : Fin 8 := Fin.ofNat 8 (imgMeas b - 2)
  if !keyOk then 4
  else if !(Config.sigVerify key (slice b (o + 1312) 2420) (b.take o)) then 5
  else if (d.lcs = 1 ∨ d.lcs = 2) ∧ imgVersion b < d.inn.stw.rollMin[k.val] then 6
  else 0

/-! ### Load state -/

def modL (f : Loader → Loader) : Op := modI fun n => { n with loader := f n.loader }
def Device.ldr (d : Device) : Loader := d.inn.loader

/-- Power control forbids fetches and loads (R114, R397). -/
def Device.forbid (d : Device) : Bool := d.bit 17 F.PWR_DEVSTAT.forbid

/-- DEV_LOADSTAT bits 31:28 and 19:0, the result of a LOAD (11, table Command set). -/
def Device.loadResult (d : Device) : Nat :=
  let w := (d.reg 0 R.DEV_LOADSTAT).toNat
  w / 2 ^ 28 * 2 ^ 28 + w % 2 ^ 20

/-- The LOAD commands whose bytes still wait for the section buffer end: their bytes are taken, or discarded (R148). -/
def endRest : Op :=
  withD fun d => both (forAll d.ldr.rest fun x => endCmds (.bytes x.1) 0 d.loadResult) (modL fun l => { l with rest := [] })

/-- The result of an image that came in a chain is reported (R151). -/
def reportChain : Op := withD fun d => emit (.report (d.reg 0 R.DEV_LOADSTAT))

/-- What stays of the loader when an image closes or another opens: the chain stream. -/
def Loader.chainOnly (l : Loader) : Loader :=
  { ({} : Loader) with chainIn := l.chainIn, chain := l.chain, forwarded := l.forwarded, own := l.own, fwd := l.fwd
                       mute := l.mute, lost := l.lost }

/-- The open image closes: the host commands that carried it end (R269), an image of a chain is reported (R151). -/
def closeImage : Op :=
  withD fun d =>
    ops [endRest, endCmds .load (if d.fld 0 F.DEV_LOADSTAT.state = 3 then 0 else 8) d.loadResult,
      whenB (d.ldr.src == some 2) reportChain, modL Loader.chainOnly]

/-- The host has not sent its last part: what it still sends is discarded. Else the image closes. -/
def endImage : Op :=
  withD fun d =>
    if d.ldr.src = some 0 ∧ ¬ d.ldr.lastIn then both endRest (modL fun l => { l with rejected := true }) else closeImage

/-- The image is rejected (R147, R159). -/
def rejectImage (c : Nat) : Op := ops [setF 0 F.DEV_LOADSTAT.state 4, setF 0 F.DEV_LOADSTAT.cause c, endImage]

/-- A failure of section `i` is recorded for a region (RGN_LOADERR). -/
def regionErr (r : RegionId) (i entry c : Nat) : Op :=
  ops [incSat (rgnPg r) F.RGN_LOADERR.count, setF (rgnPg r) F.RGN_LOADERR.section i,
    setF (rgnPg r) F.RGN_LOADERR.entry entry, setF (rgnPg r) F.RGN_LOADERR.cause c]

/-- A region is failed: it stays in load reset with every slot EMPTY (R156); fetches are no longer refused for its loading (R109). -/
def failRegion (r : RegionId) : Op :=
  withD fun d =>
    ops [forAll ((List.finRange 8).filter fun s => s.val < d.depth r) fun s => setSlot r s slEmpty,
      setF (rgnPg r) F.RGN_INFO.loaded 0, setF (rgnPg r) F.RGN_LOADSTAT.state 4,
      modR r fun g => { g with rel := none, relNow := false, relTree := none, loading := false, ff := [] }]

/-! ### Paths through the network (R238, R241, R250) -/

/-- A packet from router `n` follows `dirs` and leaves by the port of exit `x`, and no port on its way is disabled. -/
def Device.wayOpen (d : Device) (x : Nat) : Nat → List Nat → Bool
  | n, [] => !(d.portOff n (exitPort x))
  | n, t :: ts =>
    !(d.portOff n t) && match hop n t with
      | some m => d.wayOpen x m ts
      | none => false

/-- The way from router `n` to a device address is open. -/
def Device.pathOk (d : Device) (n a : Nat) : Bool :=
  match destOf a with
  | some (m, x) => d.wayOpen x n (d.route' n m)
  | none => true

/-! ### An access to a memory, before its data -/

/-- The 4 KiB block of the thermos that is under test: none while a device-record save suspends the test (R479). -/
def Device.thermosBlock (d : Device) : Option Nat :=
  if d.inn.pow.saving.isSome then none
  else (d.inn.tests.toList.findSome? fun t => t.run.bind fun x => if x.code = 5 ∧ x.abandon.isNone then some x.block else none)

/-- The access waits at its target: a vault that is filling, a key region whose writes stall, a block of the thermos under test (R170,
R331, R479). -/
def Device.memWaits (d : Device) (write : Bool) (a : Nat) : Bool :=
  if inTier a then (d.vlt (Fin.ofNat 64 (a / 0x4000000))).filling
  else if inExt a then write && d.extStalled (extChan a) (extOff a)
  else thermosBase ≤ a && d.thermosBlock == some ((a - thermosBase) / 4096)

/-- The status of an access that its target has accepted, before its data: domains, fences, ranges that may not be written (R108, R248,
R360, R362, R400, R414). Beyond the memories it is a bus error. -/
def Device.memThere (d : Device) (who : Nat) (write : Bool) (a : Nat) : Status :=
  let v : VaultId := Fin.ofNat 64 (a / 0x4000000)
  if inTier a then
    if !(d.domOn (64 + v.val / 8)) then .domainOff
    else if d.fenced (vltPg v) || (write && d.inHamper a) then .busErr
    else .ok
  else if inExt a then (d.extBlocked (extChan a) (extOff a)).getD .ok
  else if thermosBase ≤ a ∧ a < thermosBase + 0x400000 then
    if d.bit 0 F.DEV_CHKSTAT.thermos || (write && a < thermosBase + 0x80000 && who != 0x101) then .busErr else .ok
  else if flashBase ≤ a ∧ a < flashBase + 0x8000000 then
    if write then .busErr
    else if d.bit 40 F.FL_STAT.busy && d.fld 40 F.FL_STAT.plane == (a - flashBase) / 0x4000000 then .busy
    else .ok
  else .busErr

/-- The status of a new access at its target: a closing vault accepts none (R171). -/
def Device.memTarget (d : Device) (who : Nat) (write : Bool) (a : Nat) : Status :=
  if inTier a ∧ (d.vlt (Fin.ofNat 64 (a / 0x4000000))).closing then .domainOff else d.memThere who write a

/-- The status of an access from router `router` before its data: its route, then its target (R250). -/
def Device.memGate (d : Device) (router who : Nat) (write : Bool) (a : Nat) : Status :=
  if d.pathOk router a then d.memTarget who write a else .routeFault

/-! ### Parking an engine (R189) -/

/-- An error that comes back to a request of an engine, of kind `kind` at device address `a`: its network interface records it
(R239, R252). -/
def engNote (e : EngineId) (kind : Nat) (st : Status) (a : Nat) : Op :=
  niError (Fin.ofNat 64 (engRgn e)) st.code kind e.val ((destOf a).elim (engRgn e) (·.1)) a

/-- The write of a whole line by an engine's data cache to its target, `a` its address: an error is one of a retired store
(R202, R206). -/
def writeBack (e : EngineId) (a : Nat) (bs : List Byte) : Op :=
  withD fun d =>
    match d.memGate (engRgn e) e.val true a with
    | .ok => if inTier a then both (writeFresh a bs) (breakResv (a / 64)) else extWriteFull (extChan a) (extOff a) e.val bs .good []
    | st => both (engNote e 1 st a) (storeError e 0x0C (BitVec.ofNat 32 a))

/-- Every dirty line of the data cache can be written back now. -/
def Device.cacheReady (d : Device) (e : EngineId) : Bool := (d.en e).dc.all fun l => !(l.2.dirty && d.memWaits true (64 * l.1))

/-- The end of a park: dirty lines are written back, the caches invalidated, the reservation cleared; g1 to g31, f0 to f31,
ESTAT, ECAUSE, EPC, EADDR and FSTAT are 0 (R189, R219); the engine is PARKED. -/
def parkEnd (e : EngineId) : Op :=
  withD fun d =>
    ops [forAll ((d.en e).dc.filter fun l => l.2.dirty) fun l => writeBack e (64 * l.1) l.2.data,
      clearG e, dropResv e,
      modE e fun n => { n with
        fr := Vector.replicate 32 0, estat := 0, ecause := 0, epc := 0, eaddr := 0, fstat := 0, dc := [], ic := [], sbuf := [], miss := none, fills := [], storeErr := none },
      setF (engPg e) F.ENG_STAT.state esParked, engCause e 4,
      withD fun d1 => endCmds (.park e.val) 0 (d1.engStat e).toNat]

/-- A write of park to ENG_CTL: a running engine or one in MONITOR starts to park; a halted one parks at once, without the wait (R189). -/
def parkWrite (e : EngineId) : Op :=
  withD fun d =>
    let st := d.engState e
    if d.rgnP (engRgn e) ≠ 0 then skip
    else if st = esRunning ∨ st = esMonitor then startPark e
    else if st = esHalted then parkEnd e
    else skip

/-! ### Failed sections (R156, R188) -/

/-- The memories of an engine whose section failed: undefined, with valid check bits, and the engine parks (R156, R188). -/
def failEngine (e : EngineId) : Op :=
  whenD (fun d => d.rgnP (engRgn e) == 0)
    (both (parkWrite e) (withFree fun f =>
      both (setBytes (itcm e.val) ((List.range 0x20000).map fun i => Config.freeByte f i)) (modE e fun n => { n with tcmBad := [] })))

/-- The effect of a failed section on its target (R156), and on DEV_LOADSTAT. A region that this image has not put into load reset is
left as it is. -/
def failSection (i : Nat) (s : Section) (rs : List RegionId) (c : Nat) : Op :=
  ops [setF 0 F.DEV_LOADSTAT.section i, setF 0 F.DEV_LOADSTAT.cause c,
    modL fun l => { l with failed := true },
    match s.kind with
    | 1 => modL fun l => { l with stopped := true }
    | 2 => ops [forAll rs fun r => regionErr r i 0xFF c,
        modL fun l => { l with skipped := l.skipped ++ (rs.map (·.val)).filter fun r => !l.good.contains r }]
    | 3 | 4 => ops [forAll rs fun r => both (regionErr r i 0xFF c) (whenD (fun d => d.ldr.good.contains r.val) (failRegion r)),
        modL fun l => { l with bad := l.bad ++ (rs.map (·.val)).filter l.good.contains }]
    | 5 => ops [forAll rs fun r => both (regionErr r i s.index c) (setF (rgnPg r) F.RGN_LOADSTAT.hamper_busy 0),
        modL fun l => { l with badEntries := l.badEntries ++ rs.map fun r => (r.val, s.index) }]
    | 6 => both (failEngine (Fin.ofNat 256 s.index)) (modL fun l => { l with badEngines := s.index :: l.badEngines })
    | _ => skip]

/-- The targets of a section that are still to be handled: not a region whose REGION section failed, nor one that a later section has
failed, nor a hamper entry whose section failed (R149, R154, R156). -/
def Device.targets (d : Device) (s : Section) (rs : List RegionId) : List RegionId :=
  match s.kind with
  | 3 | 4 => rs.filter fun r => !(d.ldr.skipped.contains r.val) && !(d.ldr.bad.contains r.val)
  | 2 => rs.filter fun r => !(d.ldr.bad.contains r.val)
  | 5 => rs.filter fun r => !(d.ldr.skipped.contains r.val) && !(d.ldr.badEntries.contains (r.val, s.index))
  | _ => rs

/-- A section is skipped: the DEVICE section failed, or none of its targets is left (R149, R154, R156). -/
def Device.secSkipped (d : Device) (s : Section) (rs : List RegionId) : Bool :=
  d.ldr.stopped || (3 ≤ s.kind && s.kind ≤ 5 && (d.targets s rs).isEmpty) || (s.kind == 6 && d.ldr.badEngines.contains s.index)

/-! ### Load reset and release (R154, R155, R510) -/

/-- What a MAC does when its client region, 63 or 62, enters load reset: a frame partly taken is discarded (R356). -/
def macLoadReset (r : RegionId) : Op :=
  let one (x : MacS) : MacS := { x with rx := if x.rxOff = 0 then x.rx else x.rx.drop 1, rxOff := 0, part := none }
  whenB (62 ≤ r.val) (modI fun n => { n with mac := n.mac.set! (63 - r.val) (one (n.mac[63 - r.val]!)) })

/-- What a region holds once load reset is asserted: no request, no speculation, no flip-flop or arithmetic register set, empty FIFOs;
its border outputs keep what was last delivered, its pins what they showed last (R154, R157, R348). `full` for a full load (R510). -/
def Region.loadReset' (g : Region) (full : Bool) : Region :=
  { g with
    held := none, committed := none, regReq := none, portWait := [], schedDue := false, specReg := none, aborting := none, frozen := false
    border := [], bcell := 0, filled := [], ff := [], slots := Vector.replicate 8 {}, activeBad := false, ctxPending := false
    bramOut := [], bramErr := 0, bramColl := 0, pinOut := g.pinLast.1, pinOe := g.pinLast.2
    rel := none, relNow := false, relTree := none, rebuild := false, contend := [], cuts := []
    down := Vector.replicate 32 {}, up := Vector.replicate 32 {}, loadReset := true, loading := true, fullLoad := full }

/-- Load reset is asserted (R154), and riser cuts are released (R83); `full` for a full load (R510). -/
def assertLoadReset (r : RegionId) (full : Bool) : Op :=
  withD fun d =>
    ops [discardSpec r, schedDisarm r, endFetch r 7,
      forAll ((List.finRange 8).filter fun s => s.val < d.depth r) fun s => setSlot r s slEmpty,
      setF (rgnPg r) F.RGN_CTXSEL.pend 0, modR r fun g => g.loadReset' full,
      niLoadReset r, macLoadReset r, clearRange (bramBase r.val) bramSpan, setF (rgnPg r) F.RGN_INFO.loaded 0,
      setF (rgnPg r) F.RGN_RISERCUT.cut_active 0, setF (rgnPg r) F.RGN_RISERCUT.count 0]

/-- The REGION section's values take effect (R154); a larger hamper first has its added headers written, and a growth that was in
progress is given up (R107; notes/assumptions/81.md). Border policies, terminations and taps wait for the release (R157). -/
def applyRegion (r : RegionId) (b : RegionBody) (dep : Nat) : Op :=
  withD fun d =>
    let p := rgnPg r
    let old := d.fld p F.RGN_HAMPER.size
    ops [setF p F.RGN_INFO.depth dep, setF p F.RGN_INFO.pri_tree b.priTree, setF p F.RGN_INFO.sec_tree b.secTree,
      setB p F.RGN_INFO.sec_en b.secEn, setF p F.RGN_CTXCFG.fault_policy b.faultPolicy,
      setF p F.RGN_CTXCFG.stop_slot b.stopSlot, setB p F.RGN_CTXCFG.stop_en b.stopEn,
      setF p F.RGN_CTXCFG.safe_slot b.safeSlot, setB p F.RGN_CTXCFG.safe_en b.safeEn,
      forAll (List.finRange 8) fun s => setSlot r s (if s.val < dep then slEmpty else slNone),
      setHamper r (min old b.hamperSize),
      modR r fun g => { g with startSlot := Fin.ofNat 8 b.startSlot, confidential := b.confidential, newPol := b.linePol, newTerm := b.term
                               newPads := (b.drive, b.slew)
                               taps := b.taps, grow := if b.hamperSize ≤ old then none else some b.hamperSize },
      setF p F.RGN_LOADSTAT.state 1, setF p F.RGN_LOADSTAT.sections 1]

/-- The registers that a rebuilt or loaded region is released into: the start slot is ACTIVE, flip-flops take their
initial values, the fabric runs (R155). -/
def releaseRegion (r : RegionId) (start : SlotId) : Op :=
  withD fun d =>
    let p := rgnPg r
    let init := initBits (d.ctxCells r start)
    ops [setSlot r start slActive, setF p F.RGN_CTXSTAT.active_slot start.val,
      setF p F.RGN_CTXSTAT.active_tag (d.fld p (fTag start)), setF p F.RGN_CTXSTAT.last_src 7,
      setF p F.RGN_INFO.loaded 1, setF p F.RGN_LOADSTAT.state 3,
      modR r fun g => { g with ff := init, loadReset := false, loading := false, fullLoad := false, ctxSwitched := true, rel := none
                               relNow := false, relTree := none, rebuild := false, activeBad := false }]

/-! ### The checks of a context (R125, R144, R158) -/

/-- The cells of a context in a hamper entry, in the order of a slot's. -/
def Device.entryCells (d : Device) (r : RegionId) (dep e : Nat) : List (Nat × Byte) :=
  let a := hamperEntry r.val dep e + 64
  d.tierCells a (contextSize dep) ++ (d.tierCells (a + contextSize dep) 24576).map fun c => (c.1 + settingsOff, c.2)

/-- The checks of a context: descriptor and its counts, both ends of a shared riser, private flip-flops on the secondary tree, a closed
carry path, the conditions of the speculable bit (R66, R69, R80, R125, R144, R158). `dsc` are the 64 bytes of its descriptor. -/
def contextCause (dsc : List Byte) (cells : List (Nat × Byte)) (dep : Nat) : Nat :=
  let flags := numAt dsc 2 1
  let we := numAt dsc 4 1
  let buf := numAt dsc 6 2
  let c := Config.fabric cells dep
  if 1 < flags ∨ numAt dsc 5 1 ≠ 0 ∨ numAt dsc 8 56 ≠ 0 ∨ 192 < we ∨ 2048 < buf ∨ we ≠ c.writePorts ∨ buf ≠ c.bufferedLines then 0x0A
  else if numAt dsc 3 1 ≠ dep then 0x0C
  else if c.contends then 0x0D
  else if c.privateSecondary dep then 0x0E
  else if c.carryCloses then 0x0F
  else if flags = 1 ∧ (64 < we ∨ 512 < buf ∨ c.unregistered) then 0x10
  else 0

/-- A section of the image at index `j` or later may be one of these kinds for a region (R142, R155). -/
def laterMay (b : List Byte) (j : Nat) (r : RegionId) (p : Section → Bool) : Bool :=
  (List.range (imgSections b)).any fun i => j ≤ i && p (sectionOf b i) && (sectionOf b i).mayName r.val

/-- Regions that the image loads: their REGION section passed, and no later section of theirs has failed. -/
def Device.loadingRegions (d : Device) : List RegionId :=
  (List.finRange 64).filter fun r => d.ldr.good.contains r.val && !(d.ldr.bad.contains r.val) && (d.rg r).loading

/-- The slots that the sections so far have filled, whose last section it was: none from index `j` on may fill them (R142, R154). -/
def Device.filledSlots (d : Device) (j : Nat) : List (RegionId × SlotId × Nat) :=
  d.loadingRegions.flatMap fun r => (d.rg r).filled.filterMap fun x =>
    if d.slot r x.1 = slEmpty ∧ ¬ laterMay d.ldr.bytes j r (fun t => t.kind == 3 && t.index == x.1.val) then some (r, x.1, x.2) else none

/-- The cause with which a filled slot's context fails its checks, 0 where it passes. -/
def Device.slotCause (d : Device) (r : RegionId) (sl : SlotId) : Nat :=
  contextCause (d.bytes (slotBase r.val sl.val + settingsOff) 64) (d.ctxCells r sl) (d.depth r)

/-- Filled slots are checked: RESIDENT, or their section's targets fail, the whole set where it names one (R154, R156, R158). The
flip-flops of a held region show its start context's initial values (R154). -/
def checkSlots (j : Nat) : Op :=
  withD fun d =>
    let xs := d.filledSlots j
    ops [forAll xs fun x =>
        let c := d.slotCause x.1 x.2.1
        let t := sectionOf d.ldr.bytes x.2.2
        whenB (c != 0) (withD fun d1 => failSection x.2.2 t (d1.targets t (secRegions d.ldr.bytes t)) c),
      forAll xs fun x => whenD (fun d1 => d1.loadingRegions.contains x.1)
        (ops [setSlot x.1 x.2.1 slResident, initSlot x.1 x.2.1,
          whenD (fun d1 => (d1.rg x.1).startSlot == x.2.1)
            (modR x.1 fun g => { g with ff := initBits (d.ctxCells x.1 x.2.1) })])]

/-- Regions of which no section from index `j` on may come wait for release: on their own next edge, or together where the image asks for
it and is no partial one (R155). -/
def markReleases (j : Nat) : Op :=
  withD fun d =>
    let b := d.ldr.bytes
    let together := imgGlobal b && imgKind b != 3
    forAll (d.loadingRegions.filter fun r => (d.rg r).rel.isNone && !(laterMay b j r fun t => t.kind == 2 || t.kind == 3 || t.kind == 4)) fun r =>
      both (modR r fun g => { g with rel := some (imgId b), relSec := j - 1, relNow := !together })
        (whenB together (setF (rgnPg r) F.RGN_LOADSTAT.state 2))

/-! ### Taking an image (R147, R148, R269) -/

/-- Bytes of an image arrive; its header is checked once it has come. A chain is broken where the header of the device's own image cannot be
parsed: the rest of the stream is dropped (R151). -/
def takeBytes (bs : List Byte) : Op :=
  both (modL fun l => { l with bytes := l.bytes ++ bs })
    (withD fun d =>
      let l := d.ldr
      if l.headerOk ∨ l.rejected ∨ l.bytes.length < 256 then skip
      else
        let c := if d.forbid then 0x11 else headerCause l.bytes (l.src.getD 0)
        if c = 0 then modL fun l => { l with headerOk := true }
        else if c = 1 ∧ l.src = some 2 then
          both (modL fun l => { l with chain := none, chainIn := [], own := [], fwd := [], forwarded := false, mute := false, lost := true })
            (rejectImage 0x13)
        else rejectImage c)

/-- Bytes that the loader takes of its source now: the header, the manifest and signature block, and the sections at hand, as far as the
two halves of the section buffer hold them (R148). -/
def Loader.room (l : Loader) : Nat :=
  let b := l.bytes
  let endOf (j : Nat) : Nat :=
    if j < imgSections b then min (imgLength b) ((sectionOf b j).offset + (sectionOf b j).stored) else imgLength b
  if b.length < 256 then 256 - b.length
  else if b.length < imgSigOff b + 3732 then imgSigOff b + 3732 - b.length
  else max (endOf l.idx) (endOf (l.idx + 1)) - b.length

/-- Every byte of the image has been taken. -/
def Loader.whole (l : Loader) : Bool := 256 ≤ l.bytes.length && imgLength l.bytes ≤ l.bytes.length

/-- The loader takes bytes of the LOAD commands that wait; a command ends once all of its bytes are taken, and what follows the image is
dropped (R148, R269). -/
def pullHost : Op :=
  withD fun d =>
    let l := d.ldr
    match l.rest with
    | [] => skip
    | (cid, bs) :: more =>
      let n := min l.room bs.length
      if n = bs.length ∨ l.whole then
        ops [modL fun l => { l with rest := more }, takeBytes (bs.take n), withD fun d1 => endCmds (.bytes cid) 0 d1.loadResult]
      else both (modL fun l => { l with rest := (cid, bs.drop n) :: more }) (takeBytes (bs.take n))

/-- The loader takes bytes of the boot image (R150). -/
def pullFlash : Op :=
  withD fun d => takeBytes (d.bytes (flashImage + d.ldr.bytes.length) (min d.ldr.room (flashImageSpan - d.ldr.bytes.length)))

/-- The length of the image at the head of chain bytes, once its header has come. -/
def chainOwn (b : List Byte) : Option Nat := if b.length < 256 then none else some (imgLength b)

/-- The image that a chain stream carries next is complete. -/
def chainDone (l : Loader) : Bool := 256 ≤ l.own.length && imgLength l.own ≤ l.own.length

/-- The chain bytes that belong to the device's own image go to the loader, as far as it takes them, while it handles that image; else
they are dropped (R148, R151). -/
def pullChain : Op :=
  withD fun d =>
    let l := d.ldr
    if l.chain.isNone ∨ chainDone l then skip
    else
      let all := l.own ++ l.chainIn
      let left := (chainOwn all).getD 256 - l.own.length
      let want := if l.src = some 2 then min left l.room else left
      both (modL fun l => { l with chainIn := l.chainIn.drop want, own := l.own ++ l.chainIn.take want })
        (whenB (l.src == some 2) (takeBytes (l.chainIn.take want)))

/-- The loader takes what its source offers and its buffer holds: at most the header, then the manifest, then sections, of each part that
waits. -/
def takeMore : Op :=
  withD fun d =>
    forAll (List.range (d.ldr.rest.length + 3)) fun _ => withD fun d1 =>
      if d1.ldr.rejected then skip
      else
        match d1.ldr.src with
        | some 0 => pullHost
        | some 1 => pullFlash
        | _ => pullChain

/-- The section at hand has been handled: its slots and regions go on (R154, R155), a half of the buffer is free for the source. -/
def nextSection : Op :=
  withD fun d =>
    let j := d.ldr.idx + 1
    ops [checkSlots j, markReleases j, modL fun l => { l with idx := j, writing := false }, takeMore]

/-- An image begins. -/
def openImage (src queue chainPos : Nat) : Op :=
  ops [modL fun l => { l.chainOnly with src := some src, queue := queue },
    setReg 0 R.DEV_LOADSTAT 0, setF 0 F.DEV_LOADSTAT.state 1, setF 0 F.DEV_LOADSTAT.src src,
    setF 0 F.DEV_LOADSTAT.chain_pos chainPos]

/-- IMAGE_VERIFIED (R147, R23, R510). Header, manifest and signature block have come: the steward checks signer,
signature and version and extends the manifest's hash into meas_slot; the loader checks the manifest. A full image puts
every region in P0 into load reset. -/
def execImageVerified (s : State) : Result :=
  go s <| withD fun d =>
    let l := d.ldr
    let b := l.bytes
    if l.src = none ∨ l.rejected ∨ !l.headerOk ∨ l.verified ∨ b.length < imgSigOff b + 3732 then skip
    else if d.forbid then rejectImage 0x11
    else
      let c := d.signerCause b
      if c ≠ 0 then rejectImage c
      else
        ops [extendSlot (imgMeas b) (Config.sha3 (slice b 0x100 (64 * imgSections b))),
          modStw fun w => { w with lastVer := w.lastVer.set (Fin.ofNat 8 (imgMeas b - 2)).val (some (imgVersion b)) },
          if !(manifestOk b) then rejectImage 8
          else
            ops [modL fun l => { l with verified := true }, setF 0 F.DEV_LOADSTAT.state 2,
              setN 0 R.DEV_LOADID (imgId b),
              whenB (imgKind b == 2)
                (forAll ((List.finRange 64).filter fun r => d.rgnP r.val == 0) fun r =>
                  both (assertLoadReset r true) (setF (rgnPg r) F.RGN_LOADSTAT.state 0))]]

/-- The abandonment of the image in progress (R159, R160): the section being written fails with cause 0x11; a region whose sections have
not all been written, and one that waits for global release, is failed; one that only awaits its own edge is released. -/
def abandonImage : Op :=
  withD fun d =>
    let l := d.ldr
    if l.src = none ∨ l.rejected then skip
    else
      let t := sectionOf l.bytes l.idx
      ops [whenB l.writing (failSection l.idx t (d.targets t (secRegions l.bytes t)) 0x11),
        withD fun d1 => forAll (d1.loadingRegions.filter fun r => !(d1.rg r).relNow) fun r =>
          both (failRegion r) (setF (rgnPg r) F.RGN_LOADERR.cause 0x11),
        setF 0 F.DEV_LOADSTAT.state 6, setF 0 F.DEV_LOADSTAT.cause 0x11, endImage]

/-! ### Sections (R148, R149, R152, R153, R188, R365) -/

/-- The route of LOAD_MC packets to a region meets no disabled port: along row 0 from router 2, then north (R245, R250). -/
def Device.loadPathOk (d : Device) (r : RegionId) : Bool :=
  let col := r.val % 8
  let row0 := List.range 8
  let east := row0.all fun c => !(2 ≤ c && c < col && d.portOff c 1)
  let west := row0.all fun c => !(col < c && c ≤ 2 && d.portOff c 3)
  let north := (List.range 8).all fun y => !(y < r.val / 8 && d.portOff (8 * y + col) 0)
  east && west && north && !(d.portOff 2 6)

/-- The image may still release a region: its REGION section passed, or may yet come, and nothing of it has failed (R152). -/
def Device.willRelease (d : Device) (b : List Byte) (r : RegionId) : Bool :=
  !(d.ldr.bad.contains r.val) && (d.ldr.good.contains r.val || laterMay b d.ldr.idx r fun t => t.kind == 2)

/-- The depth of a region for a HAMPER section: the one that the image gives it, where the image is to release it (R153). -/
def Device.hamperDepth (d : Device) (b : List Byte) (r : RegionId) : Nat :=
  if d.ldr.good.contains r.val then d.depth r
  else
    match (sectionsOf b).find? fun t => t.kind == 2 && (t.region == r.val || (t.region == 0x40 && d.fld (rgnPg r) F.RGN_LOADSTAT.state != 3)) with
    | some t => t.depth
    | none => d.depth r

/-- Why a section cannot be handled now, beside its hash: the cause of R159, 0 where it can. -/
def Device.targetCause (d : Device) (b : List Byte) (s : Section) (rs : List RegionId) : Nat :=
  match s.kind with
  | 1 => if (Config.deviceBody (secBytes b s)).div.any fun n => decide (n < gradeMin) then 0x14 else 0
  | 2 =>
    let body := Config.regionBody (secBody b s)
    let starts (r : RegionId) : Bool := (sectionsOf b).any fun t => t.kind == 3 && t.index == body.startSlot && t.mayName r.val
    let again (r : RegionId) : Bool := d.ldr.good.contains r.val || d.ldr.skipped.contains r.val
    if rs.any fun r => again r || d.rgnP r.val ≠ 0 || d.rgnMoving r.val || d.fenced (rgnPg r) || !(d.loadPathOk r) then 0x0B
    else if body.depth ≠ s.depth ∨ !(rs.all starts) then 0x0C
    else 0
  | 3 | 4 =>
    if rs.any fun r => !(d.ldr.good.contains r.val) || !(d.rg r).loadReset || !(d.loadPathOk r) then 0x0B
    else if rs.any fun r => (goodRecords b s (d.depth r)).isNone then 0x0A
    else if s.kind = 3 ∧ rs.any fun r => decide (d.depth r ≤ s.index) then 0x0C
    else 0
  | 5 =>
    let ready (r : RegionId) : Bool := d.willRelease b r ||
      (!(d.ldr.good.contains r.val) && (d.fld (rgnPg r) F.RGN_LOADSTAT.state == 3 || (d.rgnP r.val == 2 && (d.inn.pow.shadow[r.val]).isSome)))
    let entries (r : RegionId) : Nat :=
      if s.depth = d.depth r then d.fld (rgnPg r) F.RGN_HAMPER.entries else hamperEntries (d.fld (rgnPg r) F.RGN_HAMPER.size) s.depth
    if rs.any fun r => !(d.domOn (64 + r.val / 8)) || d.inn.closing.contains (64 + r.val / 8) || d.fenced (vltPg r) ||
        !(d.loadPathOk r) || d.portOff r.val 5 || !(ready r) then 0x0B
    else if rs.any fun r => d.hamperDepth b r ≠ s.depth || entries r ≤ s.index then 0x0C
    else if (goodRecords b s s.depth).isNone then 0x0A
    else 0
  | 6 =>
    let e : EngineId := Fin.ofNat 256 s.index
    if d.rgnP (engRgn e) ≠ 0 || d.fenced (engPg e) then 0x0B
    else if 0x20000 < s.output ∨ 0x20000 < s.stored then 0x0A
    else 0
  | _ =>
    let body := secBytes b s
    if body.length % 32 ≠ 0 ∨ (List.range (body.length / 32)).any (fun i =>
        let dep := numAt body (32 * i + 1) 1
        numAt body (32 * i + 4) 4 == 0 || !(dep == 2 || dep == 4 || dep == 8)) then 0x0A else 0

/-- What a section that has passed its checks does before its frames are written: a HAMPER entry's valid bit is cleared,
an engine is parked (R153, R188). -/
def beginSection (s : Section) (rs : List RegionId) : Op :=
  ops [modL fun l => { l with writing := true },
    match s.kind with
    | 2 => modL fun l => { l with good := l.good ++ rs.map (·.val) }
    | 5 => forAll rs fun r => ops [setF (rgnPg r) F.RGN_LOADSTAT.hamper_busy 1,
        setF (rgnPg r) F.RGN_LOADSTAT.entry s.index,
        writeFresh (hamperEntry r.val s.depth s.index) (List.replicate 64 0)]
    | 6 => parkWrite (Fin.ofNat 256 s.index)
    | _ => skip]

/-- A fetch of the entry of a HAMPER section is in progress: the loader waits (R153). -/
def Device.entryFetched (d : Device) (s : Section) (rs : List RegionId) : Bool :=
  s.kind == 5 && rs.any fun r =>
    match (d.rg r).fetch with
    | some f => f.entry == s.index
    | none => false

/-- The host has sent its last part, and the loader has taken it all: what the image still lacks never comes. -/
def Loader.ended (l : Loader) : Bool := l.src == some 0 && l.lastIn && l.rest.isEmpty

/-- SECTION_RECEIVED (R148, R149, R152, R153, R160). The next section's whole stored length has come: its hash and its
target are checked, and writing begins; or it fails, or is skipped. A section that the host's last part leaves incomplete fails its hash
(notes/assumptions/30.md). -/
def execSectionReceived (s : State) : Result :=
  go s <| withD fun d =>
    let l := d.ldr
    let b := l.bytes
    let x := sectionOf b l.idx
    let whole : Bool := decide (x.offset + x.stored ≤ b.length)
    let rs := d.targets x (secRegions b x)
    if l.src = none ∨ l.rejected ∨ !l.verified ∨ l.writing ∨ imgSections b ≤ l.idx ∨ (!whole ∧ !l.ended) then skip
    else if d.forbid then abandonImage
    else if d.secSkipped x (secRegions b x) then nextSection
    else if !whole ∨ Config.sha3 (secBytes b x) ≠ x.hash then both (failSection l.idx x rs 9) nextSection
    else if d.entryFetched x rs ∨ ((x.kind = 2 ∨ x.kind = 5) ∧ rs.any fun r => (d.rg r).test) then skip
    else
      let c := d.targetCause b x rs
      if c = 0 then beginSection x rs else both (failSection l.idx x rs c) nextSection

/-- LOAD_RESET_ASSERT (R154). On the region's first primary edge after its REGION section passed. -/
def execLoadResetAssert (r : RegionId) (s : State) : Result :=
  go s <| withD fun d =>
    let l := d.ldr
    let x := sectionOf l.bytes l.idx
    if l.writing ∧ x.kind = 2 ∧ (secRegions l.bytes x).contains r ∧ d.rgnP r.val = 0 then
      assertLoadReset r (imgKind l.bytes == 2 || imgKind l.bytes == 1)
    else skip

/-- A SLOT section is written into one region. Frames that no record of the slot's sections writes are zero (notes/assumptions/82.md). -/
def writeSlot (b : List Byte) (i : Nat) (x : Section) (r : RegionId) : Op :=
  withD fun d =>
    let sl : SlotId := Fin.ofNat 8 x.index
    let base := slotBase r.val sl.val
    let place (f : Nat) : Nat := if 0xF000 ≤ f then base + settingsOff + 512 * (f - 0xF000) else base + 512 * f
    ops [whenB (!((d.rg r).filled.any fun y => y.1 == sl)) (clearRange base slotSpan),
      modR r fun g => { g with filled := (sl, i) :: g.filled.filter fun y => y.1 != sl },
      writeFrames place setBytes ((goodRecords b x (d.depth r)).getD [])]

/-- A HAMPER section is written into one region's entry: every byte of it, with fresh check bits; the header is written
after the context passes its checks (R153). -/
def writeEntry (b : List Byte) (i : Nat) (x : Section) (r : RegionId) : Op :=
  let a := hamperEntry r.val x.depth x.index
  let stride := hamperStride x.depth
  ops [tierClear a stride,
    withD fun d =>
      let cs := (chunksOf a stride).map fun c => d.tierCell c / 32
      modI fun n => { n with badChunks := n.badChunks.filter fun c => !cs.contains c },
    writeFrames (fun f => a + 512 * f) tierWrite ((goodRecords b x x.depth).getD []),
    withD fun d =>
      let dsc := (List.range 64).map fun k => d.tierByte (a + 64 + contextSize x.depth + k)
      let c := contextCause dsc (d.entryCells r x.depth x.index) x.depth
      if c = 0 then
        both (writeFresh a (entryHeader true x.depth (numAt dsc 0 2) (imgId b))) (setF (rgnPg r) F.RGN_LOADSTAT.hamper_busy 0)
      else failSection i x [r] c]

/-- An ENGINE section is written: instruction memory, then data memory from output offset 0x1_0000, zeros beyond
(R188); its hash is measured into slot 1 (R142). -/
def writeEngine (b : List Byte) (x : Section) : Op :=
  let e : EngineId := Fin.ofNat 256 x.index
  ops [clearRange (itcm e.val) 0x20000, setBytes (itcm e.val) (secBytes b x),
    modE e fun n => { n with tcmBad := [] }, extendSlot 1 x.hash,
    modL fun l => { l with engines := l.engines ++ [e.val] }]

/-- A DEVICE section takes effect (R365, R343, R348, R88): each tree's divider; a tree on OSC_F switches to KROOT where
group 0 is on it; reset-tree sources, banks. -/
def writeDevice (b : DeviceBody) : Op :=
  ops [forAll (List.finRange 4) fun t =>
      match b.div[t.val]? with
      | some n => ops [setF 14 (F.CLK_GRP1.div.at t.val) n, setF 14 (F.CLK_GRP1.divmin.at t.val) n,
          whenD (fun d => !(d.onOscf 0) && d.onOscf t.succ && !(d.bit 14 (fGrpPend t.succ)))
            (ops [setB 14 (fSrc t.succ) false, setF 14 (fGrpPend t.succ) 1, switchDone t.succ])]
      | none => skip,
    modI fun n => { n with rstSrc := b.rstSrc, vccio := b.vccio },
    forAll (List.finRange 10) fun k =>
      match b.standby[k.val]? with
      | some m => setF (ioPg k) F.IO_STBY.mode m
      | none => skip,
    modL fun l => { l with tree := b.releaseTree }]

/-- A TEST section's entries replace those held for their regions and depths (R485). -/
def writeTest (body : List Byte) : Op :=
  forAll (List.range (body.length / 32)) fun i =>
    let e := slice body (32 * i) 32
    let rs := if numAt e 0 1 = 0x40 then List.range 64 else [numAt e 0 1]
    forAll rs fun r =>
      let entry := (r, numAt e 1 1, numAt e 4 4, numAt e 8 8, numAt e 16 8, numAt e 24 8)
      let rest (xs : List (Nat × Nat × Nat × Nat × Nat × Nat)) := xs.filter fun x => !(x.1 == r && x.2.1 == numAt e 1 1)
      modI fun n => { n with expected := entry :: rest n.expected }

/-- SECTION_WRITTEN (R153, R154, R158, R188). The section's frames have been written and its checks are complete. -/
def execSectionWritten (s : State) : Result :=
  go s <| withD fun d =>
    let l := d.ldr
    let b := l.bytes
    let x := sectionOf b l.idx
    let rs := d.targets x (secRegions b x)
    let wait := (x.kind == 2 && rs.any fun r => !(d.rg r).loadReset) ||
      (x.kind == 6 && d.engState (Fin.ofNat 256 x.index) != esParked)
    if l.src = none ∨ l.rejected ∨ !l.writing ∨ wait then skip
    else
      ops [match x.kind with
        | 1 => writeDevice (Config.deviceBody (secBytes b x))
        | 2 => forAll rs fun r => applyRegion r (Config.regionBody (secBody b x)) x.depth
        | 3 => forAll rs (writeSlot b l.idx x)
        | 4 => forAll rs fun r => writeFrames (fun f => bramBase r.val + 512 * f) setBytes
            ((goodRecords b x (d.depth r)).getD [])
        | 5 => forAll rs (writeEntry b l.idx x)
        | 6 => writeEngine b x
        | _ => ops [writeTest (secBytes b x), setN 7 R.ST_EXPID (imgId b), raise 7 0],
        whenB (3 ≤ x.kind && x.kind ≤ 5) (forAll rs fun r => incF (rgnPg r) F.RGN_LOADSTAT.sections),
        nextSection]

/-- The delay lines of the pins of a region's bank take the taps of its image (R345). -/
def setTaps (r : RegionId) : Op :=
  withD fun d =>
    forAll ((List.finRange 10).filter fun b => bankOwner b == r) fun b =>
      forAll (List.range 48) fun i => modI fun n =>
        let v := (d.rg r).taps.getD i 0 % 512
        { n with tap := sparsePut (fun _ => 0) n.tap (48 * b.val + i) v
                 tapGoal := sparsePut (fun _ => 0) n.tapGoal (48 * b.val + i) v }

/-- A region whose release has come is released: its border cells, terminations and delay lines take what the image gives, and the pins
pass to the personality; a start slot that is not RESIDENT fails the region, and so its image (R155, R158, R159). -/
def releaseOne (r : RegionId) (id : Nat) : Op :=
  withD fun d =>
    let g := d.rg r
    if d.slot r g.startSlot = slResident then
      ops [releaseRegion r g.startSlot, setTaps r, modR r fun g => { g with linePol := g.newPol, term := g.newTerm, pads := g.newPads },
        setN (rgnPg r) R.RGN_IMGID id, setF (rgnPg r) F.RGN_BORDERPOL.cells_loaded 1]
    else
      ops [failRegion r, regionErr r g.relSec 0xFF 0x0C, setF 0 F.DEV_LOADSTAT.section g.relSec, setF 0 F.DEV_LOADSTAT.cause 0x0C,
        whenB (d.fld 0 F.DEV_LOADSTAT.state == 3) (setF 0 F.DEV_LOADSTAT.state 5), modL fun l => { l with failed := l.failed || l.src.isSome }]

/-- The edge of the global-release tree: the regions on it are released together, the others are let go on their own next edges
(R155). -/
def treeRelease (t : Nat) : Op :=
  withD fun d =>
    forAll ((List.finRange 64).filter fun r => (d.rg r).relTree == some t) fun r =>
      match (d.rg r).rel with
      | some id =>
        if d.fld (rgnPg r) F.RGN_INFO.pri_tree = t ∧ d.rgnP r.val = 0 then releaseOne r id
        else modR r fun g => { g with relNow := true, relTree := none }
      | none => skip

/-- REGION_RELEASE (R155). A primary edge of a region whose sections are all written: it is released, with the others of its tree where
the image releases them together. The edge of a region on another tree comes after that of the release tree, which it waits for while a
region on that tree is to be released. -/
def execRegionRelease (r : RegionId) (s : State) : Result :=
  go s <| withD fun d =>
    let g := d.rg r
    let onTree (t : Nat) (x : RegionId) : Bool :=
      (d.rg x).relTree == some t && d.fld (rgnPg x) F.RGN_INFO.pri_tree == t && d.rgnP x.val == 0
    if d.rgnP r.val ≠ 0 then skip
    else
      match g.rel, g.relNow, g.relTree with
      | some id, true, _ => releaseOne r id
      | some id, false, some t =>
        if onTree t r then treeRelease t
        else if (List.finRange 64).any (onTree t) then skip
        else both (treeRelease t) (releaseOne r id)
      | _, _, _ => skip

/-- IMAGE_END (R155, R159, R190). Every section has been handled: DEV_LOADSTAT is set, regions that wait for global
release await the edge of the tree of the DEVICE section, engines with auto_start run, the last LOAD ends. -/
def execImageEnd (s : State) : Result :=
  go s <| withD fun d =>
    let l := d.ldr
    if l.src = none ∨ l.rejected ∨ !l.verified ∨ l.writing ∨ l.idx < imgSections l.bytes then skip
    else
      ops [setF 0 F.DEV_LOADSTAT.state (if l.failed then 5 else 3),
        whenB (!l.failed) (setF 0 F.DEV_LOADSTAT.cause 0),
        forAll (d.loadingRegions.filter fun r => (d.rg r).rel.isSome && !(d.rg r).relNow) fun r =>
          modR r fun g => { g with relTree := some l.tree },
        forAll ((List.finRange 256).filter fun e => l.engines.contains e.val && !(l.badEngines.contains e.val) &&
          d.bit (engPg e) F.ENG_CTL.auto_start) startEngine,
        closeImage]

/-! ### The host's LOAD and chain streams (R151, R269) -/

/-- The host command at a queue and identifier with an opcode, which has been taken and has not ended (R266). -/
def Device.cmdAt (d : Device) (q cid op : Nat) : Option HostCmd :=
  d.inn.cmds.find? fun c => c.q == q && c.cid == cid && c.opcode == op && c.wait == none && c.ended == none

/-- A host command changes. -/
def modCmd (c : HostCmd) (f : HostCmd → HostCmd) : Op :=
  let one (x : HostCmd) : HostCmd := if x = c then f x else x
  modI fun n => { n with cmds := n.cmds.map one }

/-- A host command ends with a status and a result, or waits. -/
def endCmd (c : HostCmd) (st res : Nat) : Op :=
  withD fun d => both (modCmd c fun x => { x with ended := some (st, res), order := d.inn.host.ends })
    (modI fun n => { n with host := { n.host with ends := n.host.ends + 1 } })
def waitCmd (c : HostCmd) (w : Wait) : Op := modCmd c fun x => { x with wait := some w }

/-- The device issues requests to a command's host buffer: in proxy mode, or while Bus Master Enable is 1 (R260, R297). -/
def Device.bufferOpen (d : Device) : Bool := d.proxied || d.inn.host.busMaster

/-- What was read from a command's host buffer: nothing where no request is issued. -/
def Device.bufferRead (d : Device) (data : Option (List Byte)) : Option (List Byte) := if d.bufferOpen then data else none

/-- The read of a command's host buffer failed: HOST_ABORT, with HP_ERR.host_abort where no request was issued (R260). -/
def bufferFailed (c : HostCmd) : Op :=
  both (whenD (fun d => !(d.bufferOpen)) (both (setN64 32 R.HP_ERRADDR_LO c.haddr) (hpErr 6))) (endCmd c 5 0)

/-- A first part that carries the header of a full image orders a full load: the image in progress is abandoned (R159;
notes/assumptions/30.md). -/
def ordersFull (bs : List Byte) : Bool := 256 ≤ bs.length && headerCause bs 0 == 0 && imgKind bs == 2

/-- A part of the open image joins what the loader takes as its buffer has room; its last part that leaves the image short of its manifest
and signature block rejects it. -/
def loadPart (c : HostCmd) (bs : List Byte) (last : Bool) : Op :=
  ops [waitCmd c (if last then .load else .bytes c.cid), whenB last (modL fun l => { l with lastIn := true }),
    withD fun d => if d.ldr.rejected then (if last then closeImage else endCmds (.bytes c.cid) 0 d.loadResult)
      else both (modL fun l => { l with rest := l.rest ++ [(c.cid, bs)] }) takeMore,
    withD fun d => whenB (d.ldr.ended && !d.ldr.rejected && !d.ldr.verified &&
        (d.ldr.bytes.length < 256 || d.ldr.bytes.length < imgSigOff d.ldr.bytes + 3732)) (rejectImage 1)]

/-- LOAD (R269, R147, R148, R159). A part of an image from a host queue; `data` is what was read from the host buffer, none where that
read failed. -/
def execLoad (q : QueueId) (cid : BitVec 16) (data : Option (List Byte)) (s : State) : Result :=
  go s <| withD fun d =>
    match d.cmdAt q.val cid.toNat 0x10 with
    | none => skip
    | some c =>
      let first := c.flags / 2 % 2 == 1
      let last := c.flags / 4 % 2 == 1
      let mine := decide (d.ldr.src = some 0 ∧ d.ldr.queue = q.val)
      match d.bufferRead data with
      | none => bufferFailed c
      | some bs =>
        if !c.zeroOk ∨ 7 < c.flags then endCmd c 2 0
        else if first ∧ d.ldr.src.isSome ∧ !(ordersFull (bs.take c.length)) then endCmd c 8 0x40000012
        else if !first ∧ !mine then endCmd c 2 0
        else
          ops [whenB (first && d.ldr.src.isSome) (both abandonImage (whenD (fun d1 => d1.ldr.src.isSome) closeImage)),
            whenB first (openImage 0 q.val 0), loadPart c (bs.take c.length) last]

/-- Bytes of a chain stream come in; after a stream that could not be parsed they are dropped up to a chain header (R151;
notes/assumptions/83.md). -/
def chainBytes (bs : List Byte) : Op :=
  modL fun l =>
    if l.lost ∧ numAt bs 0 4 ≠ 0x4E494843 then l else { l with lost := false, chainIn := l.chainIn ++ bs }

/-- CHAIN_STREAM (R151). A chain header has come: a bad one is dropped with cause 0x01; else the device keeps the first
image, at position T - N + 1. An image in progress makes the kept one rejected with cause 0x12. The reserved bytes of the header are not
looked at (notes/assumptions/83.md). -/
def execChainStream (s : State) : Result :=
  go s <| withD fun d =>
    let b := d.ldr.chainIn
    if b.length < 16 ∨ d.ldr.chain.isSome then skip
    else
      let n := numAt b 4 1
      let t := numAt b 5 1
      let start := modL fun l => { l with chain := some (n, t), chainIn := b.drop 16, forwarded := false, mute := false, own := [], fwd := [] }
      if numAt b 0 4 ≠ 0x4E494843 ∨ n = 0 ∨ t < n then
        ops [modL fun l => { l with chainIn := [], lost := true }, setF 0 F.DEV_LOADSTAT.cause 1, reportChain]
      else if d.ldr.src.isSome then
        ops [start, setF 0 F.DEV_LOADSTAT.chain_pos (t - n + 1), setF 0 F.DEV_LOADSTAT.cause 0x12, reportChain, pullChain]
      else ops [start, openImage 2 0 (t - n + 1), takeMore]

/-! ### Border policy (R157) -/

/-- A write to RGN_BORDERPOL: the edge overrides. -/
def borderpolWrite (r : RegionId) (v : Nat) : Op := pageWrite (rgnPg r) (setF (rgnPg r) F.RGN_BORDERPOL.edges v)

/-- BORDERPOL_WRITE (R157). -/
def execBorderpolWrite (r : RegionId) (v : BitVec 16) (s : State) : Result := go s (borderpolWrite r v.toNat)

end Sys2Proof.Machine
end

