-- ==== Sys2Proof/Machine/Debug.lean ====
section
/-!
DEFINITION. Debug (20_debug.md): the frames and registers of the debug port, the level of the session, monitor mode,
comparators as registers, region halts, snapshots, the virtual terminal. What an access of the port does at its target
stands in Machine/DebugAccess.lean.
-/

namespace Sys2Proof.Machine

def modDk (f : Dk → Dk) : Op := modI fun n => { n with dk := f n.dk }

/-! ### When the debugger reaches the device (R455, R457) -/

/-- The device is in P3 (R397). -/
def Device.inP3 (d : Device) : Bool := d.inn.phase == .p3

/-- The debug port runs in the always-on domain: from POR release, in P3, and while the rest is held after a fatal fault
(R418, R457). -/
def dkGo (s : State) (o : Op) : Result := goIn [.up, .p3, .fault] s o

/-! ### Frames on the wire (R449 to R451) -/

/-- One step of the CRC-8 with polynomial x^8 + x^2 + x + 1 over a bit. -/
def crc8Step (c : Nat) (b : Bool) : Nat :=
  let top := (c / 128 % 2 == 1) != b
  if top then ((c * 2) % 256) ^^^ 7 else (c * 2) % 256

/-- The CRC-8 of 32 data bits in the order sent, least significant first, initial value 0xFF. -/
def crc8 (w : Word) : Nat := (List.range 32).foldl (fun c i => crc8Step c (w.getLsbD i)) 0xFF

/-- The header of a frame is well formed: sync, zero nibble, check (R449, R450). -/
def headerOk (h : BitVec 16) : Bool :=
  let n := h.toNat
  n % 16 == 6 && n / 256 % 16 == 0 && n / 4096 == ((n % 16) ^^^ (n / 16 % 16)) ^^^ (n / 256 % 16)

/-- The answers of the port: status DONE with the data of a read, BUSY, ERROR. -/
def answer (status : Nat) (data : List Nat) : Op := emit (.debug (status :: data))
def answerDone : Op := answer 0b0011 []
def answerRead (w : Word) : Op := answer 0b0011 [w.toNat, crc8 w]
def answerBusy : Op := both (modDk fun k => { k with busy := min (k.busy + 1) 255 }) (answer 0b0101 [])
def answerError : Op := answer 0b1001 []

/-! ### DK_DATA (R453, R454) -/

/-- The packet of a global access, from router 6 in class 3 (R453, R456). -/
def globalAccess (w : Option Word) : Op :=
  withD fun d =>
    let k := d.inn.dk
    let a := (k.hi % 65536) * 2 ^ 32 + k.lo
    let p : Packet :=
      { kind := if w.isSome then 1 else 0, cls := 3, tag := 0, src := 0x102, dev := k.hi / 65536 % 16384,
        addr := a / 64 * 64, be := 0xF * 2 ^ (a % 64 / 4 * 4), word := 0, pos := 6, rexit := 2, exit := 2, dbg := true
        data := match w with
          | some v => List.replicate (a % 64 / 4 * 4) 0 ++ Word.bytes v
          | none => []
        dirs := d.route' 6 (if d.fld 326 F.NI_CTL.link_agent = 0 then 59 else 60) }
    modNet fun ps => ps ++ [p]

/-- An address word has DK_ADDR_HI.global at 1 and names another device (R286). -/
def Device.dkGlobal (d : Device) (hi : Nat) : Bool := hi / 2 ^ 31 % 2 == 1 && hi / 65536 % 16384 != d.devnum

/-- Issue the access of a DK_DATA frame; at a level that refuses it, nothing leaves. -/
def issueAccess (w : Option Word) : Op :=
  both (modDk fun k => { k with access := some { hi := k.hi, lo := k.lo, write := w }, busy := 0, result := none })
    (withD fun d => whenB (d.dkGlobal d.inn.dk.hi && 2 ≤ d.dbgLevel && d.inn.phase == .up) (globalAccess w))

/-- A read frame of DK_DATA: ERROR under the hold, BUSY while an access is in progress, the result of the access that an
earlier read started, or a new access. -/
def dkRead : Op :=
  withD fun d =>
    let k := d.inn.dk
    if k.hold then answerError
    else if k.access.isSome then answerBusy
    else
      match k.result with
      | some w => both (modDk fun k => { k with result := none, last := w }) (answerRead w)
      | none => both (issueAccess none) answerBusy

/-- A write frame of DK_DATA. -/
def dkWrite (w : Word) : Op :=
  withD fun d =>
    let k := d.inn.dk
    if k.hold then answerError
    else if k.access.isSome then answerBusy
    else both (issueAccess (some w)) answerDone

/-- Abandon the result of the access in progress. -/
def dkCancel : Op :=
  modDk fun k => { k with access := k.access.map fun a => { a with dropped := true }, result := none }

/-- Clear the error hold and its causes (R454). -/
def clearHold : Op :=
  modDk fun k => { k with hold := false, wcrc := false, busErr := false, poison := false, denied := false, timeout := false }

/-- A wake request of the debugger in P3 (R457): taken where PWR_WAKE enables the source, bit 3. -/
def debugWake : Op :=
  withD fun d =>
    if d.inP3 && d.regBit 17 R.PWR_WAKE 3 then modI fun n => { n with wakeDue := some (n.wakeDue.getD 3) } else skip

/-! ### Port registers (R452) -/

/-- DK_STAT. -/
def Device.dkStat (d : Device) : Word :=
  let k := d.inn.dk
  let dev : Nat := if d.inP3 then 3 else if d.inn.bootStop then 2 else if d.bit 17 F.PWR_DEVSTAT.ready then 0 else 1
  let b (x : Bool) (i : Nat) : Nat := if x then 2 ^ i else 0
  BitVec.ofNat 32 (b k.hold 31 + b k.wcrc 30 + b k.busErr 29 + b k.poison 28 + b k.denied 27 + b k.timeout 26 +
    d.dbgLevel * 2 ^ 16 + b d.inn.session.isSome 15 + dev * 2 ^ 12 + k.busy)

/-- A read of a port register other than DK_DATA. -/
def Device.dkReg (d : Device) (sel : Nat) : Word :=
  let k := d.inn.dk
  match sel with
  | 0 => 0x2405A101
  | 1 => Word.ofBool k.inc
  | 2 => d.dkStat
  | 3 => BitVec.ofNat 32 k.lo
  | 4 => BitVec.ofNat 32 k.hi
  | 7 => k.last
  | _ => 0

/-- A write of a port register other than DK_DATA. -/
def dkRegWrite (sel : Nat) (w : Word) : Op :=
  match sel with
  | 1 => ops [modDk fun k => { k with inc := w.getLsbD 0 }, whenB (w.getLsbD 4) clearHold, whenB (w.getLsbD 31) debugWake]
  | 3 => modDk fun k => { k with lo := w.toNat / 4 * 4 }
  | 4 => modDk fun k => { k with hi := (w &&& 0xBFFFFFFF).toNat }
  | 6 => dkCancel
  | _ => skip

/-- DEBUG_FRAME (R449, R450, R452). A frame of header, and for a write data and CRC-8: undriven and without effect where
the header is malformed; a write whose CRC-8 fails is answered ERROR and sets wcrc and the hold. -/
def execDebugFrame (h : BitVec 16) (w : Word) (crc : BitVec 8) (s : State) : Result :=
  let sel := h.toNat / 32 % 8
  dkGo s (if !(headerOk h) then skip
    else if h.getLsbD 4 then
      if crc.toNat ≠ crc8 w then both (modDk fun k => { k with wcrc := true, hold := true }) answerError
      else if sel = 5 then dkWrite w
      else both (dkRegWrite sel w) answerDone
    else if sel = 5 then dkRead
    else withD fun d => answerRead (d.dkReg sel))

/-- RESYNC (R451). The frame logic waits for a header again; a pending access is abandoned as by DK_CANCEL. -/
def execResync (s : State) : Result := dkGo s dkCancel

/-- DK_DATA_READ (R453). -/
def execDkDataRead (s : State) : Result := dkGo s dkRead

/-- DK_DATA_WRITE (R453). -/
def execDkDataWrite (w : Word) (s : State) : Result := dkGo s (dkWrite w)

/-- DK_CANCEL (R453). -/
def execDkCancel (s : State) : Result := dkGo s (both dkCancel answerDone)

/-- ERROR_HOLD_CLEAR (R454). A write of clr to DK_CTL. -/
def execErrorHoldClear (s : State) : Result := dkGo s (both clearHold answerDone)

/-- DEBUG_WAKE (R457). A write of wake to DK_CTL. -/
def execDebugWake (s : State) : Result := dkGo s (both debugWake answerDone)

/-! ### Writes to the debug page (R455, R457) -/

/-- A write by the debugger at D1 or higher, with the page powered: in P3 only DBG_EV is written (R457). -/
def debuggerWrite (o : Op) : Op := whenD (fun d => 1 ≤ d.dbgLevel && !(d.inP3)) o

/-! ### Monitor mode (R458 to R462) -/

/-- The engine selected by DBG_ENGSEL. -/
def Device.selEngine (d : Device) : EngineId := Fin.ofNat 256 (d.fld 5 F.DBG_ENGSEL.engine)

/-- Halt an engine that is RUNNING (R458). -/
def engineHalt (e : EngineId) : Op :=
  whenD (fun d => d.engState e == esRunning && d.rgnP (engRgn e) == 0) (enterMonitor e 1 0)

/-- ENGINE_HALT (R458). The debugger writes DBG_ENGSEL.engine and halt. -/
def execEngineHalt (e : EngineId) (s : State) : Result :=
  go s (debuggerWrite (both (setF 5 F.DBG_ENGSEL.engine e.val) (engineHalt e)))

/-- Leave MONITOR at the halt address (R461): the watchdog count of R216, and no comparator at the first instruction. -/
def engineResume (e : EngineId) : Op :=
  whenD (fun d => d.engState e == esMonitor && d.rgnP (engRgn e) == 0)
    (ops [modE e fun n => { n with liveRuns := false, noMatch := true }, leaveMonitorWdt e,
      setF (engPg e) F.ENG_STAT.state esRunning])

/-- ENGINE_RESUME (R461). -/
def execEngineResume (e : EngineId) (s : State) : Result :=
  go s (debuggerWrite (both (setF 5 F.DBG_ENGSEL.engine e.val) (engineResume e)))

/-- The pending line that a live handler takes: in the live mask, enabled, with ie at 1 (R459). -/
def Device.liveLine (d : Device) (e : EngineId) : Option Nat :=
  if esIe.get (d.en e).estat = 1 then (List.range 16).find? fun i => (d.irqDue e).testBit i && (d.en e).live.testBit i else none

/-- LIVE_INTERRUPT (R459, R213). An engine in MONITOR takes a pending live line: EPC is the halt address. -/
def execLiveInterrupt (e : EngineId) (s : State) : Result :=
  go s <| withD fun d =>
    if d.engState e = esMonitor ∧ d.rgnP (engRgn e) = 0 ∧ ¬ (d.en e).liveRuns then
      match d.liveLine e with
      | some i =>
        both (modE e fun n => { n with liveRuns := true, haltAt := n.pc }) (enterTrap e (0x10 + i) (d.en e).pc 0 false false)
      | none => skip
    else skip

/-- DBG_ENGREG acts: MONITOR, and no live handler (R462). -/
def Device.engregOpen (d : Device) : Bool := d.engState d.selEngine == esMonitor && !((d.en d.selEngine).liveRuns)

/-- The register DBG_ENGREG shows: class 0 g, 1 f, 2 a control register by number, 3 the halt address. -/
def Device.engreg (d : Device) : Word :=
  let e := d.selEngine
  let n := d.fld 5 F.DBG_ENGSEL.num
  match d.fld 5 F.DBG_ENGSEL.class with
  | 0 => if n < 32 then d.g e (greg n) else 0
  | 1 => if n < 32 then d.f e (greg n) else 0
  | 2 =>
    (match cregOf n with
    | some c => (d.en e).cr c
    | none => 0)
  | _ => (d.en e).pc

def denied : Op := setF 5 F.DBG_STAT.denied 1

/-- A write of DBG_ENGREG (R462): windows and read-only control registers are refused. -/
def engregWrite (w : Word) : Op :=
  withD fun d =>
    let e := d.selEngine
    let n := d.fld 5 F.DBG_ENGSEL.num
    if !(d.engregOpen) then denied
    else
      match d.fld 5 F.DBG_ENGSEL.class with
      | 0 => if n < 32 then setG e (greg n) w else denied
      | 1 => if n < 32 then setFr e (greg n) w else denied
      | 2 =>
        (match cregOf n with
        | some (.winA _) | some (.winB _) | some .ecause | some .eaddr | none => denied
        | some c => modE e fun n => n.setCr c w)
      | _ => modE e fun n => { n with pc := w &&& 0xFFFFFFFC }

/-- ENGREG_ACCESS (R462). The debugger writes a word to DBG_ENGREG, or reads it; a read while it does not act gives 0 and
sets denied. -/
def execEngregAccess (write : Option Word) (s : State) : Result :=
  go s (debuggerWrite (match write with
    | some w => engregWrite w
    | none => withD fun d =>
      if d.engregOpen then emit (.debug [d.engreg.toNat]) else both denied (emit (.debug [0]))))

/-! ### Region halts (R465) -/

def resumeRegion (r : RegionId) : Op := modR r fun g => { g with dbgHalt := false }

/-- REGION_HALT (R465, R87). -/
def execRegionHalt (r : RegionId) (s : State) : Result :=
  go s (debuggerWrite (both (setF 5 F.DBG_SNAPCTL.region r.val) (haltRegion r)))

/-- REGION_RESUME (R465). -/
def execRegionResume (r : RegionId) (s : State) : Result :=
  go s (debuggerWrite (both (setF 5 F.DBG_SNAPCTL.region r.val) (resumeRegion r)))

/-! ### Snapshots (R467, R468) -/

/-- The length of a snapshot record. -/
def snapLen (bram : Bool) : Nat := 0x17540 + (if bram then 884736 else 0)

/-- The record lies wholly in the memory tier outside every hamper range, or in external memory (R467). -/
def Device.snapPlace (d : Device) (base n : Nat) : Bool :=
  (base + n ≤ extBase && (List.range (n / 64)).all fun i => !(d.inHamper (base + 64 * i))) ||
    (inExt base && (List.range (n / 64)).all fun i =>
      inExt (base + 64 * i) && (d.extBlocked (extChan (base + 64 * i)) (extOff (base + 64 * i))).isNone)

def snapResult (r : Nat) : Op := setF 5 F.DBG_SNAPCTL.result r

/-- A go of DBG_SNAPCTL at D2 (R467). -/
def snapshotGo (r : RegionId) (bram : Bool) : Op :=
  withD fun d =>
    let base := (d.reg 5 R.DBG_SNAPADDR).toNat * 0x10000
    if d.inn.snap.isSome ∨ (d.rg r).test then snapResult 6
    else if (d.rg r).confidential then snapResult 2
    else if d.rgnP r.val = 2 then snapResult 3
    else if !(d.snapPlace base (snapLen bram)) then snapResult 4
    else ops [haltRegion r, setF 5 F.DBG_SNAPCTL.busy 1, setF 5 F.DBG_SNAPCTL.torn 0,
      modI fun n => { n with snap := some { region := r, bram := bram, base := base,
                                            swcnt := d.reg (rgnPg r) R.RGN_SWCNT, time := d.now } }]

/-- SNAPSHOT (R467). The debugger writes go, bram and region to DBG_SNAPCTL. -/
def execSnapshot (r : RegionId) (bram : Bool) (s : State) : Result :=
  go s (debuggerWrite (whenD (fun d => 2 ≤ d.dbgLevel)
    (ops [setF 5 F.DBG_SNAPCTL.region r.val, setB 5 F.DBG_SNAPCTL.bram bram, snapshotGo r bram])))

/-- A byte from eight bits of a map of bits. -/
def byteOfBits (bit : Nat → Bool) (i : Nat) : Byte :=
  BitVec.ofNat 8 ((List.range 8).foldl (fun n k => if bit (8 * i + k) then n + 2 ^ k else n) 0)

/-- The 64 bytes of a record's header; the places of its fields after the magic are the model's (notes/assumptions/20.md). -/
def Device.snapHeader (d : Device) (x : Snap) : List Byte :=
  let p := rgnPg x.region
  let g := d.rg x.region
  let logs := match g.spec with
    | some sp => sp.log.length
    | none => 0
  Word.bytesOfNat 4 0x50414E53 ++ Word.bytesOfNat 2 x.region.val ++ Word.bytesOfNat 2 (d.depth x.region) ++
    Word.bytesOfNat 2 (d.active x.region).val ++ Word.bytesOfNat 2 (d.fld p F.RGN_CTXSTAT.active_tag) ++
    Word.bytesOfNat 4 (d.reg p R.RGN_SLOTSTAT).toNat ++ Word.bytesOfNat 8 x.time ++ Word.bytesOfNat 4 x.swcnt.toNat ++
    Word.bytesOfNat 4 (d.reg p R.RGN_SWCNT).toNat ++ Word.bytesOfNat 4 (if g.spec.isSome then 1 else 0) ++
    Word.bytesOfNat 4 logs ++ Word.bytesOfNat 4 (if x.bram then 1 else 0) ++ List.replicate 20 0

/-- The pointers of one FIFO pair: down read and write, up read and write, two bytes each. -/
def fifoPointers (dn up : Fifo) : List Byte :=
  Word.bytesOfNat 2 dn.rd ++ Word.bytesOfNat 2 ((dn.rd + dn.q.length) % 16) ++ Word.bytesOfNat 2 up.rd ++
    Word.bytesOfNat 2 ((up.rd + up.q.length) % 16)

/-- State bit `k` of the 16 of element `el`: four for each codeword, by depth; `inits` are the initial values of the slots. At depth 8 a
private-state bit and an initial-value bit of each of two contexts; at depths 4 and 2 two private-state bits and two initial-value bits
of one context, at depth 2 in its lower codeword (R61; the order within a codeword is notes/assumptions/75.md). -/
def stateBit (depth : Nat) (g : Region) (inits : Nat → Sparse Bool) (el k : Nat) : Bool :=
  let c := k / 4
  let priv (s : Nat) : Sparse Bool := (g.slots[(Fin.ofNat 8 s).val]).priv
  let two (s : Nat) : Bool := bitGet (if k % 4 < 2 then priv s else inits s) (2 * el + k % 2)
  match depth with
  | 8 => bitGet (if k % 2 = 0 then priv (2 * c + k % 4 / 2) else inits (2 * c + k % 4 / 2)) (2 * el)
  | 4 => two c
  | 2 => c % 2 == 0 && two (c / 2)
  | _ => false

/-- The record of a region (table Snapshot record). Arithmetic slots from the depth upward are zero (R75). -/
def Device.snapRecord (d : Device) (x : Snap) : List Byte :=
  let g := d.rg x.region
  let inits (s : Nat) : Sparse Bool := initBits (d.ctxCells x.region (Fin.ofNat 8 s))
  d.snapHeader x ++ (List.range 9216).map (byteOfBits fun k => bitGet g.ff k) ++
    (List.range 73728).map (byteOfBits fun k => stateBit (d.depth x.region) g inits (k / 16) (k % 16)) ++
    (List.range 48).flatMap (fun b => (List.finRange 8).flatMap fun sl =>
      [7, 0, 1, 2].flatMap fun i => Word.bytesOfNat 8 (if sl.val < d.depth x.region then (arithGet (g.slots[sl.val]).arith (8 * b + i)).toNat else 0)) ++
    (List.finRange 32).flatMap (fun k => fifoPointers g.down[k.val] g.up[k.val]) ++
    (if x.bram then d.bytes (bramBase x.region.val) bramSpan else [])

/-- SNAPSHOT_DONE (R467, R468). The record is complete and written, torn where a switch took effect meanwhile; a write
failure of the target ends it with result 5. The region stays halted. -/
def execSnapshotDone (writeFailed : Bool) (s : State) : Result :=
  go s <| withD fun d =>
    match d.inn.snap with
    | none => skip
    | some x =>
      ops [if writeFailed then snapResult 5
        else ops [storeLines (snapLen x.bram / 64) x.base (d.snapRecord x), snapResult 1,
          setB 5 F.DBG_SNAPCTL.torn (d.reg (rgnPg x.region) R.RGN_SWCNT != x.swcnt)],
        setF 5 F.DBG_SNAPCTL.busy 0, modI fun n => { n with snap := none }]

/-- A snapshot in progress ends with a result (R469, R470). -/
def endSnapshot (c : Nat) : Op :=
  withD fun d =>
    match d.inn.snap with
    | none => skip
    | some _ => ops [snapResult c, setF 5 F.DBG_SNAPCTL.busy 0, modI fun n => { n with snap := none }]

/-! ### The virtual terminal (R466) -/

/-- A write of a byte to DBG_VTOUT by an initiator other than the debugger. -/
def vtOutWrite (who : Who) (b : Nat) : Op :=
  withD fun d =>
    if who = .debugger ∨ d.dbgLevel = 0 ∨ d.inP3 then skip
    else if d.bit 5 F.DBG_VTOUT.valid then setF 5 F.DBG_STAT.vt_overrun 1
    else ops [setF 5 F.DBG_VTOUT.byte b, setF 5 F.DBG_VTOUT.writer who.id, setF 5 F.DBG_VTOUT.valid 1]

/-- VT_OUT_WRITE (R466). -/
def execVtOutWrite (who : Who) (b : Byte) (s : State) : Result := go s (byWrite who 5 (vtOutWrite who b.toNat))

/-- The debugger writes 1 to valid of DBG_VTOUT: the byte is consumed, and cause vt_out tells firmware so
(notes/assumptions/21.md). -/
def vtOutConsume : Op :=
  debuggerWrite (whenD (fun d => d.bit 5 F.DBG_VTOUT.valid) (both (setF 5 F.DBG_VTOUT.valid 0) (dbgCause 0)))

/-- VT_OUT_CONSUME (R466). -/
def execVtOutConsume (s : State) : Result := go s vtOutConsume

/-- The debugger writes a byte to DBG_VTIN: taken while valid is 0. -/
def vtInWrite (b : Nat) : Op :=
  debuggerWrite (whenD (fun d => !(d.bit 5 F.DBG_VTIN.valid))
    (ops [setF 5 F.DBG_VTIN.byte b, setF 5 F.DBG_VTIN.valid 1, dbgCause 1]))

/-- VT_IN_WRITE (R466). -/
def execVtInWrite (b : Byte) (s : State) : Result := go s (vtInWrite b.toNat)

/-- A read of DBG_VTIN by an initiator other than the debugger takes the byte. -/
def vtInTake (who : Who) : Op := whenB (who != .debugger) (setF 5 F.DBG_VTIN.valid 0)

/-- VT_IN_READ (R466). The word read is put out. -/
def execVtInRead (who : Who) (s : State) : Result :=
  go s <| withD fun d => both (vtInTake who) (emit (.device 5 [who.id, (d.reg 5 R.DBG_VTIN).toNat]))

/-! ### The end of a session (R469, R470, R472) -/

/-- The fields of every comparator are cleared. -/
def clearComparators : Op := modI fun n => { n with cmps := Vector.replicate 8 {} }

/-- What a fall of the level from `old` to `new` does (R469). -/
def levelFall (old new : Nat) : Op :=
  if old ≤ new then skip
  else
    ops [setF 5 F.DBG_STAT.session_lost 1, dbgCause 3,
      whenB (new < 1) (ops [forAll (List.finRange 256) fun e => ops [engineResume e, modE e fun n => { n with live := 0 }],
        modI fun n => { n with cmps := n.cmps.map fun c => { c with ctl := cEn.set 0 c.ctl } },
        forAll (List.finRange 64) resumeRegion]),
      whenB (new < 2) (endSnapshot 5)]

/-- A region enters P2 (R470): its engines leave the session. -/
def debugRegionOff (r : RegionId) : Op :=
  withD fun d =>
    ops [modI fun n => { n with cmps := n.cmps.map fun c =>
        if !(c.is cAll) && c.get cKind ≠ 4 && c.get cEngine / 4 = r.val then {} else c },
      resumeRegion r,
      match d.inn.snap with
      | some x => whenB (x.region == r) (endSnapshot 3)
      | none => skip]

end Sys2Proof.Machine
end

