-- ==== Sys2Proof/Machine/Lanes.lean ====
section
/-!
DEFINITION. Serial lanes (13_serial_lanes.md) and the bring-up of the Guleg ports that own them (12_device_link_fabric.md,
R277 to R280): enable, retrain, alignment, parameters, and what a lane that fails does to its port.
-/

namespace Sys2Proof.Machine

/-! ### Owners (R277, R301) -/

/-- Lanes 44 to 47 serve the MACs. -/
def Device.eth (d : Device) : Bool := d.bit 140 F.LN_ETHSEL.eth

/-- The Guleg port that owns a lane. -/
def Device.lanePort (d : Device) (l : LaneId) : Option PortId :=
  if d.eth && 44 ≤ l.val then none else some (Fin.ofNat 12 (l.val / 4))

/-- The MAC that owns a lane. -/
def Device.laneMac (d : Device) (l : LaneId) : Option MacId :=
  if d.eth && (l.val == 44 || l.val == 45) then some (Fin.ofNat 2 (l.val - 44)) else none

/-- The lanes of a port. -/
def portLanes (p : PortId) : List LaneId := (List.range 4).map fun k => Fin.ofNat 48 (4 * p.val + k)

/-- The lane's group is on and its block is not in reset: else it is OFF (R300, R315). -/
def Device.laneOn (d : Device) (l : LaneId) : Bool := d.domOn (72 + l.val / 12) && !(d.inReset (lnPg l))

/-- The port's lane group is on and its block is not in reset. -/
def Device.portOn (d : Device) (p : PortId) : Bool := d.domOn (72 + p.val / 3) && !(d.inReset (lnkPg p))

def Device.lnState (d : Device) (l : LaneId) : Nat := d.fld (lnPg l) F.LN_STAT.state
def setLane (l : LaneId) (st : Nat) : Op := setF (lnPg l) F.LN_STAT.state st
def Device.lnkState (d : Device) (p : PortId) : Nat := d.fld (lnkPg p) F.LNK_STAT.state

/-- The states of a lane and of a port, as LN_STAT.state and LNK_STAT.state code them. -/
def lsPll : Nat := 1
def lsCdr : Nat := 2
def lsAdapt : Nat := 4
def lsReady : Nat := 5
def lsRelock : Nat := 6
def lsTest : Nat := 7
def psDown : Nat := 0
def psTrain : Nat := 1
def psAlign : Nat := 2
def psParam : Nat := 3
def psKeying : Nat := 4
def psUp : Nat := 5
def psRetrain : Nat := 6
def psAbsent : Nat := 7

/-- A cause of LN_ERR and of LNK_ERR. -/
def lnErr (l : LaneId) (i : Nat) : Op := cause (lnPg l) R.LN_ERR i
def lnkErr (p : PortId) (i : Nat) : Op := cause (lnkPg p) R.LNK_ERR i

def Device.lk (d : Device) (p : PortId) : LinkS := d.inn.link[p.val]
def modK (p : PortId) (f : LinkS → LinkS) : Op := modI fun n => { n with link := n.link.set p.val (f n.link[p.val]) }

/-- A lane is under test (R312). -/
def Device.underTest (d : Device) (l : LaneId) : Bool := d.bit (lnPg l) F.LN_STAT.under_test

/-- A lane is enabled by its owner (R302). -/
def Device.laneEnabled (d : Device) (l : LaneId) : Bool :=
  match d.lanePort l, d.laneMac l with
  | some p, _ => d.bit (lnkPg p) F.LNK_CTL.en
  | none, some m => d.bit (ethPg m) F.ETH_CTL.en
  | none, none => false

/-! ### A lane restarts -/

/-- The flags that a lane loses with READY: its departure is counted, the last scan is no longer valid (R310, R315). -/
def leaveReady (l : LaneId) : Op :=
  whenD (fun d => d.lnState l == lsReady)
    (ops [incReg (lnPg l) R.LN_LOCKCNT, setF (lnPg l) F.LN_EYE.valid 0])

/-- The lane goes to a state before READY. -/
def restartLane (st : Nat) (l : LaneId) : Op :=
  ops [leaveReady l, setLane l st, setF (lnPg l) F.LN_STAT.peer_ready 0, setF (lnPg l) F.LN_STAT.training_rx 0,
    setF (lnPg l) F.LN_STAT.restored 0, whenB (st < lsCdr) (setF (lnPg l) F.LN_STAT.pll_lock 0)]

/-- The owner's enable applies to a lane: from PLL, or OFF (R303, R312). -/
def applyEnable (l : LaneId) : Op :=
  withD fun d => restartLane (if d.laneEnabled l && d.laneOn l then lsPll else 0) l

/-! ### The states of a port (R280, R282, R293) -/

/-- A port leaves UP, if it is UP: the replay buffer is discarded, the departure is counted, a lost time parent is
reported. -/
def leaveUp (p : PortId) : Op :=
  whenD (fun d => d.lnkState p == psUp)
    (ops [modK p fun k => { k with replay := [], times := [], unsent := 0, attempts := 0, synced := false },
      incReg (lnkPg p) R.LNK_DOWNCNT, lnkErr p 0,
      whenD (fun d => d.fld 80 F.LNK_DEV.tparent == p.val && !(d.bit 80 F.LNK_DEV.cor)) (lnkErr p 8)])

/-- The port goes to DOWN: sequence numbers and keys go with it. -/
def portDown (p : PortId) : Op :=
  ops [leaveUp p, setF (lnkPg p) F.LNK_STAT.state psDown, setF (lnkPg p) F.LNK_STAT.enc 0,
    setF (lnkPg p) F.LNK_PEER.valid 0, setF (lnkPg p) F.LNK_KEYSTAT.state 0, setF (lnkPg p) F.LNK_KEYSTAT.epoch 0,
    modK p fun k => { k with txSeq := 0, rxSeq := 0, replay := [], times := [], waiting := false, unsent := 0, synced := false }]

/-- The port enters RETRAIN, which is TRAIN with the numbers of R281 kept; its lanes train again from CDR. -/
def portRetrain (p : PortId) : Op :=
  withD fun d =>
    if d.lnkState p = psDown ∨ d.lnkState p = psAbsent then skip
    else
      ops [leaveUp p, setF (lnkPg p) F.LNK_STAT.state psRetrain, setF (lnkPg p) F.LNK_STAT.enc 0,
        modK p fun k => { k with waiting := false },
        forAll (portLanes p) fun l => withD fun d1 => whenB (lsCdr < d1.lnState l && d1.lnState l ≠ lsTest) (restartLane lsCdr l)]

/-- The port of a lane enters RETRAIN, if a Guleg port owns the lane. -/
def laneRetrain (l : LaneId) : Op :=
  withD fun d =>
    match d.lanePort l with
    | some p => portRetrain p
    | none => skip

/-- The link of the MAC that owns a lane is down with it (R313). -/
def laneMacDown (l : LaneId) : Op :=
  withD fun d =>
    match d.laneMac l with
    | some m => whenB (d.bit (ethPg m) F.ETH_STAT.up)
        (ops [setF (ethPg m) F.ETH_STAT.up 0, setF (ethPg m) F.ETH_STAT.lock 0, causeAt (ethPg m) R.ETH_ERR 0 16 0])
    | none => skip

/-- A write of en to LNK_CTL. A port with a lane under test stays DOWN (R312). -/
def linkEnable (p : PortId) (en : Bool) : Op :=
  pageWrite (lnkPg p) (withD fun d =>
    let was := d.bit (lnkPg p) F.LNK_CTL.en
    let absent := d.lnkState p = psAbsent
    ops [setB (lnkPg p) F.LNK_CTL.en en,
      if absent ∨ was = en then skip
      else if en then
        ops [whenB (!((portLanes p).any d.underTest)) (setF (lnkPg p) F.LNK_STAT.state psTrain),
          forAll ((portLanes p).filter fun l => !(d.underTest l)) applyEnable]
      else ops [portDown p, forAll ((portLanes p).filter fun l => !(d.underTest l)) applyEnable]])

/-- LINK_ENABLE (R280, R302). -/
def execLinkEnable (p : PortId) (en : Bool) (s : State) : Result := go s (linkEnable p en)

/-- A write of retrain to LNK_CTL. -/
def linkRetrain (p : PortId) : Op := pageWrite (lnkPg p) (whenD (fun d => d.lnkState p == psUp) (portRetrain p))

/-- LINK_RETRAIN (R280). -/
def execLinkRetrain (p : PortId) (s : State) : Result := go s (linkRetrain p)

/-- All four lanes of a port are ready, here and at the peer. -/
def Device.lanesReady (d : Device) (p : PortId) : Bool :=
  (portLanes p).all fun l => d.lnState l == lsReady && d.bit (lnPg l) F.LN_STAT.peer_ready

/-- The port of a lane enters ALIGN once all four of its lanes have peer_ready (R303). -/
def alignPort (l : LaneId) : Op :=
  withD fun d =>
    match d.lanePort l with
    | some p =>
      whenB ((d.lnkState p == psTrain || d.lnkState p == psRetrain) && (portLanes p).all fun k => d.bit (lnPg k) F.LN_STAT.peer_ready)
        (setF (lnkPg p) F.LNK_STAT.state psAlign)
    | none => skip

/-- PORT_ALIGN (R303, R309). The lanes are deskewed from the alignment blocks: the index and the skew of each are shown,
and the port goes on to PARAM; a skew of more than 16 blocks fails the state. -/
def execPortAlign (p : PortId) (found : Vector (Fin 4 × Fin 32) 4) (s : State) : Result :=
  go s <| withD fun d =>
    if !(d.portOn p) || !([psTrain, psAlign, psRetrain].contains (d.lnkState p)) || !(d.lanesReady p) then skip
    else
      both (forAll (List.finRange 4) fun k =>
          let l : LaneId := Fin.ofNat 48 (4 * p.val + k.val)
          both (setF (lnPg l) F.LN_ALIGN.index (found[k.val]).1.val) (setF (lnPg l) F.LN_ALIGN.skew (found[k.val]).2.val))
        (if (List.finRange 4).all fun k => (found[k.val]).2.val ≤ 16 then setF (lnkPg p) F.LNK_STAT.state psParam else portRetrain p)

/-- The port enters UP (R280, R291). -/
def portUp (p : PortId) (enc : Bool) : Op :=
  ops [setF (lnkPg p) F.LNK_STAT.state psUp, setB (lnkPg p) F.LNK_STAT.enc enc, modK p fun k => { k with synced := false }]

/-! ### Bring-up of a lane (R303 to R305) -/

/-- PLL_LOCK (R303). The reference being present, the lane's PLL locks; a lane under test stays in TEST. -/
def execPllLock (l : LaneId) (s : State) : Result :=
  go s <| withD fun d =>
    let st := d.lnState l
    if d.laneOn l ∧ (st = lsPll ∨ st = lsTest) ∧ ¬ d.inn.refLost.contains (l.val / 12) then
      ops [setF (lnPg l) F.LN_STAT.ref_ok 1, setF (lnPg l) F.LN_STAT.pll_lock 1, whenB (st == lsPll) (setLane l lsCdr)]
    else skip

/-- BLOCK_LOCK (R303, R305, R314). The lane gains block lock and adapts, from a written array if it has one; one in RELOCK is READY
again. -/
def execBlockLock (l : LaneId) (s : State) : Result :=
  go s <| withD fun d =>
    if !(d.laneOn l) then skip
    else if d.lnState l = lsCdr ∨ d.lnState l = 3 then
      both (setLane l lsAdapt) (whenB (d.inn.calNew.contains l.val) (setF (lnPg l) F.LN_STAT.restored 1))
    else if d.lnState l = lsRelock then setLane l lsReady
    else skip

/-- An eye scan: LN_EYE as one snapshot, LN_EYEMIN lowered field by field, eye_low (R310). -/
def eyeScan (l : LaneId) (width height : Nat) : Op :=
  withD fun d =>
    let p := lnPg l
    ops [setF p F.LN_EYE.valid 1, incF p F.LN_EYE.seq, setF p F.LN_EYE.width width, setF p F.LN_EYE.height height,
      setF p F.LN_EYEMIN.width (min width (d.fld p F.LN_EYEMIN.width)),
      setF p F.LN_EYEMIN.height (min height (d.fld p F.LN_EYEMIN.height)),
      whenB (width < d.fld p F.LN_EYETHR.width_min || height < d.fld p F.LN_EYETHR.height_min) (lnErr l 4)]

/-- ADAPT_DONE (R303, R307, R310, R314). CTLE and taps settle, but for what ctle_hold and dfe_hold keep; the first scan is
taken; the array and LN_STAT.restored follow. A restored lane whose scan is low adapts again from its defaults. -/
def execAdaptDone (l : LaneId) (x : Adapted) (s : State) : Result :=
  go s <| withD fun d =>
    let p := lnPg l
    let low := x.width < d.fld p F.LN_EYETHR.width_min || x.height < d.fld p F.LN_EYETHR.height_min
    let mine := d.inn.calNew.contains l.val
    let used : Op := modI fun n => { n with calNew := n.calNew.filter (· != l.val) }
    let code := if d.bit p F.LN_RXCTL.ctle_hold then d.fld p F.LN_RXCTL.ctle_code else x.ctle.val
    let hold := d.bit p F.LN_RXCTL.dfe_hold
    let tap (i : Nat) : Nat := x.taps.toNat / 256 ^ i % 256
    if !(d.laneOn l) ∨ d.lnState l ≠ lsAdapt then skip
    else
      ops [setF p F.LN_CTLE.code code,
        whenB (!hold) (both (setN p R.LN_DFE0 (x.taps.toNat % 2 ^ 32)) (setN p R.LN_DFE1 (x.taps.toNat / 2 ^ 32))),
        setReg p R.LN_CDR x.cdr, eyeScan l x.width x.height, used,
        if mine ∧ low then setF p F.LN_STAT.restored 0
        else
          ops [setB p F.LN_STAT.restored mine, whenB mine (setF p F.LN_CALSTAT.accepted 1), setLane l lsReady,
            setN p 256 code, forAll (List.range 5) fun i => setN p (257 + i) (tap i),
            setN p 262 (x.cdr.toNat % 128), withD fun d1 => setReg p 263 (d1.reg p R.LN_EYE),
            match d.laneMac l with
            | some m => both (setF (ethPg m) F.ETH_STAT.lock 1) (setF (ethPg m) F.ETH_STAT.up 1)
            | none => skip]]

/-- PEER_READY (R303). Four markers with rx_ready have come, which a MAC's lane does not receive (R313); `us` is the time
since the enable. With the last lane the port enters ALIGN. -/
def execPeerReady (l : LaneId) (us : Word) (s : State) : Result :=
  go s <| withD fun d =>
    if d.laneOn l ∧ (d.lanePort l).isSome ∧ d.lnState l = lsReady ∧ ¬ d.bit (lnPg l) F.LN_STAT.peer_ready then
      ops [setF (lnPg l) F.LN_STAT.peer_ready 1, setReg (lnPg l) R.LN_TRAINTIME us, alignPort l]
    else skip

/-- TRAIN_TIMEOUT (R304, R313). The lane goes back to CDR with its adaptation cleared, one whose PLL is not locked stays in PLL; its
port retrains. The bring-up of a MAC's lane ends at READY. -/
def execTrainTimeout (l : LaneId) (s : State) : Result :=
  go s <| withD fun d =>
    let st := d.lnState l
    if !(d.laneOn l) ∨ st < lsPll ∨ lsRelock < st ∨ d.bit (lnPg l) F.LN_STAT.peer_ready ∨ ((d.lanePort l).isNone ∧ st = lsReady) then skip
    else
      ops [lnErr l 3, whenB (lsCdr ≤ st) (restartLane lsCdr l),
        forAll [F.LN_CTLE.code.off, R.LN_DFE0, R.LN_DFE1] fun w => setReg (lnPg l) w 0, laneRetrain l]

/-- TRAINING_RX (R304). A READY lane receives marker blocks: a port past TRAIN retrains. -/
def execTrainingRx (l : LaneId) (s : State) : Result :=
  go s <| withD fun d =>
    if !(d.laneOn l) ∨ d.lnState l ≠ lsReady then skip
    else
      both (setF (lnPg l) F.LN_STAT.training_rx 1)
        (match d.lanePort l with
        | some p => whenB (psTrain < d.lnkState p && d.lnkState p < psRetrain) (portRetrain p)
        | none => skip)

/-- LOCK_LOST (R305). -/
def execLockLost (l : LaneId) (s : State) : Result :=
  go s <| withD fun d =>
    if d.laneOn l ∧ d.lnState l = lsReady then ops [leaveReady l, setLane l lsRelock, lnErr l 0] else skip

/-- RELOCK_TIMEOUT (R305). -/
def execRelockTimeout (l : LaneId) (s : State) : Result :=
  go s <| withD fun d =>
    if d.laneOn l ∧ d.lnState l = lsRelock then ops [restartLane lsCdr l, laneRetrain l, laneMacDown l] else skip

/-- PLL_UNLOCK (R305). The lane goes back to PLL, and its port trains again (notes/assumptions/32.md); one under test stays in TEST. -/
def execPllUnlock (l : LaneId) (s : State) : Result :=
  go s <| withD fun d =>
    if d.laneOn l ∧ lsCdr ≤ d.lnState l ∧ d.lnState l ≠ lsTest then
      ops [restartLane lsPll l, lnErr l 1, laneRetrain l, laneMacDown l]
    else whenB (d.laneOn l && d.lnState l == lsTest) (both (setF (lnPg l) F.LN_STAT.pll_lock 0) (lnErr l 1))

/-- The lanes of a lane group. -/
def groupLanes (g : Fin 4) : List LaneId := (List.range 12).map fun k => Fin.ofNat 48 (12 * g.val + k)

/-- REF_LOST (R305). Every lane of the group that runs is held in PLL. -/
def execRefLost (g : Fin 4) (s : State) : Result :=
  go s <| withD fun d =>
    if !(d.domOn (72 + g.val)) ∨ d.inn.refLost.contains g.val then skip
    else
      both (modI fun n => { n with refLost := g.val :: n.refLost })
        (forAll (groupLanes g) fun l =>
          ops [setF (lnPg l) F.LN_STAT.ref_ok 0, setF (lnPg l) F.LN_STAT.pll_lock 0, lnErr l 7,
            whenD (fun d1 => d1.laneOn l && lsPll ≤ d1.lnState l && d1.lnState l != lsTest)
              (ops [restartLane lsPll l, laneRetrain l, laneMacDown l])])

/-- REF_RETURN (R305). The reference is present again: PLLs of the group may lock. -/
def execRefReturn (g : Fin 4) (s : State) : Result :=
  go s <| withD fun d =>
    if !(d.domOn (72 + g.val)) then skip
    else
      both (modI fun n => { n with refLost := n.refLost.filter (· != g.val) })
        (forAll (groupLanes g) fun l => setF (lnPg l) F.LN_STAT.ref_ok 1)

/-- EBUF_RECENTER (R308). The elastic buffer is recentred; its fill is not the model's (notes/assumptions/54.md). -/
def execEbufRecenter (l : LaneId) (s : State) : Result :=
  go s <| withD fun d =>
    if d.laneOn l ∧ d.lnState l = lsReady ∧ (d.lanePort l).isSome then lnErr l 2 else skip

/-! ### Registers of a lane (R306, R310 to R313) -/

/-- A write to LN_TXEQ: taken where the taps fit, else refused with the three fields unchanged. -/
def txeqWrite (l : LaneId) (pre main post : Nat) : Op :=
  pageWrite (lnPg l)
    (if pre + main + post ≤ 63 ∧ 24 ≤ main then
      ops [setF (lnPg l) F.LN_TXEQ.pre pre, setF (lnPg l) F.LN_TXEQ.main main, setF (lnPg l) F.LN_TXEQ.post post]
    else lnErr l 6)

/-- TXEQ_WRITE (R306). -/
def execTxeqWrite (l : LaneId) (pre : Fin 16) (main : Fin 64) (post : Fin 32) (s : State) : Result :=
  go s (txeqWrite l pre.val main.val post.val)

/-- EYE_SCAN (R310). -/
def execEyeScan (l : LaneId) (width : Fin 65) (height : Fin 1024) (s : State) : Result :=
  go s (whenD (fun d => d.laneOn l && d.lnState l == lsReady && d.bit (lnPg l) F.LN_EYETHR.scan_en)
    (eyeScan l width.val height.val))

/-- The owner of a lane is UP, or has its Ethernet link up. -/
def Device.ownerUp (d : Device) (l : LaneId) : Bool :=
  match d.lanePort l, d.laneMac l with
  | some p, _ => d.lnkState p == psUp
  | none, some m => d.bit (ethPg m) F.ETH_STAT.up
  | none, none => false

/-- A field of LN_TEST after a write: codes 5 to 7 leave it unchanged. -/
def testCode (old v : Nat) : Nat := if v ≤ 4 then v else old

/-- The checker stops: LN_PRBSERR and LN_PRBSBITS keep what they have come to, which the model leaves free (notes/assumptions/54.md). -/
def checkerStops (l : LaneId) : Op :=
  withFree fun n => forAll (List.range 3) fun i => setReg (lnPg l) (R.LN_PRBSERR + i) (Config.freeWord n i)

/-- What LN_TEST takes: the lane is under test while one of loop, gen and chk is nonzero; its port stays DOWN. -/
def laneTestGo (l : LaneId) (loop gen chk : Nat) : Op :=
  withD fun d =>
    let p := lnPg l
    let gen' := testCode (d.fld p F.LN_TEST.gen) gen
    let chk' := testCode (d.fld p F.LN_TEST.chk) chk
    let on := loop ≠ 0 ∨ gen' ≠ 0 ∨ chk' ≠ 0
    if on ∧ d.ownerUp l then lnErr l 5
    else
      ops [setF p F.LN_TEST.loop loop, setF p F.LN_TEST.gen gen', setF p F.LN_TEST.chk chk',
        whenB (d.fld p F.LN_TEST.chk != 0 && chk' == 0) (checkerStops l),
        if on then
          ops [setF p F.LN_STAT.under_test 1, restartLane lsTest l,
            match d.lanePort l with
            | some q => whenB (d.lnkState q != psAbsent) (portDown q)
            | none => laneMacDown l]
        else whenB (d.underTest l)
          (ops [setF p F.LN_STAT.under_test 0, applyEnable l,
            match d.lanePort l with
            | some q => whenD (fun d1 => d1.bit (lnkPg q) F.LNK_CTL.en && !((portLanes q).any d1.underTest) &&
                d1.lnkState q == psDown) (setF (lnkPg q) F.LNK_STAT.state psTrain)
            | none => skip])]

/-- A write of loop, gen and chk to LN_TEST. -/
def laneTest (l : LaneId) (loop gen chk : Nat) : Op := pageWrite (lnPg l) (laneTestGo l loop gen chk)

/-- LANE_TEST_WRITE (R311, R312). -/
def execLaneTestWrite (l : LaneId) (loop : Fin 4) (gen chk : Fin 8) (s : State) : Result :=
  go s (laneTest l loop.val gen.val chk.val)

/-- A write of inject to LN_TEST: one bit of the generated stream is inverted. -/
def prbsInject (l : LaneId) : Op :=
  pageWrite (lnPg l) (whenD (fun d => d.fld (lnPg l) F.LN_TEST.gen != 0) (emit (.wire (lnPg l) [1])))

/-- PRBS_INJECT (R311). -/
def execPrbsInject (l : LaneId) (s : State) : Result := go s (prbsInject l)

/-- A write of clear to LN_TEST. -/
def prbsClear (l : LaneId) : Op :=
  pageWrite (lnPg l) (ops [setReg (lnPg l) R.LN_PRBSERR 0, setReg (lnPg l) R.LN_PRBSBITS_LO 0, setReg (lnPg l) R.LN_PRBSBITS_HI 0])

/-- PRBS_CLEAR (R311). -/
def execPrbsClear (l : LaneId) (s : State) : Result := go s (prbsClear l)

/-- LN_STAT.owner: a port 0, a MAC 1, none 2 (R301). -/
def showOwner (l : LaneId) : Op :=
  withD fun d => setF (lnPg l) F.LN_STAT.owner (if (d.lanePort l).isSome then 0 else if (d.laneMac l).isSome then 1 else 2)

/-- The reset of page 0x08C gives lanes 44 to 47 back to port 11 (R313, R315). -/
def ethselLost : Op :=
  whenD (fun d => d.eth) (withD fun d =>
    ops [laneMacDown 44, laneMacDown 45, setB 140 F.LN_ETHSEL.eth false,
      setF 91 F.LNK_STAT.state (if d.bit 91 F.LNK_CTL.en then psTrain else psDown),
      forAll [44, 45, 46, 47] fun l => both (showOwner l) (whenB (!(d.underTest l)) (applyEnable l))])

/-- A write to LN_ETHSEL: a change is taken only while port 11 and both MACs are disabled. -/
def ethselWrite (eth : Bool) : Op :=
  pageWrite 140 (withD fun d =>
    if d.eth = eth then skip
    else if d.bit 91 F.LNK_CTL.en ∨ d.bit 41 F.ETH_CTL.en ∨ d.bit 42 F.ETH_CTL.en then lnErr 44 8
    else
      ops [setB 140 F.LN_ETHSEL.eth eth, setF 91 F.LNK_STAT.state (if eth then psAbsent else psDown),
        forAll [44, 45, 46, 47] showOwner])

/-- ETHSEL_WRITE (R313). -/
def execEthselWrite (eth : Bool) (s : State) : Result := go s (ethselWrite eth)

end Sys2Proof.Machine
end

