-- ==== Sys2Proof/Machine/Link.lean ====
section
/-!
DEFINITION. The device link fabric (12_device_link_fabric.md): frames and their replay, routes between devices, end-to-end
requests, delivery of remote requests, time over the links, key agreement and re-keying, waymarks.
-/

namespace Sys2Proof.Machine

/-! ### Sending frames (R278, R281, R295) -/

/-- The 64-bit counter of frames sent under the key in use (LNK_FRAMECTR). -/
def Device.frameCtr (d : Device) (p : PortId) : Nat := d.reg64 (lnkPg p) R.LNK_FRAMECTR_LO

/-- The fields of a frame, as an output shows them. -/
def frameNums (f : Frame) : List Nat :=
  [f.cls, f.etag, if f.stage then 1 else 0, f.hops, f.ports, f.dst, f.src, f.kind, f.addr, f.status,
    if f.poison then 1 else 0, if f.dbg then 1 else 0, f.init, f.be, f.word.toNat] ++ f.data.map (·.toNat)

/-- One frame leaves the port under a link sequence number; nothing leaves while a new key is awaited. -/
def transmit (p : PortId) (seq : Nat) (f : Frame) : Op :=
  withD fun d =>
    if (d.lk p).waiting then skip
    else
      ops [emit (.frame p.val f.ftype (seq :: frameNums f)),
        whenB (d.bit (lnkPg p) F.LNK_STAT.enc)
          (both (setN64 (lnkPg p) R.LNK_FRAMECTR_LO (d.frameCtr p + 1))
            (whenB (2 ^ 40 ≤ d.frameCtr p + 1) (modK p fun k => { k with waiting := true })))]

/-- When the oldest frame of the replay buffer was first sent (R281). -/
def LinkS.since (k : LinkS) : Nat := k.times.headD 0

/-- Number a frame, keep it in the replay buffer and send it. -/
def sendFrame (p : PortId) (f : Frame) : Op :=
  withD fun d =>
    let k := d.lk p
    both (modK p fun k => { k with
        replay := k.replay ++ [(k.txSeq, f)], times := k.times ++ [d.now], unsent := if k.waiting then k.unsent + 1 else 0
        txSeq := (k.txSeq + 1) % 4096 })
      (transmit p k.txSeq f)

/-- A LINK frame: acknowledgement or nak of the last good sequence (R281). -/
def sendLink (p : PortId) (nak : Bool) : Op :=
  withD fun d =>
    whenB (!((d.lk p).waiting)) (emit (.frame p.val 3 [((d.lk p).rxSeq + 4095) % 4096, if nak then 1 else 0]))

/-- Resend the replay buffer: the budget spent, the port enters RETRAIN (R281). -/
def resend (p : PortId) : Op :=
  withD fun d =>
    let k := d.lk p
    if k.replay.isEmpty then skip
    else if 4 ≤ k.attempts ∨ k.since + 8000 ≤ d.now then both (lnkErr p 1) (portRetrain p)
    else
      ops [modK p fun k => { k with attempts := k.attempts + 1 },
        addReg (lnkPg p) R.LNK_REPLAYCNT k.replay.length,
        forAll k.replay fun x => transmit p x.1 x.2]

/-- The frames of a replay buffer after the one with a sequence number; all of them where it is not there. -/
def afterAck (seq : Nat) (xs : List (Nat × Frame)) : List (Nat × Frame) :=
  if xs.any (fun x => x.1 == seq) then (xs.dropWhile fun x => x.1 != seq).drop 1 else xs

/-- An acknowledgement releases the frames up to its sequence; a nak has the rest resent. -/
def takeAck (p : PortId) (a : Ack) : Op :=
  withD fun d =>
    let rest := afterAck a.seq (d.lk p).replay
    both (whenB (rest.length < (d.lk p).replay.length)
        (modK p fun k => { k with replay := rest, attempts := 0, times := k.times.drop (k.replay.length - rest.length) }))
      (whenB a.nak (resend p))

/-- A numbered frame comes in: the acknowledgement it carries is taken; it is answered with a nak where its CRC or its
authentication fails or it is out of sequence, else acknowledged and handled (R281, R296). -/
def receive (p : PortId) (a : Option Ack) (x : Received) (body : Op) : Op :=
  withD fun d =>
    if !(d.portOn p) || !(d.lnkState p == psUp || d.lnkState p == psKeying) then skip
    else
      match x with
      | .crc => both (incSat (lnkPg p) F.LNK_CRCCNT.crc) (sendLink p true)
      | .auth => ops [incSat (lnkPg p) F.LNK_CRCCNT.auth, lnkErr p 2, sendLink p true]
      | .good seq =>
        both (match a with
            | some k => takeAck p k
            | none => skip)
          (if seq % 4096 = (d.lk p).rxSeq then
            ops [modK p fun k => { k with rxSeq := (k.rxSeq + 1) % 4096 }, sendLink p false, body]
          else sendLink p true)

/-- As `receive`, for the frames that a port carries only while UP (R280). -/
def receiveUp (p : PortId) (a : Option Ack) (x : Received) (body : Op) : Op :=
  whenD (fun d => d.lnkState p == psUp) (receive p a x body)

/-- The network kind of a REQ, an RSP or an EVENT fits its type (R278). -/
def frameFits (f : Frame) : Bool :=
  if f.ftype = 1 then decide (f.kind ≤ 4) else if f.ftype = 2 then f.kind == 7 else f.kind == 8

/-- A REQ, RSP or EVENT comes in; one whose kind does not fit its type is discarded and answered with a nak (R278, R281). -/
def receiveFrame (p : PortId) (f : Frame) (a : Option Ack) (x : Received) (body : Op) : Op :=
  match x with
  | .good _ =>
    if frameFits f then receiveUp p a x body else whenD (fun d => d.portOn p && d.lnkState p == psUp) (sendLink p true)
  | _ => receiveUp p a x body

/-! ### Routes between devices (R283) -/

/-- The stage, hop count and ports of a link waymark: entry `m` of the member table, or of the group table. -/
def Device.linkRoute (d : Device) (dst : Nat) : Bool × Nat × Nat :=
  let own := dst / 128 == d.devnum / 128
  let w := (d.reg 80 (if own then 384 + dst % 128 else 256 + dst / 128 % 128)).toNat
  (own, w / 2 ^ 28, w % 2 ^ 28)

/-- The next egress port of a frame, where it has a hop left and that port is UP. -/
def Device.egress (d : Device) (f : Frame) : Option PortId :=
  let q := f.ports % 16
  if f.hops = 0 ∨ 12 ≤ q then none
  else
    let p : PortId := Fin.ofNat 12 q
    if d.portOn p && d.lnkState p == psUp then some p else none

/-- A frame takes its next hop through a port. -/
def nextHop (f : Frame) : Frame := { f with ports := f.ports / 16, hops := f.hops - 1 }

/-- A frame with a route of this device. -/
def Device.routed (d : Device) (f : Frame) : Frame :=
  let r := d.linkRoute f.dst
  { f with src := d.devnum, stage := r.1, hops := r.2.1, ports := r.2.2 }

/-- LNK_ERR.route_fault, in the page of the egress port that the frame names, else of `p` (notes/assumptions/33.md). -/
def routeErr (p : PortId) (f : Frame) : Op :=
  lnkErr (if f.hops = 0 ∨ 12 ≤ f.ports % 16 then p else Fin.ofNat 12 (f.ports % 16)) 4

/-- A frame that starts at this device and has no initiator to report to here: RSP, EVENT. -/
def launch (p : PortId) (f : Frame) : Op :=
  withD fun d =>
    let g := d.routed f
    match d.egress g with
    | some q => sendFrame q (nextHop g)
    | none => routeErr p g

/-- What a REQ that meets a route fault is answered with: an RSP, or for a posted one an EVENT, with a status (R282). -/
def answerReq (p : PortId) (f : Frame) (st : Nat) : Op :=
  launch p { f with ftype := if isPosted f.kind then 7 else 2, kind := if isPosted f.kind then 8 else 7, dst := f.src
                    status := st, data := [], be := 0 }

/-- A frame that meets a route fault at this device (R282). -/
def routeFault (p : PortId) (f : Frame) : Op :=
  both (routeErr p f) (whenB (f.ftype == 1) (answerReq p f Status.routeFault.code))

/-! ### End-to-end requests (R286, R287) -/

/-- The lowest free etag of a port. -/
def LinkS.freeEtag (k : LinkS) : Option Nat := (List.range 4096).find? fun t => !(k.etags.any fun x => x.1 == t)

/-- A link agent takes a request of the tile network: a route fault is answered at once; a port with no etag stalls it. -/
def agentTake (pk : Packet) : Op :=
  withD fun d =>
    let f : Frame := d.routed
      { ftype := 1, cls := pk.cls, dst := pk.dev, kind := pk.kind, addr := pk.addr, dbg := pk.dbg, init := pk.src
        be := pk.be, word := pk.word, data := pk.data }
    let gone : Op := modNet fun ps => ps.erase pk
    match d.egress f with
    | none => ops [gone, routeErr 0 f, reply pk Status.routeFault.code false []]
    | some q =>
      match (d.lk q).freeEtag with
      | none => skip
      | some t =>
        ops [gone, whenB (!(isPosted pk.kind)) (modK q fun k => { k with etags := k.etags ++ [(t, pk)] }),
          sendFrame q (nextHop { f with etag := t })]

/-- The outstanding request that an RSP from a device answers, and its port: on the port it came through, or any other
(R287, R288; notes/assumptions/34.md). -/
def Device.etagOf (d : Device) (p : PortId) (src t : Nat) : Option (PortId × Nat × Packet) :=
  (p :: List.finRange 12).findSome? fun q =>
    ((d.lk q).etags.find? fun x => x.1 == t && x.2.dev == src).map fun x => (q, x.1, x.2)

/-- RSP_FRAME (R287). An RSP for this device ends the request of its etag; a late one is discarded and counted. -/
def execRspFrame (p : PortId) (f : Frame) (a : Option Ack) (x : Received) (s : State) : Result :=
  go s <| withD fun d =>
    if f.ftype ≠ 2 ∨ f.hops ≠ 0 ∨ f.dst ≠ d.devnum then skip
    else
      receiveFrame p f a x
        (match d.etagOf p f.src f.etag with
        | some (q, t, pk) =>
          both (modK q fun k => { k with etags := k.etags.filter fun y => y.1 != t }) (reply pk f.status f.poison f.data)
        | none => both (incReg (lnkPg p) R.LNK_LATECNT) (lnkErr p 6))

/-- E2E_TIMEOUT (R30, R287). LNK_DEV.e2e_tmo has passed with no RSP. -/
def execE2eTimeout (p : PortId) (etag : Fin 4096) (s : State) : Result :=
  go s <| withD fun d =>
    match (d.lk p).etags.find? fun x => x.1 == etag.val with
    | some (t, pk) =>
      ops [modK p fun k => { k with etags := k.etags.filter fun y => y.1 != t }, incReg (lnkPg p) R.LNK_TOCNT, lnkErr p 5,
        reply pk Status.timeout.code false []]
    | none => skip

/-- EVENT_FRAME (R248, R288). A failed posted request is reported at its initiator. The kind of the request is not in the
frame, so what NI_ERRSRC.kind takes is free between PWRITE and MSGP. -/
def execEventFrame (p : PortId) (f : Frame) (a : Option Ack) (x : Received) (s : State) : Result :=
  go s <| withD fun d =>
    if f.ftype ≠ 7 ∨ f.hops ≠ 0 ∨ f.dst ≠ d.devnum then skip
    else
      receiveFrame p f a x
        (if 0x140 ≤ f.init ∧ f.init < 0x180 then
          let r : RegionId := Fin.ofNat 64 (f.init - 0x140)
          withFree fun k => niError r f.status (if Config.freeNat k 0 % 2 = 0 then 2 else 4) f.init
            (if d.fld (niPg r) F.NI_CTL.link_agent = 0 then 59 else 60) f.addr
        else if f.init = 0x100 then both (setN64 32 R.HP_ERRADDR_LO f.addr) (hpErr 6)
        else skip)

/-! ### Requests from other devices (R288, R289) -/

/-- A port accepts a remote request to a range (R33, R289). -/
def Device.remoteOk (d : Device) (p : PortId) (f : Frame) : Bool :=
  let c := lnkPg p
  if f.kind == 3 || f.kind == 4 then true
  else if inTier f.addr then d.bit c F.LNK_CTL.rx_mem
  else if inExt f.addr then d.bit c F.LNK_CTL.rx_ext
  else if regBase ≤ f.addr && f.addr < regBase + 0x400000 then
    d.bit c F.LNK_CTL.rx_reg && (d.lcs != 2 || d.bit c F.LNK_STAT.enc)
  else false

/-- The router of the agent of a port. -/
def agentRouter (p : PortId) : Nat := if p.val < 6 then 59 else 60

/-- Router and exit of a remote request. -/
def remoteDest (f : Frame) : Nat × Nat :=
  if f.kind = 3 ∨ f.kind = 4 then (f.addr % 64, 0) else (destOf f.addr).getD (4, 2)

/-- REQ_FRAME (R288, R289). A REQ for this device enters the tile network at its port's agent, in class 2; a range that the
port or R33 does not open is answered BUS_ERR. At 256 requests awaiting their responses no more are taken. -/
def execReqFrame (p : PortId) (f : Frame) (a : Option Ack) (x : Received) (s : State) : Result :=
  go s <| withD fun d =>
    let k := d.lk p
    if f.ftype ≠ 1 ∨ f.hops ≠ 0 ∨ f.dst ≠ d.devnum then skip
    else if 256 ≤ k.held.length ∧ ¬ isPosted f.kind then skip
    else
      receiveFrame p f a x
        (if !(d.remoteOk p f) then answerReq p f Status.busErr.code
        else
          let dest := remoteDest f
          let pk : Packet :=
            { kind := f.kind, cls := 2, tag := p.val, src := 0x300 + p.val, dev := d.devnum, addr := f.addr, be := f.be
              word := f.word, data := f.data, poison := f.poison, pos := agentRouter p, rexit := 2, seq := k.nextPkt
              dirs := d.route' (agentRouter p) dest.1, exit := dest.2, dbg := f.dbg, origin := some (f.src, f.etag, f.init) }
          ops [modK p fun k => { k with nextPkt := k.nextPkt + 1, held := if isPosted f.kind then k.held else k.held ++ [k.nextPkt] },
            modNet fun ps => ps ++ [pk]])

/-- The response, or EVENT, to a remote request goes back to its source device (R288). -/
def agentReturn (pk : Packet) : Op :=
  withD fun d =>
    let p : PortId := Fin.ofNat 12 (pk.src - 0x300)
    match pk.origin with
    | some (dev, etag, init) =>
      both (modK p fun k => { k with held := k.held.filter (· != pk.seq) })
        (launch p { ftype := if pk.kind = 8 then 7 else 2, cls := 2, etag := etag, dst := dev, src := d.devnum, kind := pk.kind
                    addr := pk.addr, status := pk.status, poison := pk.poison, init := init, data := pk.data })
    | none => skip

/-- FRAME_TRANSIT (R282, R283). A frame with hops left goes out through its next port; one that arrives in its destination's
group at stage 0 first takes the member waymark; with neither it is a route fault. -/
def execFrameTransit (p : PortId) (f : Frame) (a : Option Ack) (x : Received) (s : State) : Result :=
  go s <| withD fun d =>
    let member : Frame := { d.routed f with src := f.src }
    let g := if f.hops = 0 ∧ !f.stage ∧ f.dst / 128 = d.devnum / 128 then member else f
    if f.hops = 0 ∧ f.dst = d.devnum ∨ !([1, 2, 7].contains f.ftype) then skip
    else
      receiveFrame p f a x
        (match d.egress g with
        | some q => sendFrame q (nextHop g)
        | none => routeFault p g)

/-- LINK_FRAME (R281). -/
def execLinkFrame (p : PortId) (a : Ack) (s : State) : Result :=
  go s (whenD (fun d => d.portOn p && (d.lnkState p == psUp || d.lnkState p == psKeying)) (takeAck p a))

/-- REPLAY_TIMEOUT (R281). -/
def execReplayTimeout (p : PortId) (s : State) : Result := go s (whenD (fun d => d.portOn p) (resend p))

/-! ### Chain streams (R151) -/

/-- Send bytes down the chain, in LOAD frames of at most four lines. -/
def sendLoad (p : PortId) (bs : List Byte) : Op :=
  forAll (List.range ((bs.length + 255) / 256)) fun i => sendFrame p { ftype := 6, data := slice bs (256 * i) 256 }

/-- What is left of some bytes after `n` whole images, or none where they have not all come. -/
def imagesEnd : Nat → List Byte → Option (List Byte)
  | 0, bs => some bs
  | n + 1, bs => if bs.length < 256 ∨ bs.length < imgLength bs then none else imagesEnd n (bs.drop (imgLength bs))

/-- The stream ends: what follows it is another one. -/
def Loader.chainOver (l : Loader) (rest : List Byte) : Loader :=
  { l with chain := none, fwd := [], own := [], forwarded := false, mute := false, chainIn := rest }

/-- The part of a chain stream that has come in after the device's own image goes on, or is dropped. -/
def chainRest : Op :=
  withD fun d =>
    let l := d.ldr
    match l.chain with
    | some (n, _) =>
      if !l.forwarded then skip
      else
        let send (bs : List Byte) : Op := whenB (!l.mute) (sendLoad (Fin.ofNat 12 (imgPort l.own)) bs)
        match imagesEnd (n - 1) (l.fwd ++ l.chainIn) with
        | some rest => both (send (l.chainIn.take (l.chainIn.length - rest.length))) (modL fun l => l.chainOver rest)
        | none => both (send l.chainIn) (modL fun l => { l with fwd := l.fwd ++ l.chainIn, chainIn := [] })
    | none => skip

/-- The images that follow are not forwarded: they are dropped as they come. -/
def chainMute : Op := both (modL fun l => { l with forwarded := true, mute := true }) chainRest

/-- The chain is broken at this device: the rest of the stream, whose images cannot be told apart, is dropped (R151). -/
def chainBreak : Op :=
  ops [modL fun l => { l.chainOver [] with lost := true }, setF 0 F.DEV_LOADSTAT.cause 0x13, reportChain]

/-- CHAIN_FORWARD (R151). The last byte of the kept image has come: the rest of the stream goes on through its chain_port
under a header with N - 1, whatever became of the load; it waits while that port is not UP. With N at 1, chain_port 0xFF
or no port, or a header that cannot be parsed (cause 0x13), nothing is forwarded. -/
def execChainForward (s : State) : Result :=
  go s <| withD fun d =>
    let l := d.ldr
    match l.chain with
    | none => skip
    | some (n, t) =>
      let q := imgPort l.own
      if l.own.length < 256 ∨ l.forwarded then skip
      else if headerCause l.own 2 = 1 then chainBreak
      else if !(chainDone l) then skip
      else if n = 1 ∨ 12 ≤ q then chainMute
      else if d.lnkState (Fin.ofNat 12 q) ≠ psUp then skip
      else
        ops [modL fun l => { l with forwarded := true },
          sendLoad (Fin.ofNat 12 q) (Word.bytesOfNat 4 0x4E494843 ++ Word.bytesOfNat 1 (n - 1) ++ Word.bytesOfNat 1 t ++
            List.replicate 10 0), chainRest]

/-- LOAD_FRAME (R151, R286). Bytes of a chain stream. -/
def execLoadFrame (p : PortId) (bs : List Byte) (a : Option Ack) (x : Received) (s : State) : Result :=
  go s (receiveUp p a x (ops [chainBytes bs, takeMore, pullChain, chainRest]))

/-! ### Time (R290 to R293) -/

/-- DEVTIME in 1/16 ns. -/
def Device.now16 (d : Device) : Nat := 16 * d.now + d.inn.devfrac * 16 / nsUnit

/-- TIME_FRAME_SEND (R290). -/
def execTimeFrameSend (p : PortId) (s : State) : Result :=
  go s <| withD fun d =>
    if d.portOn p ∧ d.lnkState p = psUp ∧ !((d.lk p).waiting) then
      both (emit (.frame p.val 4 [0, d.now16])) (modK p fun k => { k with timeSent := d.now16 })
    else skip

/-- The device follows the offset to its time parent (R291): a step on the first one and on one above 1 µs, else a rate
correction, of which the spec states the bound of 200 ppm and not the amount. -/
def followTime (p : PortId) (ofs : Int) : Op :=
  withD fun d =>
    if d.bit 80 F.LNK_DEV.cor ∨ d.fld 80 F.LNK_DEV.tparent ≠ p.val then skip
    else if !((d.lk p).synced) ∨ 16000 < ofs.natAbs then
      ops [modK p fun k => { k with synced := true }, stepTime16 ofs, lnkErr p 7]
    else withFree fun k => setReg 16 R.TIME_RATE (BitVec.ofInt 32 ((Config.freeNat k 0 % 400001 : Nat) - 200000))

/-- TIME_FRAME (R290, R291). A TIME frame of the peer is answered, with the times of its receipt and of the answer; an
answer, which carries the peer's `t2` and `t3` in 1/16 ns, gives offset and delay. -/
def execTimeFrame (p : PortId) (ans : Option (Nat × Nat)) (s : State) : Result :=
  go s <| withD fun d =>
    if !(d.portOn p) || d.lnkState p != psUp then skip
    else
      match ans with
      | none => whenB (!((d.lk p).waiting)) (emit (.frame p.val 4 [1, d.now16, d.now16]))
      | some (t2, t3) =>
        let t1 : Int := (d.lk p).timeSent
        let t4 : Int := d.now16
        let ofs : Int := ((t2 - t1) + (t3 - t4)) / 2
        ops [setReg (lnkPg p) R.LNK_TIMEOFS (BitVec.ofInt 32 ofs),
          setReg (lnkPg p) R.LNK_TIMEDLY (BitVec.ofInt 32 (((t4 - t1) - ((t3 : Int) - t2)) / 2)), followTime p ofs]

/-! ### Keys (R294, R295, R443) -/

/-- The KEY frame of this end: its ephemeral key, signed with the identity key, and its owner root hash. -/
def keyFrame (p : PortId) : Op :=
  withD fun d => sendFrame p { ftype := 5, dst := d.fld (lnkPg p) F.LNK_PEER.dev, src := d.devnum
                               data := Config.sigSign d.inn.stw.owner ++ d.inn.stw.owner }

/-- STW_AGREELAST: the port of the last agreement and its peer. -/
def agreeLast (p : PortId) : Op :=
  withD fun d => both (setF 3 F.STW_AGREELAST.port p.val) (setF 3 F.STW_AGREELAST.dev (d.fld (lnkPg p) F.LNK_PEER.dev))

/-- The agreement of a port fails: DOWN, rekey_fail, agree_fail (R294, R295, STW_EV3). -/
def keyFail (p : PortId) : Op :=
  ops [agreeLast p, incReg 3 R.STW_AGREEFAIL, causeAt 3 R.STW_EV3 0 16 0, portDown p,
    setF (lnkPg p) F.LNK_KEYSTAT.state 3, lnkErr p 3]

/-- PORT_PARAM (R280). The ends exchange device number, port number and enc_req; the port enters KEYING if either end
asks for encryption, else UP. With no identity key in the key store KEYING fails (R428, R441). -/
def execPortParam (p : PortId) (dev : Fin 16384) (port : Fin 16) (encReq : Bool) (s : State) : Result :=
  go s <| withD fun d =>
    if !(d.portOn p) || d.lnkState p != psParam then skip
    else
      ops [setF (lnkPg p) F.LNK_PEER.valid 1, setB (lnkPg p) F.LNK_PEER.enc_req encReq, setF (lnkPg p) F.LNK_PEER.port port.val,
        setF (lnkPg p) F.LNK_PEER.dev dev.val,
        if encReq || d.bit (lnkPg p) F.LNK_CTL.enc_req then
          ops [setF (lnkPg p) F.LNK_STAT.state psKeying, setF (lnkPg p) F.LNK_KEYSTAT.state 2,
            if d.inn.stw.identity then keyFrame p else keyFail p]
        else portUp p false]

/-- The cause with which a steward refuses the KEY frame of its peer, or 0 (R443, STW_KEYERR). -/
def Device.keyRefusal (d : Device) (bs : List Byte) : Nat :=
  if !(Config.peerChainOk bs) then 1
  else if !(Config.peerSigOk bs) then 2
  else if Config.peerOwner bs ≠ d.inn.stw.owner ∧ !(d.lcs == 1 && d.bit 3 F.STW_POLICY.any_owner) then 3
  else 0

/-- A new key is in place: the frame counter starts at 0, what waited for it is sent (R295). -/
def newKey (p : PortId) : Op :=
  withD fun d =>
    let k := d.lk p
    let held := if k.waiting then k.replay.drop (k.replay.length - k.unsent) else []
    ops [agreeLast p, incReg 3 R.STW_AGREECNT, setF (lnkPg p) F.LNK_KEYSTAT.state 1, incF (lnkPg p) F.LNK_KEYSTAT.epoch, setN64 (lnkPg p) R.LNK_FRAMECTR_LO 0,
      modK p fun k => { k with waiting := false, unsent := 0 }, whenB (d.lnkState p == psKeying) (portUp p true),
      forAll held fun x => transmit p x.1 x.2]

/-- KEY_FRAME (R294, R295, R443). A KEY frame of the peer while an agreement runs; one that comes while the port is keyed
begins the peer's re-key. -/
def execKeyFrame (p : PortId) (bs : List Byte) (a : Option Ack) (x : Received) (s : State) : Result :=
  go s <| withD fun d =>
    let st := d.fld (lnkPg p) F.LNK_KEYSTAT.state
    if st ≠ 1 ∧ st ≠ 2 then skip
    else
      receive p a x
        (let c := d.keyRefusal bs
        if !d.inn.stw.identity then keyFail p
        else if c ≠ 0 then both (setF 3 F.STW_KEYERR.cause c) (keyFail p)
        else ops [whenB (st == 1) (keyFrame p), newKey p])

/-- REKEY_THRESHOLD (R295). The frame counter reaches 15 × 2^36: the stewards begin agreeing a new key. -/
def execRekeyThreshold (p : PortId) (s : State) : Result :=
  go s <| withD fun d =>
    if d.portOn p ∧ d.lnkState p = psUp ∧ d.bit (lnkPg p) F.LNK_STAT.enc ∧ 15 * 2 ^ 36 ≤ d.frameCtr p ∧
        d.fld (lnkPg p) F.LNK_KEYSTAT.state = 1 then
      both (setF (lnkPg p) F.LNK_KEYSTAT.state 2) (keyFrame p)
    else skip

/-- REKEY_TIMEOUT (R295). A port stopped at 2^40 has no new key within 100 µs. -/
def execRekeyTimeout (p : PortId) (s : State) : Result :=
  go s (whenD (fun d => d.portOn p && (d.lk p).waiting) (keyFail p))

/-! ### Waymarks (R284) -/

/-- The check of a link waymark: the code of LNK_WMCTL.cause, 0 where it passes. -/
def linkWmCheck (w : Nat) : Nat :=
  if 7 < w / 2 ^ 28 then 1
  else if (List.range (w / 2 ^ 28)).any fun i => 11 < w / 16 ^ i % 16 then 2
  else 0

/-- A write of flip to LNK_WMCTL. -/
def linkWaymarkFlip (member : Bool) (e : Nat) : Op :=
  pageWrite 80 (withD fun d =>
    let t := if member then 128 else 0
    let w := d.reg 80 (512 + t + e)
    let c := linkWmCheck w.toNat
    ops [setB 80 F.LNK_WMCTL.tbl member, setF 80 F.LNK_WMCTL.entry e, setF 80 F.LNK_WMCTL.cause c,
      if c = 0 then both (setReg 80 (256 + t + e) w) (setF 80 F.LNK_WMCTL.result 1) else setF 80 F.LNK_WMCTL.result 2])

/-- LINK_WAYMARK_FLIP (R284). -/
def execLinkWaymarkFlip (member : Bool) (e : Fin 128) (s : State) : Result := go s (linkWaymarkFlip member e.val)

end Sys2Proof.Machine
end

