-- ==== Sys2Proof/Machine/MachineIo.lean ====
section
/-!
DEFINITION. Machine I/O (15_machine_io.md): I/O banks and their delay lines, the states of a pin, hard serial ports,
management buses, the Ethernet MACs with their gate lists and shapers, the flash die.
-/

namespace Sys2Proof.Machine

/-! ### I/O banks (R341 to R348, R354) -/

/-- A cause of IO_ERR. -/
def ioErr (b : BankId) (i : Nat) : Op := cause (ioPg b) R.IO_ERR i

/-- VCCIO_BAD (R343). -/
def execVccioBad (b : BankId) (measured : Fin 8) (s : State) : Result :=
  go s (ops [setF (ioPg b) F.IO_INFO.measured measured.val, modI fun n => { n with vccBad := b.val :: n.vccBad.filter (· != b.val) },
    ioErr b 0])

/-- VCCIO_GOOD (R343, R345). The pins are released, the delay lines calibrated; `worst` is the residual skew in ps. -/
def execVccioGood (b : BankId) (measured : Fin 8) (worst : Byte) (s : State) : Result :=
  go s (ops [setF (ioPg b) F.IO_INFO.measured measured.val, modI fun n => { n with vccBad := n.vccBad.filter (· != b.val) },
    setF (ioPg b) F.IO_CALSTAT.calibrated 1, setF (ioPg b) F.IO_CALSTAT.residual worst.toNat,
    whenB (10 < worst.toNat) (ioErr b 1)])

/-- The delay tap of a pin and the tap it moves toward (R345, R346). -/
def Device.tap (d : Device) (k : Nat) : Nat := natAt d.inn.tap k
def Device.tapGoal (d : Device) (k : Nat) : Nat := natAt d.inn.tapGoal k

/-- A write to IO_DLYVAL: refused while the selected pin moves; a selection above 47 names no pin. -/
def delayWrite (b : BankId) (tap : Nat) : Op :=
  pageWrite (ioPg b) (withD fun d =>
    let pin := d.fld (ioPg b) F.IO_DLYSEL.pin
    let k := 48 * b.val + pin
    if 48 ≤ pin then skip
    else if d.tap k ≠ d.tapGoal k then ioErr b 2
    else modI fun n => { n with tapGoal := natPut n.tapGoal k tap })

/-- DELAY_WRITE (R346). -/
def execDelayWrite (b : BankId) (tap : Fin 512) (s : State) : Result := go s (delayWrite b tap.val)

/-- DELAY_REACHED (R346). -/
def execDelayReached (b : BankId) (pin : Fin 48) (s : State) : Result :=
  go s (withD fun d =>
    let k := 48 * b.val + pin.val
    modI fun n => { n with tap := natPut n.tap k (d.tapGoal k) })

/-- A pin of a bank is given to a hard function while that is enabled (R341, R342): four pins of bank 8 or 9 to each serial port, pins
46 and 47 of banks 0 to 3 to a management bus. A pin goes back to its region at the write that disables the function, which is one
SYS_CLK cycle sooner than R342 has it. -/
def Device.pinHard (d : Device) (b : BankId) (pin : Fin 48) : Bool :=
  if b.val < 4 then 46 ≤ pin.val && d.bit (64 + b.val) F.MB_CTL.en
  else
    8 ≤ b.val && pin.val < 32 && d.fld (serPg (Fin.ofNat 16 (8 * (b.val - 8) + pin.val / 4))) F.SER_CTL.mode != 0

/-- The rows of the table States of a user pin (R347), in its order, and the pins of a hard function. A bank whose VCCIO is bad holds
every pin, those of hard functions too (R343). -/
inductive PinRow
  | vccioBad | hard | asleep | neverReleased | standby | nap | frozen | context
deriving DecidableEq, Repr

/-- The row that gives the state of a pin. -/
def Device.pinRow (d : Device) (b : BankId) (pin : Fin 48) : PinRow :=
  let r := bankOwner b
  let g := d.rg r
  if d.inn.vccBad.contains b.val then .vccioBad
  else if d.inn.phase ≠ .up then .asleep
  else if d.pinHard b pin then .hard
  else if g.fullLoad then .neverReleased
  else if g.loadReset ∨ g.test ∨ 2 ≤ d.rgnP r.val then .standby
  else if d.rgnP r.val = 1 then .nap
  else if g.frozen then .frozen
  else .context

/-- What a pin of a bank does: high-Z, with a weak pull up or down or with none, or driven with a bit for each half of the clock;
the hard function has it. -/
inductive PinState
  | highZ (pull : Option Bool)
  | drive (first second : Bool)
  | function
deriving DecidableEq, Repr

/-- A pin as the registers of outputs and enables given have it (R344): bits 2k and 2k + 1 of the outputs. -/
def pinDriven (regs : Nat × Nat) (pin : Fin 48) : PinState :=
  if regs.2.testBit pin.val then .drive (regs.1.testBit (2 * pin.val)) (regs.1.testBit (2 * pin.val + 1)) else .highZ none

/-- The pull of the IO_PULL_SEL strap: up while it is high (R347). -/
def Device.strapPull (d : Device) : PinState := .highZ (some (d.bit 17 F.PWR_STRAPS.io_pull_sel))

/-- The standby state of a pin by IO_STBY.mode (R348). -/
def Device.pinStandby (d : Device) (b : BankId) (pin : Fin 48) : PinState :=
  let last := (d.rg (bankOwner b)).pinLast
  let wasOut := last.2.testBit pin.val
  match d.fld (ioPg b) F.IO_STBY.mode with
  | 0 => d.strapPull
  | 1 => .highZ none
  | 2 => pinDriven last pin
  | 3 => if wasOut then .drive false false else .highZ none
  | _ => if wasOut then .drive true true else .highZ none

/-- The state of a pin (R342, R347, R348). -/
def Device.pinState (d : Device) (b : BankId) (pin : Fin 48) : PinState :=
  match d.pinRow b pin with
  | .vccioBad => .highZ none
  | .hard => .function
  | .asleep => d.strapPull
  | .neverReleased => d.strapPull
  | .standby => d.pinStandby b pin
  | .nap => pinDriven (d.rg (bankOwner b)).pinLast pin
  | .frozen => pinDriven (d.rg (bankOwner b)).pinLast pin
  | .context => pinDriven (d.rg (bankOwner b)).pinLast pin

/-! ### Hard serial ports (R349 to R351) -/

def Device.se (d : Device) (p : SerialId) : SerS := d.inn.ser[p.val]
def modSer (p : SerialId) (f : SerS → SerS) : Op := modI fun n => { n with ser := n.ser.set p.val (f n.ser[p.val]) }
def serErr (p : SerialId) (i : Nat) : Op := cause (serPg p) R.SER_ERR i
def Device.serMode (d : Device) (p : SerialId) : Nat := d.fld (serPg p) F.SER_CTL.mode

/-- The low bits of a word. -/
def lowBits (n : Nat) (w : Word) : Word := BitVec.ofNat 32 (w.toNat % 2 ^ n)

/-- A write to SER_TX. -/
def serTxPush (p : SerialId) (w : Word) : Op :=
  pageWrite (serPg p) (withD fun d =>
    if 64 ≤ (d.se p).tx.length then serErr p 4
    else
      let v := if d.serMode p = 3 then w else lowBits 9 w
      modSer p fun q => { q with tx := q.tx ++ [v] })

/-- SER_TX_PUSH (R351). -/
def execSerTxPush (p : SerialId) (w : Word) (s : State) : Result := go s (serTxPush p w)

/-- What a read of SER_RX returns: the oldest entry, or bit 31 where there is none; a peek returns 0. -/
def Device.serRx (d : Device) (who : Who) (p : SerialId) : Word :=
  if who = .debugger then 0
  else
    match (d.se p).rx with
    | w :: _ => w
    | [] => 0x80000000

/-- A read of SER_RX pops the receive FIFO; a debug peek does not. -/
def serRxPop (who : Who) (p : SerialId) : Op :=
  if who = .debugger then setF 5 F.DBG_STAT.peek_refused 1 else modSer p fun q => { q with rx := q.rx.drop 1 }

/-- SER_RX_POP (R351). -/
def execSerRxPop (who : Who) (p : SerialId) (s : State) : Result :=
  go s (pageWrite (serPg p) (withD fun d => both (serRxPop who p) (emit (.device (serPg p) [who.id, (d.serRx who p).toNat]))))

/-- Something has been received: SER_RXTIME. -/
def serStamp (p : SerialId) : Op := withD fun d => setN64 (serPg p) R.SER_RXTIME_LO d.now

/-- UART_RX_CHAR (R349, R351). A character of the format's data bits, with what the receiver found. -/
def execUartRxChar (p : SerialId) (v : BitVec 9) (framing parity brk : Bool) (s : State) : Result :=
  go s <| withD fun d =>
    if d.serMode p ≠ 1 ∧ d.serMode p ≠ 2 then skip
    else
      ops [serStamp p, whenB framing (serErr p 1), whenB (parity && d.fld (serPg p) F.SER_FMT.parity != 0) (serErr p 2),
        whenB brk (serErr p 3),
        if 64 ≤ (d.se p).rx.length then serErr p 0
        else modSer p fun q => { q with rx := q.rx ++ [lowBits (d.fld (serPg p) F.SER_FMT.bits) (v.zeroExtend 32)] }]

/-- RTS_N is raised while fewer than 8 receive entries are free, with flow at 1 (R349). -/
def Device.rtsN (d : Device) (p : SerialId) : Bool := d.bit (serPg p) F.SER_CTL.flow && 56 < (d.se p).rx.length

/-- UART_TX_CHAR (R349). With flow at 1 only while CTS_N is low. -/
def execUartTxChar (p : SerialId) (ctsN : Bool) (s : State) : Result :=
  go s <| withD fun d =>
    match (d.se p).tx with
    | w :: rest =>
      if (d.serMode p = 1 ∨ d.serMode p = 2) ∧ ¬ (d.bit (serPg p) F.SER_CTL.flow ∧ ctsN) then
        both (modSer p fun q => { q with tx := rest })
          (emit (.wire (serPg p) [(lowBits (d.fld (serPg p) F.SER_FMT.bits) w).toNat]))
      else skip
    | [] => skip

/-- SPI_WORD (R350). A word is exchanged, of SER_SPI's length; CS_N rises with the transmit FIFO empty or after SER_SPI.words
words. A full receive FIFO holds SCLK. -/
def execSpiWord (p : SerialId) (miso : Word) (s : State) : Result :=
  go s <| withD fun d =>
    let n := d.fld (serPg p) F.SER_SPI.wlen + 1
    match (d.se p).tx with
    | w :: rest =>
      if d.serMode p ≠ 3 ∨ 64 ≤ (d.se p).rx.length then skip
      else
        let k := ((d.se p).cs.getD 0) + 1
        let ended := rest.isEmpty || k == d.fld (serPg p) F.SER_SPI.words
        ops [modSer p fun q => { tx := rest, rx := q.rx ++ [lowBits n miso], cs := if ended then none else some k },
          emit (.wire (serPg p) [(lowBits n w).toNat, if ended then 1 else 0]), serStamp p]
    | [] => skip

/-! ### Management buses (R352, R353) -/

/-- The page of a management bus. -/
def mbPg (m : Fin 4) : Nat := 64 + m.val

/-- A write to MB_CMD with start at 1: ignored while a transaction runs, while the bus is not enabled, and with a length
above 4. -/
def mbStart (m : Fin 4) (addr wlen rlen : Nat) : Op :=
  pageWrite (mbPg m) (withD fun d =>
    if d.bit (mbPg m) F.MB_STAT.busy ∨ ¬ d.bit (mbPg m) F.MB_CTL.en ∨ 4 < wlen ∨ 4 < rlen then skip
    else
      ops [setF (mbPg m) F.MB_STAT.busy 1, modI fun n => { n with mb := n.mb.set m.val (some (addr, wlen, rlen)) },
        emit (.wire (mbPg m) ([addr, wlen, rlen] ++ ((Word.bytes (d.reg (mbPg m) R.MB_DATA)).take wlen).map (·.toNat)))])

/-- MB_TRANSACTION (R352). -/
def execMbTransaction (m : Fin 4) (addr : Fin 128) (wlen rlen : Fin 8) (s : State) : Result :=
  go s (mbStart m addr.val wlen.val rlen.val)

/-- A transaction ends. -/
def mbEnd (m : Fin 4) (result : Nat) : Op :=
  ops [setF (mbPg m) F.MB_STAT.busy 0, setF (mbPg m) F.MB_STAT.result result,
    modI fun n => { n with mb := n.mb.set m.val none },
    whenB (result != 0) (ioErr (Fin.ofNat 10 m.val) 3)]

/-- The word with its first `n` bytes replaced by the first of some others. -/
def putLow (n : Nat) (bs : List Byte) (w : Word) : Word :=
  BitVec.ofNat 32 (Word.natOfBytes ((bs.take n ++ (Word.bytes w).drop (min n bs.length)).take 4))

/-- MB_DONE (R352, R353). With the result (0 OK, 1 and 2 no-acknowledge, 3 arbitration lost) and what was read. -/
def execMbDone (m : Fin 4) (result : Fin 4) (data : List Byte) (s : State) : Result :=
  go s <| withD fun d =>
    match d.inn.mb[m.val] with
    | some (_, _, rlen) =>
      both (whenB (result == 0) (setReg (mbPg m) R.MB_DATA (putLow rlen data (d.reg (mbPg m) R.MB_DATA)))) (mbEnd m result.val)
    | none => skip

/-- MB_TIMEOUT (R353). Nine clock pulses and a stop are sent before the report. -/
def execMbTimeout (m : Fin 4) (s : State) : Result :=
  go s <| withD fun d =>
    match d.inn.mb[m.val] with
    | some _ => both (emit (.wire (mbPg m) [9])) (mbEnd m 4)
    | none => skip

/-! ### Ethernet MACs (R355 to R359) -/

def Device.mc (d : Device) (m : MacId) : MacS := d.inn.mac[m.val]
def modMac (m : MacId) (f : MacS → MacS) : Op := modI fun n => { n with mac := n.mac.set m.val (f n.mac[m.val]) }
def ethErr (m : MacId) (i : Nat) : Op := causeAt (ethPg m) R.ETH_ERR i 16 0

/-- The client region of a MAC. -/
def macClient (m : MacId) : RegionId := Fin.ofNat 64 (63 - m.val)

/-- A write to ETH_CTL's en and rate. -/
def ethEnable (m : MacId) (en : Bool) (rate : Nat) : Op :=
  pageWrite (ethPg m) (withD fun d =>
    let was := d.bit (ethPg m) F.ETH_CTL.en
    ops [whenB (!was && rate < 2) (setF (ethPg m) F.ETH_CTL.rate rate),
      if en && !d.eth then ethErr m 6
      else if en = was then skip
      else
        let l : LaneId := Fin.ofNat 48 (44 + m.val)
        ops [setB (ethPg m) F.ETH_CTL.en en, whenB (!en) (laneMacDown l), whenB (!(d.underTest l)) (applyEnable l)]])

/-- ETH_ENABLE (R301, R302, R355). -/
def execEthEnable (m : MacId) (en : Bool) (rate : Fin 4) (s : State) : Result := go s (ethEnable m en rate.val)

/-- 64 B units of a frame in the receive buffer, and of the buffer (ETH_RXBUF). -/
def rxUnits (n : Nat) : Nat := (n + 63) / 64
def MacS.fill (x : MacS) : Nat := x.rx.foldl (fun n f => n + rxUnits f.data.length) 0

/-- The station filter: the station's own address or a group address, everything while promiscuous. -/
def Device.macTakes (d : Device) (m : MacId) (bs : List Byte) : Bool :=
  d.bit (ethPg m) F.ETH_CTL.promisc || numAt bs 0 1 % 2 == 1 ||
    numAt bs 0 6 == d.reg64 (ethPg m) R.ETH_ADDR_LO % 2 ^ 48

/-- DEVTIME with a signed path correction, in 1/16 ns modulo 2^68 (R357). -/
def Device.stamp (d : Device) (corr : Word) : Nat := (((d.now16 : Int) + corr.toInt) % (2 ^ 68 : Int)).toNat

/-- ETH_RX_FRAME (R355, R357). A frame, without preamble and FCS, and whether its FCS is good. -/
def execEthRxFrame (m : MacId) (bs : List Byte) (fcsOk : Bool) (s : State) : Result :=
  go s <| withD fun d =>
    let p := ethPg m
    if !(d.bit p F.ETH_STAT.up) || !(d.bit p F.ETH_CTL.en) || !(d.macTakes m bs) then skip
    else
      let n := (d.mc m).fill + rxUnits bs.length
      let f : RxFrame :=
        { data := bs, err := !fcsOk || d.fld p F.ETH_MAXLEN.len < bs.length + 4, ts := d.stamp (d.reg p R.ETH_TSCORR_RX) }
      both (whenB (!fcsOk) (ethErr m 2))
        (if 1024 < n then ethErr m 3
        else
          ops [modMac m fun x => { x with rx := x.rx ++ [f] }, setF p F.ETH_RXBUF.fill n,
            setF p F.ETH_RXBUF.peak (max n (d.fld p F.ETH_RXBUF.peak))])

/-- The client interface moves beats: the client region is loaded, in P0 and has no speculation open (R356). -/
def Device.clientOk (d : Device) (m : MacId) : Bool :=
  let g := d.rg (macClient m)
  !g.loadReset && d.rgnP (macClient m).val == 0 && g.spec.isNone && g.aborting.isNone

/-- ETH_CLIENT_RX_BEAT (R356). The personality takes a beat of at most 16 bytes: data, start and end of frame, empty bytes,
error, and on the first beat the timestamp. -/
def execEthClientRxBeat (m : MacId) (s : State) : Result :=
  go s <| withD fun d =>
    let x := d.mc m
    match x.rx with
    | f :: rest =>
      if !(d.clientOk m) || !(d.enable (macClient m)) then skip
      else
        let beat := (f.data.drop x.rxOff).take 16
        let ended := f.data.length ≤ x.rxOff + 16
        both (modMac m fun x => if ended then { x with rx := rest, rxOff := 0 } else { x with rxOff := x.rxOff + 16 })
          (ops [withD fun d1 => setF (ethPg m) F.ETH_RXBUF.fill (d1.mc m).fill,
            emit (.fabric (macClient m).val 3 ([m.val, if x.rxOff = 0 then 1 else 0, if ended then 1 else 0, 16 - beat.length,
              if f.err then 1 else 0, if x.rxOff = 0 then f.ts else 0] ++ beat.map (·.toNat)))])
    | [] => skip

/-- Bytes in a transmit queue. -/
def txBytes (fs : List TxFrame) : Nat := fs.foldl (fun n f => n + f.data.length) 0

/-- The gate list in force: the operational list where the lists are enabled. -/
def Device.gclOn (d : Device) (m : MacId) : Bool := d.bit (ethPg m) F.ETH_GCLCTL.en && (d.mc m).len != 0

/-- Entry `i` of the operational list: gate states and interval in ns. -/
def Device.gclEntry (d : Device) (m : MacId) (i : Nat) : Nat × Nat :=
  let w := (d.reg (ethPg m) (256 + 256 * d.fld (ethPg m) F.ETH_GCLCTL.oper + i)).toNat
  (w / 2 ^ 24, w % 2 ^ 24)

/-- The start of entry `i` within the cycle. -/
def Device.gclStart (d : Device) (m : MacId) (i : Nat) : Nat := (List.range i).foldl (fun n j => n + (d.gclEntry m j).2) 0

/-- The end of entry `i` within the cycle: the last holds to the cycle's end, at which the list is cut (R358). -/
def Device.gclEnd (d : Device) (m : MacId) (i : Nat) : Nat :=
  let x := d.mc m
  if x.len ≤ i + 1 then x.cycle else min x.cycle (d.gclStart m (i + 1))

/-- The gates of the queues now. -/
def Device.gates (d : Device) (m : MacId) : Nat := if d.gclOn m then (d.gclEntry m (d.mc m).entry).1 else 255

/-- The stretches of one cycle for a queue: open or not, and how long. -/
def Device.gclSpans (d : Device) (m : MacId) (q : Nat) : List (Bool × Nat) :=
  (List.range (d.mc m).len).filterMap fun i =>
    let a := d.gclStart m i
    let b := d.gclEnd m i
    if a < b then some ((d.gclEntry m i).1.testBit q, b - a) else none

/-- The longest open run of some stretches, with the open time that runs up to their start. -/
def longestOpen : Nat → List (Bool × Nat) → Nat
  | run, [] => run
  | run, (true, n) :: xs => longestOpen (run + n) xs
  | run, (false, _) :: xs => max run (longestOpen 0 xs)

/-- The open time ahead of the first closed stretch. -/
def openAhead : List (Bool × Nat) → Nat
  | (true, n) :: xs => n + openAhead xs
  | _ => 0

/-- A frame fits some open interval of the list: the longest of a cycle that follows a cycle. -/
def Device.fitsSome (d : Device) (m : MacId) (q ns : Nat) : Bool :=
  let sp := d.gclSpans m q
  !(d.gclOn m) || sp.all (·.1) || ns ≤ longestOpen 0 (sp ++ sp)

/-- A frame that starts now ends before its gate closes. -/
def Device.fitsNow (d : Device) (m : MacId) (q ns : Nat) : Bool :=
  let x := d.mc m
  let sp := d.gclSpans m q
  let left := x.cycleAt + d.gclEnd m x.entry - d.now
  let after := (sp.drop (x.entry + 1)) ++ sp
  !(d.gclOn m) || sp.all (·.1) || ns ≤ left + openAhead after

/-- The time of a frame on the line in ns, with preamble, FCS and interframe gap. -/
def Device.lineTime (d : Device) (m : MacId) (n : Nat) : Nat :=
  let bits := 8 * (n + 24)
  if d.fld (ethPg m) F.ETH_CTL.rate = 1 then (bits + 24) / 25 else (bits + 9) / 10

/-- idleSlope of a queue in kb/s; 0 for no shaper. -/
def Device.slope (d : Device) (m : MacId) (q : Nat) : Nat := if 4 ≤ q then (d.reg (ethPg m) (R.ETH_CBS4 + (q - 4))).toNat else 0

/-- The credits now: they grow while the gate is open, and a queue with no frame keeps none above 0 (R359). -/
def accrue (m : MacId) : Op :=
  withD fun d =>
    let x := d.mc m
    let one (i : Fin 4) : Int :=
      let q := 4 + i.val
      let s := d.slope m q
      let c := x.credit[i.val] + (if (d.gates m).testBit q then ((s * (d.now - x.creditAt) : Nat) : Int) else 0)
      if s = 0 then 0 else if (x.tx[q]!).isEmpty then min c 0 else c
    modMac m fun x => { x with credit := Vector.ofFn one, creditAt := d.now }

/-- ETH_CLIENT_TX_BEAT (R355, R356). The personality hands over a beat; queue, timestamp request and identifier come on the
first one. A queue without room for a full beat takes none. -/
def execEthClientTxBeat (m : MacId) (data : List Byte) (sop eop : Bool) (q : Fin 8) (ts : Option (Fin 256)) (s : State) :
    Result :=
  go s <| withD fun d =>
    let x := d.mc m
    let cur : Option (Nat × TxFrame) := if sop then some (q.val, { data := [], ts := ts.map (·.val) }) else x.part
    match cur with
    | none => skip
    | some (k, f) =>
      let room := txBytes (x.tx[k]!) + f.data.length + 16 ≤ 16384
      if !(d.clientOk m) || !(d.enable (macClient m)) || !room then skip
      else
        let f' : TxFrame := { f with data := f.data ++ data.take 16 }
        both (accrue m)
          (modMac m fun x => if eop then { x with part := none, tx := x.tx.set! k ((x.tx[k]!) ++ [f']) } else { x with part := some (k, f') })

/-- The queues, highest first, whose first frame has a property. -/
def MacS.queues (x : MacS) (ok : Nat → TxFrame → Bool) : List (Nat × TxFrame) :=
  [7, 6, 5, 4, 3, 2, 1, 0].filterMap fun q =>
    match x.tx[q]! with
    | f :: _ => if ok q f then some (q, f) else none
    | [] => none

/-- ETH_TX_FRAME (R357 to R359). A frame that fits no open interval is discarded; else the highest queue whose gate is open,
whose credit is not negative and whose frame ends before the gate closes sends it. -/
def execEthTxFrame (m : MacId) (s : State) : Result :=
  go s <| both (accrue m) <| withD fun d =>
    let x := d.mc m
    let p := ethPg m
    let dropHead (q : Nat) : Op := modMac m fun x => { x with tx := x.tx.set! q ((x.tx[q]!).drop 1) }
    let tooLong := x.queues fun q f => !(d.fitsSome m q (d.lineTime m f.data.length))
    let ready := x.queues fun q f =>
      (d.gates m).testBit q && d.fitsNow m q (d.lineTime m f.data.length) && (q < 4 || d.slope m q == 0 || 0 ≤ x.credit[(Fin.ofNat 4 (q - 4)).val])
    if !(d.bit p F.ETH_STAT.up) || !(d.bit p F.ETH_CTL.en) then skip
    else
      match tooLong, ready with
      | (q, _) :: _, _ => both (dropHead q) (ethErr m 4)
      | [], (q, f) :: _ =>
        if d.now < x.busy then skip
        else
          let bits : Int := ((8 * (f.data.length + 24) * 1000000 : Nat) : Int)
          let i : Fin 4 := Fin.ofNat 4 (q - 4)
          ops [dropHead q, modMac m fun x => { x with
              busy := d.now + d.lineTime m f.data.length
              credit := if 4 ≤ q ∧ d.slope m q ≠ 0 then x.credit.set i.val (x.credit[i.val] - bits) else x.credit },
            emit (.wire p (q :: f.data.map (·.toNat))),
            match f.ts with
            | some id => emit (.fabric (macClient m).val 4 [m.val, id, d.stamp (d.reg p R.ETH_TSCORR_TX)])
            | none => skip]
      | [], [] => skip

/-- A write of change to ETH_GCLCTL: the other list becomes administrative, with its config change time. -/
def gclChange (m : MacId) : Op :=
  pageWrite (ethPg m) (withD fun d =>
    let p := ethPg m
    let base := d.reg64 p R.ETH_GCLBASE_LO
    let cyc := (d.reg p R.ETH_GCLCYCLE).toNat
    let t := if d.now < base then base else if cyc = 0 then d.now else base + ((d.now - base) / cyc + 1) * cyc
    ops [setF p F.ETH_GCLCTL.pending 1, setN64 p R.ETH_GCLCHG_LO t,
      modMac m fun x => { x with change := some (t, d.fld p F.ETH_GCLLEN.len, cyc) }])

/-- GCL_CHANGE (R358). -/
def execGclChange (m : MacId) (s : State) : Result := go s (gclChange m)

/-- GCL_SWITCH (R358). The config change time has come: the administrative list is operational, from its first entry. -/
def execGclSwitch (m : MacId) (s : State) : Result :=
  go s <| withD fun d =>
    match (d.mc m).change with
    | some (t, len, cyc) =>
      if d.now < t then skip
      else
        ops [accrue m, setF (ethPg m) F.ETH_GCLCTL.oper (1 - d.fld (ethPg m) F.ETH_GCLCTL.oper),
          setF (ethPg m) F.ETH_GCLCTL.pending 0,
          modMac m fun x => { x with change := none, len := len, cycle := cyc, entry := 0, entryAt := t, cycleAt := t },
          raise (ethPg m) 1]
    | none => skip

/-- GCL_ENTRY (R358). The interval of the entry in force has ended: the next entry, or the first of the next cycle. -/
def execGclEntry (m : MacId) (s : State) : Result :=
  go s <| withD fun d =>
    let x := d.mc m
    let fin' := d.gclEnd m x.entry
    if !(d.gclOn m) || x.cycle == 0 || d.now < x.cycleAt + fin' then skip
    else
      both (accrue m)
        (modMac m fun x =>
          if x.cycle ≤ fin' then { x with entry := 0, cycleAt := x.cycleAt + x.cycle, entryAt := x.cycleAt + x.cycle }
          else { x with entry := x.entry + 1, entryAt := x.cycleAt + fin' })

/-! ### The flash die (R360 to R362) -/

/-- A cause of FL_ERR, source 589. -/
def flErr (i : Nat) : Op := causeAt 40 R.FL_ERR i 16 1

/-- The initiator may write a flash range (R360). -/
def flashWriter (who : Who) (a : Nat) : Bool :=
  if a < 0x220000 || (0x4000000 ≤ a && a < 0x4200000) then who == .steward
  else !(0x4200000 ≤ a && a < 0x4220000)

/-- The page buffer of the flash page. -/
def Device.flashBuf (d : Device) : List Byte := (List.range 64).flatMap fun i => Word.bytes (d.reg 40 (256 + i))

/-- A write to FL_CMD: one operation, or refused. -/
def flashCmd (who : Who) (program : Bool) : Op :=
  pageWrite 40 (withD fun d =>
    let a := d.fld 40 F.FL_ADDR.addr
    if d.bit 40 F.FL_STAT.busy then skip
    else if !(d.unlockedFor 40 who) || !(flashWriter who a) || (program && a % 256 != 0) then flErr 0
    else
      ops [setF 40 F.FL_STAT.busy 1, setF 40 F.FL_STAT.plane (a / 0x4000000),
        modI fun n => { n with flash := some { program := program, addr := a, data := d.flashBuf } }])

/-- FLASH_PROGRAM (R361). -/
def execFlashProgram (who : Who) (s : State) : Result := go s (byWrite who 40 (flashCmd who true))

/-- FLASH_ERASE (R361). -/
def execFlashErase (who : Who) (s : State) : Result := go s (byWrite who 40 (flashCmd who false))

/-- Program bytes: those that are erased take the new value, the others stay (R362). -/
def programBytes (a : Nat) (bs : List Byte) : Op :=
  withD fun d => forAll ((List.range bs.length).zip bs) fun x =>
    whenB (d.byte (flashBase + a + x.1) == 0xFF) (setByte (flashBase + a + x.1) x.2)

/-- Some of the bytes to be programmed are not erased (R362). -/
def Device.notErased (d : Device) (a n : Nat) : Bool := (List.range n).any fun i => d.byte (flashBase + a + i) != 0xFF

/-- Erase a sector: every byte reads 0xFF. -/
def eraseSector (a : Nat) : Op :=
  withD fun d =>
    let base := flashBase + a / 0x10000 * 0x10000
    forAll (d.cells base 0x10000) fun c => setByte (base + c.1) 0xFF

/-- What an operation leaves in flash. Of a failed one the spec states no contents: the bytes it was to change are free. -/
def flashBytesSet (f : FlashOp) (failed : Bool) : Op :=
  let len := if f.program then 256 else 0x10000
  let base := flashBase + (if f.program then f.addr else f.addr / 0x10000 * 0x10000)
  if failed then withFree fun k => setBytes base ((List.range len).map fun i => Config.freeByte k i)
  else if f.program then programBytes f.addr f.data else eraseSector f.addr

/-- The operation in progress ends, whatever the phase; its page shows it, but for FL_STAT, only while the part runs. -/
def flashEnd (us : Word) (failed : Bool) : Op :=
  withD fun d =>
    match d.inn.flash with
    | none => skip
    | some f =>
      ops [flashBytesSet f failed,
        setF 40 F.FL_STAT.busy 0, setF 40 F.FL_STAT.plane 0, setF 40 F.FL_STAT.result (if failed then 2 else 1),
        modI fun n => { n with flash := none },
        whenB (d.inn.phase == .up)
          (ops [setReg 40 R.FL_OPTIME us, incReg 40 (if f.program then R.FL_PGCNT else R.FL_ERCNT),
            whenB (f.program && !failed && d.notErased f.addr f.data.length) (flErr 1), whenB failed (flErr 2), raise 40 0])]

/-- FLASH_OP_DONE (R361, R362). The operation in progress ends after `us` microseconds; it runs on in P3 and through a reset. -/
def execFlashOpDone (us : Word) (failed : Bool) (s : State) : Result :=
  goIn [.up, .p3, .por, .seq, .fault] s (flashEnd us failed)

end Sys2Proof.Machine
end

