-- ==== Sys2Proof/Machine/Reset.lean ====
section
/-!
DEFINITION. What a reset takes back to its reset value: one page's block (R40), one power domain (R389, R394, R395), the
host port (R255, R274), everything outside the always-on domain (R372, R397, R420).
-/

namespace Sys2Proof.Machine

/-! ### Dropping what is listed -/

/-- Every register that is not kept takes its reset value. -/
def keepRegs (keep : Nat → Nat → Bool) : Op where
  run d := { d with regs := d.regs.filter fun c => keep (c.1 / 1024) (c.1 % 1024) }
  keeps _ h := ⟨sparseWf_filter h.1 _, fun c hc => h.2.1 c (List.mem_filter.1 hc).1, h.2.2⟩

/-- Every byte that is not kept reads as an unlisted one. -/
def keepMem (keep : Nat → Bool) : Op where
  run d := { d with mem := d.mem.filter fun c => keep c.1 }
  keeps _ h := ⟨h.1, h.2.1, sparseWf_filter h.2.2.1 _, h.2.2.2⟩

/-- The block registers of a page take their reset values; its header stays (R46). -/
def resetPage (p : Nat) : Op := keepRegs fun q w => q != p || w < 16

/-! ### Places -/

def inRange (a base n : Nat) : Bool := base ≤ a && a < base + n

/-- The memories of a vault: array, spare rows, test buffer. -/
def vaultMem (v a : Nat) : Bool :=
  inRange a (vaultBase v) 0x4000000 || inRange a (spareBase v 0) (8 * 4096) || inRange a (testBufBase v) 4096

/-- The memories of a region: slots, block RAMs, tightly coupled memories of its engines. -/
def regionMem (r a : Nat) : Bool :=
  inRange a (slotBase r 0) (8 * 2 ^ 22) || inRange a (bramBase r) (2 ^ 20) || inRange a (itcm (4 * r)) (4 * 2 ^ 18)

/-- Registers that lie in a page of a domain and are held in the spine: a router's (R18), the device-wide link registers
(R299). -/
def inSpine (p w : Nat) : Bool :=
  (kindOf p == some .ni && (256 ≤ w || w == R.NI_RTRCTL || w == R.NI_RFCNT)) || (p == 80 && 31 ≤ w)

/-- The registers of a domain: its pages' block registers. The pages of external memory and crypto keep what the thermos
carries through (R338; notes/assumptions/46.md). -/
def domainReg (k p w : Nat) : Bool := pageDomain p == k && 16 ≤ w && !(inSpine p w) && k != 77 && k != 78

/-! ### One domain -/

/-- What a region holds beside its page is lost; what it was loaded with under stays known to the power control. -/
def regionLost (r : RegionId) : Op :=
  ops [keepMem fun a => !(regionMem r.val a),
    modR r fun g => { ({} : Region) with fullLoad := g.fullLoad, confidential := g.confidential, devtime := g.devtime
                                         powGoal := g.powGoal },
    forAll ((List.finRange 256).filter fun e => engRgn e == r.val) fun e =>
      both (clearG e) (modE e fun _ => {}),
    modI fun n => { n with resv := n.resv.filter fun x => x.1 / 4 != r.val }]

/-- What a vault holds beside its page is lost. -/
def vaultLost (v : VaultId) : Op :=
  ops [keepMem fun a => !(vaultMem v.val a), modV v fun _ => {},
    modI fun n => { n with badChunks := n.badChunks.filter fun c => !(vaultMem v.val (32 * c)) }]

/-- What a lane group's ports and lanes hold beside their pages is lost; end-to-end requests run on to their timeouts. -/
def groupLost (g : Nat) : Op :=
  ops [forAll ((List.finRange 12).filter fun p => p.val / 3 == g) fun p =>
      modK p fun k => { ({} : LinkS) with etags := k.etags, nextPkt := k.nextPkt },
    modI fun n => { n with calNew := n.calNew.filter fun l => l / 12 != g }]

/-- A self-test of a block in a domain that turns off is abandoned with cause 8 (R487). -/
def abandonIn (k : Nat) : Op :=
  let one (t : TestSlot) : TestSlot :=
    { t with run := t.run.map fun x => if pageDomain x.page = k ∧ x.page ≠ 12 then { x with abandon := some 8 } else x }
  modI fun n => { n with tests := n.tests.map one }

/-- A domain turns off: what stands in it is lost. -/
def domainLost (k : Nat) : Op :=
  ops [keepRegs fun p w => !(domainReg k p w), abandonIn k,
    if k < 64 then regionLost (Fin.ofNat 64 k)
    else if k < 72 then forAll ((List.finRange 64).filter fun v => v.val / 8 == k - 64) vaultLost
    else if k < 76 then groupLost (k - 72)
    else skip]

/-! ### The host port (R255, R274) -/

/-- The host port quiesces: it fetches no command; commands that run end with nothing issued; rings and event writes
stop. -/
def startQuiesce : Op :=
  ops [setF 32 F.HP_CTL.en 0, setF 32 F.HP_STAT.rdy 0, setF 32 F.HP_STAT.quiesced 0,
    modI fun n => { n with quiet := true, cmds := n.cmds.map fun c => { c with aborted := true } }]

/-- A reset of the host port (R255): its first page, and the rest quiesces. -/
def hostReset : Op :=
  ops [resetPage 32, modI fun n => { n with msixMasked := [], host := { n.host with busMaster := false, crs := true, bars := [] } },
    startQuiesce]

/-! ### Everything outside the always-on domain (R20, R372, R397, R420) -/

/-- What a steward's reset leaves: fuses, the steward record, the key store. -/
def keptStw (w : StwS) : StwS :=
  { fuseLcs := w.fuseLcs, recLcs := w.recLcs, owner := w.owner, secretGone := w.secretGone, rollStw := w.rollStw
    rollMin := w.rollMin, preferred := w.preferred, trial := w.trial, recWrites := w.recWrites, chain := w.chain
    identity := w.identity, sealRoot := w.sealRoot, memKeys := w.memKeys }

/-- What power control keeps: not what it held of the domains. -/
def keptPower (w : Power) : Power :=
  { w with ramping := [], waiting := [], shadow := Vector.replicate 64 none, p3 := false, waking := false }

/-- What stands outside registers and memories after a reset of everything outside the always-on domain. `p3`: entry to
P3, which keeps the debug session's page and what the thermos carries of external memory. -/
def keptInner (p3 : Bool) (n : Inner) : Inner :=
  let base : Inner :=
    { out := n.out, free := n.free, devtime := n.devtime, devfrac := n.devfrac, hold := n.hold, sen := n.sen
      pow := keptPower n.pow, stw := keptStw n.stw, flash := n.flash, vccBad := n.vccBad, refLost := n.refLost
      phase := n.phase, mono := n.mono, dk := n.dk, oscGoal := n.oscGoal }
  if p3 then { base with ext := n.ext, cry := n.cry, cmps := n.cmps, session := n.session } else base

/-- The registers that keep their values: those of power control and the sentinel, but for what shows regions and
domains; CLK_FATAL, OSC_F with its trim, DEV_BOOTERR, STW_WDTCAUSE; a flash operation that runs on. -/
def aonReg (p w : Nat) : Bool :=
  (17 ≤ p && p ≤ 23 && !(p == 18 && 17 ≤ w && w ≤ 33)) || (p == 13 && w == R.CLK_FATAL) ||
    (p == 15 && (w == R.CLK_OSCF || w == R.CLK_TRIM || 256 ≤ w)) || (p == 0 && w == R.DEV_BOOTERR) ||
    (p == 1 && w == R.STW_WDTCAUSE) || (p == 40 && w == R.FL_STAT)

/-- In P3 the debug page, the rate of device time and the block registers of external memory and crypto keep theirs too (R338); every
page's header is reset, so the privileged ones come back gated (R45). -/
def p3Reg (p w : Nat) : Bool := aonReg p w || p == 5 || (p == 16 && w == R.TIME_RATE) || (0x24 ≤ p && p ≤ 0x27 && 16 ≤ w)

/-- The memories that keep their contents: thermos, flash; in P3 external memory. -/
def aonMem (p3 : Bool) (a : Nat) : Bool :=
  inRange a thermosBase 0x400000 || inRange a flashBase 0x8000000 || (p3 && inRange a extBase 0x800000000)

/-- Everything outside the always-on domain is reset. -/
def resetRest (p3 : Bool) : Op :=
  ops [keepRegs (if p3 then p3Reg else aonReg), keepMem (aonMem p3), forAll (List.finRange 256) clearG,
    modI (keptInner p3)]

/-- READY falls, and what follows it on the registers of the always-on domain. -/
def readyFalls : Op := both (setF 17 F.PWR_DEVSTAT.ready 0) (setF 0 F.DEV_STAT.ready 0)

/-- A reset of the device from RESET_N, the device watchdog, or a life-cycle transition (R420, R445): a power sequence
follows where a sequence fault is latched, else POR. A fault that holds FAULT_N is released. -/
def resetDevice (cause : Nat) : Op :=
  withD fun d =>
    ops [resetRest false, readyFalls, setF 17 F.PWR_DEVSTAT.state 0, setF 17 F.PWR_RESETCAUSE.cause cause, setF 1 F.STW_WDTCAUSE.prebites 0,
      modI fun n => { n with phase := if d.bit 17 F.PWR_SEQFAULT.valid then .seq else .por }]

end Sys2Proof.Machine
end

