-- ==== Sys2Proof/Machine/Power.lean ====
section
/-!
DEFINITION. Power control (17_power_and_supply.md): the rail sequence, PMBus, the power domains, the power states of
regions, entry to P3 and the wake from it, P4, the device record in the thermos.
-/

namespace Sys2Proof.Machine

/-! ### Causes and refusals (R391) -/

def modPow (f : Power → Power) : Op := modI fun n => { n with pow := f n.pow }
def Device.pow (d : Device) : Power := d.inn.pow

/-- Power control stays awake while the rest of the device sleeps (17). -/
def powGo (s : State) (o : Op) : Result := goIn [.up, .p3] s o

/-- A cause of PWR_ERR, source 628. -/
def pwrErr (i : Nat) : Op := causeAt 17 R.PWR_ERR i 16 0

/-- A refused request: cause, request and domain in PWR_REFUSE. -/
def powRefuse (cause req dom : Nat) : Op :=
  ops [setF 17 F.PWR_REFUSE.cause cause, setF 17 F.PWR_REFUSE.request req, setF 17 F.PWR_REFUSE.domain dom,
    incReg 18 R.PWR_REFCNT, pwrErr 3]

/-- The four bits of a region in PWR_RGNST. -/
def fRgnst (r : Nat) : Fld := ⟨R.PWR_RGNST0 + r / 8, 4 * (r % 8) + 3, 4 * (r % 8)⟩

/-- A region's state and whether it is in transition. -/
def setRgnst (r : RegionId) (st : Nat) (moving : Bool) : Op := setF 18 (fRgnst r.val) (st + if moving then 8 else 0)

/-- One bit of PWR_DOMSTAT or PWR_DOMBUSY. -/
def fDom (base k : Nat) : Fld := ⟨base + k / 32, k % 32, k % 32⟩
def setDomOn (k : Nat) (b : Bool) : Op := setB 18 (fDom R.PWR_DOMSTAT0 k) b
def setDomBusy (k : Nat) (b : Bool) : Op := setB 18 (fDom R.PWR_DOMBUSY0 k) b
def Device.domBusy (d : Device) (k : Nat) : Bool := d.bit 18 (fDom R.PWR_DOMBUSY0 k)

/-- A region reaches a power state: its commands end, PWR_ERR.state_reached (R391). -/
def rgnReached (r : RegionId) (st : Nat) : Op :=
  ops [setRgnst r st false, modR r fun g => { g with powGoal := none }, pwrErr 0, endCmds (.power r.val st) 0 0]

/-! ### Ramps (R389) -/

/-- A domain turns on: at most four ramp at once, the others wait. -/
def startRamp (k : Nat) : Op :=
  ops [setDomBusy k true,
    modPow fun p => if p.ramping.length < 4 then { p with ramping := k :: p.ramping } else { p with waiting := k :: p.waiting }]

/-- The lowest domain that waits. -/
def lowest : List Nat → Option Nat
  | [] => none
  | k :: ks => match lowest ks with
    | some j => some (min k j)
    | none => some k

/-- A ramp ends, and the next domain that waits starts. -/
def endRamp (k : Nat) : Op :=
  ops [setDomBusy k false, setDomOn k true,
    modPow fun p =>
      let ps := { p with ramping := p.ramping.erase k }
      match lowest ps.waiting with
      | some j => { ps with ramping := j :: ps.ramping, waiting := ps.waiting.erase j }
      | none => ps]

/-! ### Nap (R392) -/

/-- The engines of a region. -/
def rgnEngines (r : RegionId) : List EngineId := (List.range 4).map fun i => Fin.ofNat 256 (4 * r.val + i)

/-- The engines stop with their state kept; a reservation is lost (R187, R207). -/
def napEngines (r : RegionId) : Op :=
  forAll (rgnEngines r) fun e => withD fun d =>
    ops [modE e fun n => { n with offFrom := d.engState e }, setF (engPg e) F.ENG_STAT.state esOff, dropResv e]

/-- The engines continue where they stopped. -/
def wakeEngines (r : RegionId) : Op :=
  forAll (rgnEngines r) fun e => withD fun d =>
    whenB (d.engState e == esOff) (setF (engPg e) F.ENG_STAT.state (d.en e).offFrom)

/-- The region is quiet: no speculation, no switch between capture and edge 0, no fetch (R392, R481). -/
def Device.quietRegion (d : Device) (r : RegionId) : Bool :=
  let g := d.rg r
  g.spec.isNone && g.aborting.isNone && g.held.isNone && g.committed.isNone && g.fetch.isNone

/-- NAP_ENTRY (R392, R347, R406). A region asked for P1 is quiet, and no stop switch is due: its enable falls, its clocks stop. -/
def execNapEntry (r : RegionId) (s : State) : Result :=
  go s <| withD fun d =>
    if (d.rg r).powGoal = some 1 ∧ d.rgnP r.val = 0 ∧ d.quietRegion r ∧ d.inn.stopAt.isNone then
      ops [napEngines r, rgnReached r 1, incReg 18 R.PWR_NAPCNT, raise 18 0]
    else skip

/-! ### Off and back (R394 to R396) -/

/-- The shadow of a region (R395): depth and trees, RGN_CTXCFG, RGN_HAMPER, RGN_BORDERPOL, RGN_IMGID. -/
def Device.takeShadow (d : Device) (r : RegionId) : Shadow :=
  let p := rgnPg r
  { info := d.reg p R.RGN_INFO &&& 0x00001F0F, ctxcfg := d.reg p R.RGN_CTXCFG, hamper := d.reg p R.RGN_HAMPER
    borderpol := d.reg p R.RGN_BORDERPOL, imgid := d.reg p R.RGN_IMGID }

/-- The page takes the shadow's values; per-line policies are force 0 until the next image (R396). -/
def putShadow (r : RegionId) (x : Shadow) : Op :=
  withD fun d =>
    let p := rgnPg r
    ops [setReg p R.RGN_INFO ((d.reg p R.RGN_INFO &&& 0x000000F0) ||| x.info), setReg p R.RGN_CTXCFG x.ctxcfg,
      setReg p R.RGN_HAMPER x.hamper, setReg p R.RGN_BORDERPOL x.borderpol, setF p F.RGN_BORDERPOL.cells_loaded 0,
      setReg p R.RGN_IMGID x.imgid]

/-- The shadow stands in place of the page while the region is off: its hamper is checked and protected by it. -/
def standShadow (r : RegionId) : Op :=
  withD fun d =>
    match d.pow.shadow[r.val] with
    | some x => putShadow r x
    | none => skip

/-- A load in progress into a region that turns off: what is left of it for the region fails with cause 0x0B, and so the region (R394). -/
def failLoadInto (r : RegionId) : Op :=
  withD fun d =>
    let l := d.ldr
    let x := sectionOf l.bytes l.idx
    let rs := secRegions l.bytes x
    let mine : Bool := l.writing && x.kind == 2 && rs.contains r
    if l.src.isSome ∧ l.good.contains r.val ∧ ¬ l.bad.contains r.val ∧ ((d.rg r).loading ∨ mine) then
      ops [regionErr r l.idx 0xFF 0x0B, failRegion r, setF 0 F.DEV_LOADSTAT.section l.idx, setF 0 F.DEV_LOADSTAT.cause 0x0B,
        modL fun l => { l with bad := r.val :: l.bad, failed := true }]
    else skip

/-- A region enters P2 at once; its domain drains (R394, R395, R470). -/
def enterP2 (r : RegionId) : Op :=
  withD fun d =>
    let ok := d.fld (rgnPg r) F.RGN_LOADSTAT.state == 3
    ops [modPow fun p => { p with shadow := p.shadow.set r.val (if ok then some (d.takeShadow r) else none) },
      setB 18 (fDom R.PWR_SHADOW0 r.val) ok,
      discardSpec r, endFetch r 7, schedDisarm r, failLoadInto r,
      modR r fun g => { g with held := none, committed := none, regReq := none, portWait := [], schedDue := false, specReg := none
                               aborting := none, ctxPending := false, rel := none, relNow := false, relTree := none, powGoal := some 2 },
      debugRegionOff r, niClose r,
      forAll (rgnEngines r) fun e => both (setF (engPg e) F.ENG_STAT.state esOff) (endCmds (.park e.val) 7 0),
      setRgnst r 2 true, setDomBusy r.val true, modI fun n => { n with closing := r.val :: n.closing }]

/-- The region is off. -/
def regionOff (r : RegionId) : Op :=
  ops [domainLost r.val, standShadow r, forAll (rgnEngines r) fun e => setF (engPg e) F.ENG_STAT.state esOff,
    incReg 18 R.PWR_OFFCNT, rgnReached r 2]

/-- The region returns from P2 (R396): with a valid shadow it waits for a rebuild, else it is unloaded; its engines are
PARKED with zeroed memories (R187). -/
def regionOn (r : RegionId) : Op :=
  withD fun d =>
    let p := rgnPg r
    ops [resetPage p, resetPage (niPg r), forAll (rgnEngines r) fun e => resetPage (engPg e),
      match d.pow.shadow[r.val] with
      | some x =>
        ops [putShadow r x,
          withD fun d1 => forAll ((List.finRange 8).filter fun s => s.val < d1.depth r) fun s => setSlot r s slEmpty,
          setF p F.RGN_LOADSTAT.state 2, modR r fun g => { g with rebuild := true, fullLoad := false }]
      | none => skip,
      modPow fun q => { q with shadow := q.shadow.set r.val none }, setB 18 (fDom R.PWR_SHADOW0 r.val) false,
      rgnReached r 0, releaseAllWithheld]

/-- A write of go to PWR_REBUILD: a region that returned from P2 is released on a RESIDENT start slot, or the write is
refused. -/
def rebuild (r : RegionId) (slot : SlotId) : Op :=
  pageWrite 17 (withD fun d =>
    ops [setF 17 F.PWR_REBUILD.region r.val, setF 17 F.PWR_REBUILD.slot slot.val,
      if (d.rg r).rebuild ∧ d.rgnP r.val = 0 ∧ ¬ d.rgnMoving r.val ∧ d.slot r slot = slResident then releaseRegion r slot
      else pwrErr 4])

/-- REBUILD (R396, R155). -/
def execRebuild (r : RegionId) (slot : SlotId) (s : State) : Result := go s (rebuild r slot)

/-! ### Requests for regions (R391) -/

/-- A region has an engine in TEST, or is under a region test. -/
def Device.rgnTested (d : Device) (r : RegionId) : Bool :=
  (d.rg r).test || (rgnEngines r).any (fun e => d.engState e == esTest) ||
    d.inn.tests.toList.any fun t =>
      match t.run with
      | some x => x.code == 3 && x.page == rgnPg r
      | none => false

/-- The cause of R391 that refuses a region's request; 0 where none does. A request for the state held is not refused. -/
def Device.rgnRefusal (d : Device) (r : RegionId) (st : Nat) : Nat :=
  let cur := d.rgnP r.val
  let q := 64 + r.val / 8
  if d.rgnMoving r.val ∨ (d.rg r).powGoal.isSome then 1
  else if st = cur then 0
  else if st = 1 ∧ cur = 0 ∧ (d.rg r).loadReset then 2
  else if d.rgnTested r then 3
  else if cur = 2 ∧ (¬ d.domOn q ∨ d.inn.closing.contains q) then 5
  else if cur = 2 ∧ d.forbid then 8
  else if st = 1 ∧ cur = 2 then 9
  else 0

/-- A request that is taken. A region that leaves P1 has the present device time at its first edges (R101, R103). -/
def rgnGo (r : RegionId) (st : Nat) : Op :=
  withD fun d =>
    let cur := d.rgnP r.val
    if st = cur then pwrErr 0
    else if st = 1 then both (setRgnst r 0 true) (modR r fun g => { g with powGoal := some 1 })
    else if st = 2 then enterP2 r
    else if cur = 1 then
      ops [alignCopy r, wakeEngines r, rgnReached r 0, releaseAllWithheld, raise 18 0]
    else ops [setRgnst r 2 true, modR r fun g => { g with powGoal := some 0 }, startRamp r.val]

/-- A request for a region's state: counted, refused or taken. -/
def rgnRequest (r : RegionId) (st : Nat) : Op :=
  withD fun d =>
    let c := d.rgnRefusal r st
    both (incReg 18 R.PWR_REQCNT) (if c = 0 then rgnGo r st else powRefuse c st r.val)

/-- A write of go to PWR_RGNREQ with region and state; a state of 3 leaves the field as it is, which is then requested. -/
def rgnreqWrite (r : RegionId) (st : Nat) : Op :=
  pageWrite 18 (ops [setF 18 F.PWR_RGNREQ.region r.val, whenB (st < 3) (setF 18 F.PWR_RGNREQ.state st),
    withD fun d => rgnRequest r (d.fld 18 F.PWR_RGNREQ.state)])

/-- REGION_POWER_REQUEST (R391, R392, R394). -/
def execRegionPowerRequest (r : RegionId) (st : Fin 4) (s : State) : Result := go s (rgnreqWrite r st.val)

/-! ### Domains 64 to 78 (R389, R390, R171) -/

/-- A region above a quadrant is in P0 or P1, or on its way there (R21). -/
def Device.quadrantUsed (d : Device) (k : Nat) : Bool :=
  (List.finRange 64).any fun r => r.val / 8 == k - 64 && (d.rgnP r.val < 2 || (d.rg r).powGoal == some 0)

/-- The cause that refuses a change of a domain; 0 where none does. -/
def Device.domRefusal (d : Device) (k : Nat) (on : Bool) : Nat :=
  if d.domBusy k then 1
  else if !on ∧ 64 ≤ k ∧ k < 72 ∧ d.quadrantUsed k then 4
  else if !on ∧ k = 78 ∧ d.domOn 77 then 6
  else 0

/-- What a domain does at once when it is asked off: a quadrant's vaults enter CLOSING, a lane group's ports go DOWN and its
lanes OFF, PCIe acts as a link-down; external memory takes no new access (R390). -/
def closeDomain (k : Nat) : Op :=
  ops [modI fun n => { n with closing := k :: n.closing },
    if k < 72 then forAll ((List.finRange 64).filter fun v => v.val / 8 == k - 64) fun v =>
      modV v fun s => { s with closing := true }
    else if k < 76 then
      both (forAll ((List.finRange 12).filter fun p => p.val / 3 == k - 72) portDown)
        (forAll (groupLanes (Fin.ofNat 4 (k - 72))) fun l => both (laneMacDown l) (restartLane 0 l))
    else if k = 76 then
      withD fun d => both (whenB (d.bit 32 F.HP_LINK.up) (cause 32 R.HP_ERR 0)) hostReset
    else skip]

/-- A domain is asked on or off. -/
def domGo (k : Nat) (on : Bool) : Op :=
  ops [setB 18 ⟨R.PWR_DOMCTL, k - 64, k - 64⟩ on, if on then startRamp k else both (setDomBusy k true) (closeDomain k)]

/-- A write of PWR_DOMCTL: each domain whose bit changes, in order; a refused one leaves its bit. -/
def domctlWrite (v : Nat) : Op :=
  pageWrite 18 (forAll ((List.range 15).map (64 + ·)) fun k => withD fun d =>
    let on := v.testBit (k - 64)
    if d.regBit 18 R.PWR_DOMCTL (k - 64) = on then skip
    else
      let c := d.domRefusal k on
      both (incReg 18 R.PWR_REQCNT) (if c = 0 then domGo k on else powRefuse c (if on then 0 else 2) k))

/-- DOMAIN_CONTROL (R390). -/
def execDomainControl (v : BitVec 15) (s : State) : Result := go s (domctlWrite v.toNat)

/-- The router and exit of a packet that has left the network belong to a domain. -/
def Packet.inDomain (p : Packet) (k : Nat) : Bool :=
  p.out &&
    (if k < 64 then p.pos == k && p.exit == 0
    else if k < 72 then p.exit == 1 && p.pos / 8 == k - 64
    else if k < 76 then false
    else if k = 76 then p.exit == 2 && p.pos == 3
    else k == 77 && p.exit == 2 && (p.pos == 24 || p.pos == 31))

/-- External memory is off: each channel has saved its state and its DRAM refreshes itself (R338). -/
def extSleep : Op :=
  both (setF 38 F.CRY_SAVE.saved 1)
    (forAll (List.finRange 2) fun c => selfRefresh c true)

/-- External memory is on again, in its former mode with its contents. It stays in self-refresh while group 0 runs on
OSC_F (R338, R373). -/
def extResume : Op :=
  both (setF 38 F.CRY_SAVE.restored 1)
    (whenD (fun d => !(d.onOscf 0)) (forAll (List.finRange 2) fun c => selfRefresh c false))

/-- DOMAIN_DRAIN_DONE (R248, R171, R389). The requests that a closing domain had accepted have completed: it is off. -/
def execDomainDrainDone (k : Fin 79) (s : State) : Result :=
  go s <| withD fun d =>
    if !(d.inn.closing.contains k.val) ∨ d.inn.net.any (·.inDomain k.val) then skip
    else
      ops [if k.val < 64 then regionOff (Fin.ofNat 64 k.val)
        else if k.val = 77 then both extSleep (domainLost 77)
        else domainLost k.val,
        modI fun n => { n with closing := n.closing.filter (· != k.val) }, setDomBusy k.val false, setDomOn k.val false,
        raise 18 0]

/-- DOMAIN_RAMP_DONE (R389, R396, R170, R187). A ramp ends after so many microseconds; a quadrant's vaults begin to fill. -/
def execDomainRampDone (k : Fin 79) (us : Nat) (s : State) : Result :=
  go s <| withD fun d =>
    if !(d.pow.ramping.contains k.val) then skip
    else
      ops [endRamp k.val, setN 18 R.PWR_RAMPMAX (max (d.reg 18 R.PWR_RAMPMAX).toNat us),
        if k.val < 64 then regionOn (Fin.ofNat 64 k.val)
        else
          both (domainLost k.val)
            (if k.val < 72 then forAll ((List.finRange 64).filter fun v => v.val / 8 == k.val - 64) fun v =>
                modV v fun s => { s with filling := true }
              else whenB (k == 77) extResume),
        raise 18 0]

/-! ### The device record (R400, R401) -/

/-- The calibration arrays as (page, words), in the order of R488's table. -/
def calArrays : List (Nat × Nat) :=
  [(15, 2), (23, 12)] ++ (List.range 64).map (fun v => (384 + v, 8)) ++ (List.range 10).map (fun b => (64 + b, 48)) ++
    [(36, 64), (37, 64)] ++ (List.range 48).map fun l => (96 + l, 8)

/-- The parts of the device record: DEVTIME of the event; states, tags and switch counts of the regions; the sentinel's
snapshot and log; rambler state, roots and training values (notes/assumptions/45.md). -/
def Device.recordParts (d : Device) (time f : Nat) : List (List Byte) :=
  let nb := Word.bytesOfNat
  let logBytes (x : Option SenLog) : List Byte :=
    match x with
    | some e => nb 1 e.kind ++ nb 1 (if e.active then 3 else 1) ++ nb 2 e.extreme ++ nb 4 e.dur ++ nb 8 e.start
    | none => nb 16 0
  [nb 64 time,
    (List.finRange 64).flatMap fun r =>
      nb 2 (d.rgnP r.val) ++ nb 2 (d.fld (rgnPg r) F.RGN_CTXSTAT.active_tag) ++ Word.bytes (d.reg (rgnPg r) R.RGN_SWCNT),
    (List.range 16).flatMap (fun i => Word.bytes (d.reg 23 (R.SEN_STAT + i))) ++ d.inn.sen.log.toList.flatMap logBytes,
    (List.range 32).flatMap (fun k => nb 6 (d.kCount k) ++ nb 2 (d.kGen k)) ++
      Word.bytes (d.reg 38 R.CRY_STAT) ++ Word.bytes (d.reg 38 R.CRY_RSTAT) ++
      Word.bytes (d.reg 36 R.EXT_TRAIN) ++ Word.bytes (d.reg 37 R.EXT_TRAIN) ++
      (List.finRange 2).flatMap (fun c => nb 8 (d.ext c).blanketKey) ++ (List.range 32).map (Config.freeByte f)]

/-- The offset of the calibration arrays in the device record. -/
def recordCal : Nat := 0x2000

/-- Write the parts from offset `off`, and their directory entries from `i`. -/
def writeParts : Nat → Nat → List (List Byte) → Op
  | _, _, [] => skip
  | i, off, p :: ps =>
    let n := (p.length + 63) / 64
    ops [setBytes (thermosBase + off) p, setF 21 (F.PWR_SAVEDIR0.offset.at i) (off / 64),
      setF 21 (F.PWR_SAVEDIR0.length.at i) n, writeParts (i + 1) (off + 64 * n) ps]

/-- A save of the device record begins; a second trigger during a save is ignored, and nothing is saved where the thermos
code has failed its check (R401, R414). -/
def startSave : Op :=
  whenD (fun d => d.pow.saving.isNone && !(d.bit 0 F.DEV_CHKSTAT.thermos)) (withD fun d =>
    modPow fun p => { p with saving := some d.now })

/-- The save in progress ends. -/
def finishSave : Op :=
  withD fun d =>
    match d.pow.saving with
    | none => skip
    | some t =>
      ops [withFree fun f => withD fun d => writeParts 0 0 (d.recordParts t f), modPow fun p => { p with saving := none },
        setN 21 R.PWR_SAVESTAT 1, setN 21 R.PWR_SAVETIME ((d.now - t) / 1000)]

/-- RECORD_SAVE_DONE (R400, R401). -/
def execRecordSaveDone (s : State) : Result := go s finishSave

/-! ### P3 (R397, R398) -/

/-- The cause that refuses a request for P3; 0 where none does. -/
def Device.p3Refusal (d : Device) : Nat := if d.pow.p3 then 1 else if d.ldr.src.isSome then 7 else 0

/-- Fetches and loads are forbidden (R114, R160): fetches in progress are abandoned. -/
def forbidFetches : Op :=
  ops [setF 17 F.PWR_DEVSTAT.forbid 1, forAll (List.finRange 64) fun r => endFetch r 7]

/-- Every region enters P2, the host port quiesces, the save of the device record begins (R397). -/
def closeForP3 : Op :=
  ops [forAll (List.finRange 64) fun r => withD fun d => whenB (d.rgnP r.val != 2) (enterP2 r), startQuiesce, startSave]

/-- A request for P3 that is taken. -/
def p3Go : Op :=
  withD fun d =>
    ops [modPow fun p => { p with p3 := true, since := d.now }, readyFalls, forbidFetches,
      if d.bit 17 F.PWR_DEVCTL.p3_stop then
        modI fun n => { n with stopAt := some (d.now + 1000 * d.fld 17 F.PWR_SUPCTL.stop_lead) }
      else closeForP3]

/-- A request for P3, counted, refused or taken. -/
def p3Request : Op :=
  withD fun d =>
    both (incReg 18 R.PWR_REQCNT) (if d.p3Refusal = 0 then p3Go else powRefuse d.p3Refusal 3 79)

/-- P3_REQUEST (R397). A write of PWR_DEVCTL with p3 at 1 and p3_stop. -/
def execP3Request (p3Stop : Bool) (s : State) : Result :=
  go s (pageWrite 17 (both (setB 17 F.PWR_DEVCTL.p3_stop p3Stop) p3Request))

/-- The stop switch that entry to P3 scheduled has taken effect. -/
def Device.stopTaken (d : Device) : Bool :=
  d.inn.stopAt.isNone && (List.finRange 64).all fun r => (d.rg r).held.isNone && (d.rg r).committed.isNone

/-- An entry of the regulator table. -/
def fReg (f : Fld) (x : Nat) : Fld := f.at x

/-- OPERATION or PAGE and OPERATION to an entry's PMBus address. -/
def railCmd (x : Nat) (on : Bool) : Op :=
  withD fun d =>
    let a := d.fld 19 (fReg F.PWR_REG0.addr x)
    both (whenB on (emit (.device 19 [a, 0x00, d.fld 19 (fReg F.PWR_REG0.page x)])))
      (emit (.device 19 [a, 0x01, if on then 0x80 else 0x00]))

/-- The entries whose rails go off in P3, in sequence order. -/
def Device.p3Rails (d : Device) : List Nat :=
  (List.range 8).filter fun x => d.bit 19 (fReg F.PWR_REG0.en x) && d.bit 19 (fReg F.PWR_REG0.off_p3 x)

/-- The session at entry to P3: a token's is revoked (R441). -/
def p3Session : Op :=
  withD fun d =>
    if d.inn.session.isSome then
      both (levelFall d.dbgLevel (lcsLevel d.lcs)) (modI fun n => { n with session := none })
    else skip

/-- Every domain is off; the rails with off_p3 go off in reverse order. -/
def reachP3 : Op :=
  withD fun d =>
    ops [finishSave, p3Session, extSleep, forAll d.p3Rails.reverse fun x => both (railCmd x false)
        (setF 19 (fReg F.PWR_REGSTAT0.good x) 0),
      resetRest true, setReg 18 R.PWR_DOMSTAT0 0, setReg 18 R.PWR_DOMSTAT1 0, setReg 18 R.PWR_DOMSTAT2 0,
      setReg 18 R.PWR_DOMCTL 0, forAll (List.finRange 64) fun r => setRgnst r 2 false,
      modPow fun p => { p with offRails := d.p3Rails },
      incReg 17 R.PWR_P3CNT, setN 17 R.PWR_P3TIME ((d.now - d.pow.since) / 1000), setF 17 F.PWR_DEVSTAT.state 3,
      modI fun n => { n with phase := .p3 }]

/-- P3_REACHED (R397). -/
def execP3Reached (s : State) : Result :=
  go s <| withD fun d =>
    if !d.pow.p3 ∨ (d.bit 17 F.PWR_DEVCTL.p3_stop ∧ ¬ d.stopTaken) then skip
    else both (whenB (d.bit 17 F.PWR_DEVCTL.p3_stop) closeForP3) reachP3

/-- The wake source that is due: a request that was taken, or DEVTIME at PWR_WAKETIME, where PWR_WAKE enables it. -/
def Device.wakeSource (d : Device) : Option Nat :=
  match d.inn.wakeDue with
  | some k => some k
  | none => if d.regBit 17 R.PWR_WAKE 0 && d.reg64 17 R.PWR_WAKETIME_LO ≤ d.now then some 0 else none

/-- WAKE (R398). An enabled wake source ends P3: rails that were turned off come up again, and start-up runs. -/
def execWake (s : State) : Result :=
  goIn [.p3] s <| withD fun d =>
    match d.wakeSource with
    | none => skip
    | some k =>
      ops [setF 17 F.PWR_WAKESRC.src k, setBit 17 R.PWR_ERR 1,
        whenB (!(d.bit 23 F.SEN_STAT.warn)) (setF 17 F.PWR_DEVSTAT.forbid 0),
        modPow fun p => { p with waking := true, since := d.now, turned := [] },
        modI fun n => { n with wakeDue := none, phase := .seq }]

/-! ### The rail sequence (R385, R386), cold start and P4 (R399) -/

/-- Power control runs the sequence: PWR_SEQ is high; at the exit from P3 it turns on what it turned off. -/
def Device.seqEntries (d : Device) : List Nat :=
  if d.pow.waking then d.pow.offRails
  else if d.bit 17 F.PWR_STRAPS.pwr_seq then (List.range 8).filter fun x => d.bit 19 (fReg F.PWR_REG0.en x)
  else []

/-- The next entry to turn on. -/
def Device.seqNext (d : Device) : Option Nat := d.seqEntries.find? fun x => !(d.pow.turned.contains x)

/-- The rails that the sequence has turned on are good. -/
def railsGood : Op := withD fun d => forAll d.pow.turned fun x => setF 19 (fReg F.PWR_REGSTAT0.good x) 1

/-- SEQUENCE_ENTRY (R385). The rail of the entry before is good and its delay has passed; the next entry is turned on. -/
def execSequenceEntry (s : State) : Result :=
  goIn [.seq] s <| withD fun d =>
    match d.seqNext with
    | none => skip
    | some x =>
      ops [railsGood, railCmd x true, setN 19 R.PWR_SEQPOS x, modPow fun p => { p with turned := x :: p.turned }]

/-- POWER_GOOD (R385, R398). All nine monitored rails are good, `us` microseconds after the sequence began: the POR delay
starts, or the exit from P3 goes on from steward verification with every domain on. -/
def execPowerGood (us : Word) (s : State) : Result :=
  goIn [.seq] s <| withD fun d =>
    if d.seqNext.isSome then skip
    else
      ops [railsGood, setReg 19 R.PWR_SEQTIME us, modPow fun p => { p with turned := [] },
        if d.pow.waking then
          ops [keepRegs fun p w => !(p == 18 && 17 ≤ w && w ≤ 33), setF 17 F.PWR_RESETCAUSE.cause 5,
            setF 17 F.PWR_DEVSTAT.state 0, extResume,
            modPow fun p => { p with waking := false, offRails := [], time0 := d.now },
            modI fun n => { n with phase := .up },
            withD fun d1 => whenB (d1.regBit 17 R.PWR_ERR 17) (raise 17 0)]
        else modI fun n => { n with phase := .por }]

/-- SEQUENCE_FAULT (R386). A rail is not good in time, a regulator does not acknowledge, or STATUS_WORD shows a fault: what
was turned on is turned off in reverse order, and the device is held in reset. -/
def execSequenceFault (cause : Fin 4) (s : State) : Result :=
  goIn [.seq] s <| withD fun d =>
    match d.pow.turned with
    | [] => skip
    | x :: _ =>
      if cause = 0 then skip
      else
        ops [forAll d.pow.turned fun y => both (railCmd y false) (setF 19 (fReg F.PWR_REGSTAT0.good y) 0),
          setF 17 F.PWR_SEQFAULT.valid 1, setF 17 F.PWR_SEQFAULT.entry x, setF 17 F.PWR_SEQFAULT.cause cause.val,
          setF 0 F.DEV_STAT.fault 1, modPow fun p => { p with turned := [], waking := false },
          modI fun n => { n with phase := .fault }]

/-- Everything but flash and fuses is lost; the key store is empty (R399, R428). -/
def loseAll : Op :=
  ops [keepRegs fun _ _ => false, keepMem fun a => inRange a flashBase 0x8000000, forAll (List.finRange 256) clearG,
    modI fun n => { ({} : Inner) with out := n.out, free := n.free, vccBad := n.vccBad, refLost := n.refLost
                                      stw := { keptStw n.stw with identity := false, sealRoot := false, memKeys := false }
                                      phase := .off }]

/-- P4_ENTRY (R362, R388, R399). VCC_AON falls below its minimum; a flash operation in progress completes. -/
def execP4Entry (s : State) : Result :=
  goIn [.seq, .por, .up, .p3, .fault] s (withD fun d =>
    both (match d.inn.flash with
      | some f => flashBytesSet f false
      | none => skip) loseAll)

/-- COLD_START (R385, R399, R410). VCC_AON rises: the always-on registers reset, PWR_SEQ is sampled, rails come up. -/
def execColdStart (pwrSeq : Bool) (s : State) : Result :=
  goIn [.off] s (ops [loseAll, setF 17 F.PWR_RESETCAUSE.cause 1, setB 17 F.PWR_STRAPS.pwr_seq pwrSeq,
    setF 15 F.CLK_OSCF.ready 0, forAll (List.range 8) fun x => setF 19 (fReg F.PWR_REGSTAT0.good x) 0,
    modI fun n => { n with phase := .seq }])

/-- FATAL_CLOCK (R371, R372, R411). OSC_F is not ready 2,500 OSC_S cycles after a trip that stopped groups, or after the POR
delay: everything outside the always-on domain is held in reset. -/
def execFatalClock (s : State) : Result :=
  goIn [.up, .por] s <| withD fun d =>
    if d.bit 15 F.CLK_OSCF.ready then skip
    else if d.inn.phase = .up ∧ d.inn.clkStopped = 0 then skip
    else
      let m := d.inn.clkStopped
      let oscf := d.fld 13 F.CLK_FAIL.trip == 3
      ops [resetRest false, readyFalls, setF 13 F.CLK_FATAL.valid 1, setF 13 F.CLK_FATAL.groups m,
        if d.inn.phase = .up then setF 13 F.CLK_FATAL.cause (if oscf then 2 else 1)
        else withFree fun f => setF 13 F.CLK_FATAL.cause (Config.freeNat f 0),
        setF 0 F.DEV_STAT.fault 1, modI fun n => { n with phase := .fault }]

/-! ### PMBus and rails (R387, R388) -/

/-- PMB_ALERT (R387). PMB_ALERT_N asserts: STATUS_WORD of each enabled entry is read. -/
def execPmbAlert (status : Vector (BitVec 16) 8) (s : State) : Result :=
  powGo s <| withD fun d =>
    ops [forAll ((List.finRange 8).filter fun x => d.bit 19 (fReg F.PWR_REG0.en x.val)) fun x =>
        setF 19 (fReg F.PWR_REGSTAT0.status x.val) status[x.val].toNat,
      incReg 19 R.PWR_ALERTCNT, pwrErr 2]

/-- A write of PWR_PMBCMD with start at 1: ignored while a transaction runs, while the host is not enabled, and with a
length above 4. -/
def pmbStart (addr cmd wlen rlen : Nat) : Op :=
  pageWrite 19 (withD fun d =>
    if d.bit 19 F.PWR_PMBSTAT.busy ∨ ¬ d.bit 19 F.PWR_PMBCTL.en ∨ 4 < wlen ∨ 4 < rlen then skip
    else
      ops [setF 19 F.PWR_PMBSTAT.busy 1, modPow fun p => { p with pmb := some (addr, cmd, wlen, rlen) },
        emit (.device 19 ([addr, cmd, wlen, rlen] ++ ((Word.bytes (d.reg 19 R.PWR_PMBDATA)).take wlen).map (·.toNat)))])

/-- PMBUS_TRANSACTION (R387). -/
def execPmbusTransaction (addr : Fin 128) (cmd : Byte) (wlen rlen : Fin 8) (s : State) : Result :=
  go s (pmbStart addr.val cmd.toNat wlen.val rlen.val)

/-- PMBUS_DONE (R387). With the result (coded as MB_STAT, 5 a packet error) and what was read. -/
def execPmbusDone (result : Fin 6) (data : List Byte) (s : State) : Result :=
  go s <| withD fun d =>
    match d.pow.pmb with
    | some (_, _, _, rlen) =>
      ops [whenB (result == 0) (setReg 19 R.PWR_PMBDATA (putLow rlen data (d.reg 19 R.PWR_PMBDATA))),
        setF 19 F.PWR_PMBSTAT.busy 0, setF 19 F.PWR_PMBSTAT.result result.val, modPow fun p => { p with pmb := none },
        whenB (result != 0) (both (incReg 19 R.PWR_PMBERRCNT) (raise 19 0))]
    | none => skip

/-- RAIL_EXCURSION (R388). A monitored rail has been outside ±5 % of its nominal for more than 10 µs; `mv` is its reading. -/
def execRailExcursion (i : Fin 9) (mv : BitVec 16) (s : State) : Result :=
  powGo s <| withD fun d =>
    let low := d.fld 20 (F.PWR_RAIL0.lowest.at i.val)
    ops [setBit 20 R.PWR_RAILSTAT i.val, incReg 20 R.PWR_RAILFLTCNT, setF 20 (F.PWR_RAIL0.live.at i.val) mv.toNat,
      setF 20 (F.PWR_RAIL0.lowest.at i.val) (if low = 0 then mv.toNat else min low mv.toNat),
      setN 20 (R.PWR_RAILMAX0 + i.val) (max (d.reg 20 (R.PWR_RAILMAX0 + i.val)).toNat mv.toNat), raise 20 0]

/-- JUNCTION_TEMPERATURE_WARNING (R505, R408). The readings of the five tiers, B to L1, in °C + 64: one that rises above
PWR_TJWARN raises the event of page 0x014. -/
def execJunctionTemperatureWarning (t : Vector Byte 5) (s : State) : Result :=
  powGo s <| withD fun d =>
    let old (i : Fin 5) : Nat := (d.reg 20 (R.PWR_TJ0 + i.val / 4)).toNat / 2 ^ (8 * (i.val % 4)) % 256
    let thr := d.fld 20 F.PWR_TJWARN.thr
    let top := (List.finRange 5).foldl (fun m i => max m t[i.val].toNat) 0
    ops [setN 20 R.PWR_TJ0 (Word.natOfBytes (t.toList.take 4)), setN 20 R.PWR_TJ1 (Word.natOfBytes (t.toList.drop 4)),
      setN 20 R.PWR_TJMAX (max (d.reg 20 R.PWR_TJMAX).toNat top),
      whenB ((List.finRange 5).any fun i => old i ≤ thr && thr < t[i.val].toNat) (raise 20 0)]

/-- ENERGY_SAMPLE (R408). READ_VOUT in mV and READ_IOUT in mA of each entry, once a millisecond: mV × mA is the nJ of that
millisecond. A power that rises above the budget counts a crossing. -/
def execEnergySample (x : Vector (BitVec 16 × BitVec 32) 8) (s : State) : Result :=
  powGo s <| withD fun d =>
    let nj (i : Fin 8) : Nat := x[i.val].1.toNat * x[i.val].2.toNat
    let now := (List.finRange 8).foldl (fun n i => n + nj i) 0 * 16 / 1000000
    let smp := (now :: d.pow.samples).take 1000
    let budget := (d.reg 22 R.PWR_BUDGET).toNat
    let before := (d.reg 22 R.PWR_POWER).toNat
    ops [forAll (List.finRange 8) fun i => withD fun d =>
        let tot := d.pow.rest[i.val] + nj i
        both (modPow fun p => { p with rest := p.rest.set i.val (tot % 1000000) })
          (setN64 22 (R.PWR_ENERGY0_LO + 2 * i.val) (d.reg64 22 (R.PWR_ENERGY0_LO + 2 * i.val) + tot / 1000000)),
      modPow fun p => { p with samples := smp }, setN 22 R.PWR_POWER now, setN 22 R.PWR_AVG (smp.sum / smp.length),
      whenB ((d.reg 22 R.PWR_PEAK).toNat < now) (both (setN 22 R.PWR_PEAK now) (setN64 22 R.PWR_PEAKTIME_LO d.now)),
      whenB (budget != 0 && before ≤ budget && budget < now) (both (incReg 22 R.PWR_OVERCNT) (raise 22 0))]

end Sys2Proof.Machine
end

