-- ==== Sys2Proof/Machine/HostPort.lean ====
section
/-!
DEFINITION. The host port (11_host_port.md): the link and its resets, the queues and their doorbells, fetching a command
and posting its completion, coalescing and vectors, device reads of host memory, and the commands that act on queues,
regions, engines and power. What moves data by a command stands in Machine/MemAccess.lean, the BARs in
Machine/HostBars.lean.
-/

namespace Sys2Proof.Machine

def modHost (f : HostS → HostS) : Op := modI fun n => { n with host := f n.host }
def Device.host (d : Device) : HostS := d.inn.host
def Device.hq (d : Device) (q : QueueId) : HQueue := d.inn.host.queues[q.val]
def modQ (q : QueueId) (f : HQueue → HQueue) : Op := modHost fun h => { h with queues := h.queues.set q.val (f h.queues[q.val]) }

/-- The registers of queue `q`: HP_SQ, HP_SQERR, HP_CQ, HP_CQVEC. -/
def Device.sqState (d : Device) (q : QueueId) : Nat := d.fld 33 (F.HP_SQ0.state.at q.val)
def Device.sqHead (d : Device) (q : QueueId) : Nat := d.fld 33 (F.HP_SQ0.head.at q.val)
def Device.sqSize (d : Device) (q : QueueId) : Nat := d.fld 33 (F.HP_SQ0.size.at q.val)
def Device.cqHead (d : Device) (q : QueueId) : Nat := d.fld 34 (F.HP_CQ0.head.at q.val)
def Device.cqTail (d : Device) (q : QueueId) : Nat := d.fld 34 (F.HP_CQ0.tail.at q.val)

/-- The index after `i` in a ring of `n`. -/
def nextIndex (i n : Nat) : Nat := if i + 1 = n then 0 else i + 1

/-- The completion queue is full: its head is the entry after its tail (R267; notes/assumptions/40.md). -/
def Device.cqFull (d : Device) (q : QueueId) : Bool := nextIndex (d.cqTail q) (d.sqSize q) == d.cqHead q

/-- The power domain of the port is on. -/
def Device.portPower (d : Device) : Bool := d.domOn 76

/-! ### The link and its resets (R254, R255) -/

/-- PCIE_LINK_UP (R253, R254). The link has trained to L0 at a width and a rate; `code` is the training state the endpoint
reports, `lanes` the transmit preset and receiver margin of each lane. Not while PERST_N is
asserted or the strap PCIE_EN is low (R410). -/
def execPcieLinkUp (width : Fin 4) (rate : Fin 5) (code : Fin 64) (lanes : Vector (Fin 16 × BitVec 16) 8) (s : State) : Result :=
  go s <| whenD (fun d => d.portPower && d.bit 17 F.PWR_STRAPS.pcie_en && !(d.host.perst)) <|
    ops [setF 32 F.HP_LINK.up 1, setF 32 F.HP_LINK.width (2 ^ width.val), setF 32 F.HP_LINK.rate (rate.val + 1),
      setF 32 F.HP_LINK.state code.val,
      forAll (List.finRange 8) fun i =>
        setN 32 (R.HP_LANE0 + i.val) ((lanes[i.val]).1.val * 2 ^ 28 + (lanes[i.val]).2.toNat)]

/-- The PCIe domain and the host port are reset while the link leaves L0: HP_ERR.link_down where it was up. -/
def linkLost : Op := withD fun d => both hostReset (whenB (d.bit 32 F.HP_LINK.up) (hpErr 0))

/-- PERST (R255, R398). PERST_N is asserted or released; in P3 its release is wake source 2. -/
def execPerst (asserted : Bool) (s : State) : Result :=
  goIn [.up, .p3] s <| withD fun d =>
    ops [modHost fun h => { h with perst := asserted },
      whenB (asserted && !(d.inP3) && d.portPower) linkLost,
      whenB (!asserted && d.host.perst && d.inP3 && d.regBit 17 R.PWR_WAKE 2)
        (modI fun n => { n with wakeDue := some (n.wakeDue.getD 2) })]

/-- HOT_RESET (R255). -/
def execHotReset (s : State) : Result := go s (whenD (fun d => d.portPower) linkLost)

/-- LINK_DOWN (R255). -/
def execLinkDown (s : State) : Result := go s (whenD (fun d => d.portPower) linkLost)

/-- FUNCTION_LEVEL_RESET (R255). The same effect on the host port; the link stays up. -/
def execFunctionLevelReset (s : State) : Result :=
  go s <| whenD (fun d => d.portPower) <| withD fun d =>
    ops [hostReset, setReg 32 R.HP_LINK (d.reg 32 R.HP_LINK),
      forAll (List.range 8) fun i => setReg 32 (R.HP_LANE0 + i) (d.reg 32 (R.HP_LANE0 + i))]

/-- What a configuration register reads as (R253): identity, class, subsystem; of the others the table fixes no word. -/
def configWord (dword f : Nat) : Nat :=
  if dword = 0 then 0x52401F3C else if dword = 2 then 0x120000A1 else if dword = 11 then 0x24001F3C
  else (Config.freeWord f dword).toNat

/-- Device Control 2: the completion timeout in µs, all ones when disabled (R261). -/
def ctoOf (code : Nat) (disable : Bool) : Nat := if disable then 0xFFFFFFFF else if code = 2 then 5000 else 60

/-- A configuration request that is completed. -/
def configDone (w : CfgReq) : Op :=
  match w with
  | .read i => withFree fun f => emit (.config false (configWord i.val f))
  | .busMaster b => both (modHost fun h => { h with busMaster := b }) (emit (.config false 0))
  | .timeout code dis => both (setN 32 R.HP_CTO (ctoOf code.val dis)) (emit (.config false 0))

/-- CONFIG_REQUEST (R254, R255). Retry Status until READY; after a reset it may still be given for a while. -/
def execConfigRequest (w : CfgReq) (s : State) : Result :=
  go s <| withD fun d =>
    if !(d.portPower) ∨ d.host.perst ∨ !(d.bit 32 F.HP_LINK.up) then skip
    else if !(d.bit 0 F.DEV_STAT.ready) then emit (.config true 0)
    else if d.host.crs then
      withFree fun f =>
        if Config.freeNat f 0 % 2 = 0 then emit (.config true 0)
        else both (modHost fun h => { h with crs := false }) (configDone w)
    else configDone w

/-! ### Reads of host memory (R260, R261, R297) -/

/-- The read that an initiator has asked for. -/
def Device.hostRead (d : Device) (who a n : Nat) : Option HostRead :=
  d.host.reads.find? fun x => x.who == who && x.addr == a && x.n == n

/-- Device non-posted requests to the host that are outstanding. -/
def Device.hostNp (d : Device) : Nat := (d.host.reads.filter fun x => x.data.isNone).length

/-- The address that window offset `w` stands for: of the host's bus, or in proxy mode of the other device (R260, R297). -/
def Device.windowAddr (d : Device) (w : Nat) : Nat :=
  if d.proxied then ((d.reg 80 R.LNK_PROXYBASE).toNat * 0x10000 + w) % 2 ^ 48
  else d.reg64 32 R.HP_HWBASE_LO / 2 ^ 37 * 2 ^ 37 + w

/-- A request of the host window ends with an error: HP_ERR cause `i`, HP_ERRADDR. -/
def windowErr (w i : Nat) : Op := withD fun d => both (setN64 32 R.HP_ERRADDR_LO (d.windowAddr w)) (hpErr i)

/-- A read of `n` bytes at window offset `w`: over PCIe while Bus Master Enable is 1, in proxy mode as a
global request for each line; at most 512 are outstanding, and a further one waits. -/
def hostAsk (who w n : Nat) : Op :=
  withD fun d =>
    let t := d.host.nextTag
    let x : HostRead := { tag := t, who := who, addr := w, n := n }
    let put (x : HostRead) : Op := modHost fun h => { h with reads := h.reads ++ [x], nextTag := t + 1 }
    if 512 ≤ d.hostNp then skip
    else if d.proxied then
      let a := d.windowAddr w
      let p : Packet :=
        { kind := 0, cls := 2, tag := 1, src := 0x100, dev := d.fld 80 F.LNK_PROXY.dev, addr := a / 64 * 64,
          be := (2 ^ n - 1) * 2 ^ (a % 64), word := 0, data := [], pos := 3, rexit := 2, exit := 2, seq := t
          dirs := d.route' 3 (if d.fld 323 F.NI_CTL.link_agent = 0 then 59 else 60) }
      both (put x) (modI fun k => { k with net := k.net ++ [p] })
    else if d.host.busMaster then
      both (put x) (emit (.hostRead t (d.windowAddr w) n))
    else
      both (put { x with data := some none }) (windowErr w 6)

/-- The read is no longer kept. -/
def hostForget (t : Nat) : Op := modHost fun h => { h with reads := h.reads.filter fun x => x.tag != t }

/-- No read of an initiator is kept. -/
def hostForgetAll (who : Nat) : Op := modHost fun h => { h with reads := h.reads.filter fun x => x.who != who }

/-- A read ends with data, or without. -/
def hostEnd (t : Nat) (data : Option (List Byte)) : Op :=
  let one (x : HostRead) : HostRead := if x.tag = t then { x with data := some data } else x
  modHost fun h => { h with reads := h.reads.map one }

/-- The read of a tag that has not ended. -/
def Device.hostOpen (d : Device) (t : Nat) : Option HostRead := d.host.reads.find? fun x => x.tag == t && x.data.isNone

/-- HOST_COMPLETION (R261, R30). Data, or none for Unsupported Request or Completer Abort; one that comes too late is
discarded and counted. -/
def execHostCompletion (tag : Nat) (data : Option (List Byte)) (s : State) : Result :=
  go s <| withD fun d =>
    if !(d.portPower) then skip
    else
      match d.hostOpen tag with
      | some x =>
        both (hostEnd tag (data.map fun bs => bs.take x.n))
          (whenB data.isNone (windowErr x.addr 6))
      | none => ops [incReg 32 R.HP_LATECNT, hpErr 5, emit (.aer .unexpectedCompletion)]

/-- HOST_COMPLETION_TIMEOUT (R261). Nothing while the timeout is disabled, or in proxy mode. -/
def execHostCompletionTimeout (tag : Nat) (s : State) : Result :=
  go s <| withD fun d =>
    match d.hostOpen tag with
    | some x =>
      if d.proxied ∨ (d.reg 32 R.HP_CTO).toNat = 0xFFFFFFFF then skip
      else both (hostEnd tag none) (windowErr x.addr 4)
    | none => skip

/-! ### Bringing queues up and down (R263, R274) -/

/-- A queue pair begins: empty, its first pass writing phase 1. -/
def startQueue (q : QueueId) (sq cq size prio vec count time : Nat) : Op :=
  ops [modQ q fun _ => { sqBase := sq, cqBase := cq },
    setReg 33 (R.HP_SQ0 + q.val) 0, setF 33 (F.HP_SQ0.state.at q.val) 1, setF 33 (F.HP_SQ0.prio.at q.val) prio,
    setF 33 (F.HP_SQ0.size.at q.val) size, setReg 33 (R.HP_SQERR0 + q.val) 0, setBit 33 R.HP_QEXIST q.val,
    setReg 34 (R.HP_CQ0 + q.val) 0x80000000, setF 34 (F.HP_CQVEC0.vector.at q.val) vec,
    setF 34 (F.HP_CQVEC0.count.at q.val) count, setF 34 (F.HP_CQVEC0.time.at q.val) time]

/-- A queue pair is gone. -/
def dropQueue (q : QueueId) : Op :=
  ops [modQ q fun _ => {}, setReg 33 (R.HP_SQ0 + q.val) 0, setReg 33 (R.HP_SQERR0 + q.val) 0,
    clearBits 33 R.HP_QEXIST (2 ^ q.val), setReg 34 (R.HP_CQ0 + q.val) 0, setReg 34 (R.HP_CQVEC0 + q.val) 0]

/-- HP_CTL.en rises: the admin queue is brought up where its size is 2 to 4,096. Not while the port quiesces. -/
def queueEnable : Op :=
  withD fun d =>
    let size := d.fld 32 F.HP_AQ_SIZE.size
    if d.bit 32 F.HP_CTL.en ∨ d.inn.quiet then skip
    else
      ops [setF 32 F.HP_CTL.en 1, setF 32 F.HP_STAT.quiesced 0,
        whenB (2 ≤ size && size ≤ 4096)
          (both (startQueue 0 (d.reg64 32 R.HP_AQ_SQBASE_LO / 4096 * 4096) (d.reg64 32 R.HP_AQ_CQBASE_LO / 4096 * 4096) size 0 0 0 0)
            (setF 32 F.HP_STAT.rdy 1))]

/-- A write of HP_CTL: en, and itmo within its range. -/
def hpCtlWrite (en : Bool) (itmo : Nat) : Op :=
  pageWrite 32 (withD fun d =>
    both (whenB (10 ≤ itmo && itmo ≤ 1000) (setF 32 F.HP_CTL.itmo itmo))
      (if en then queueEnable else whenB (d.bit 32 F.HP_CTL.en) startQuiesce))

/-- QUEUE_ENABLE (R263). -/
def execQueueEnable (s : State) : Result := go s (withD fun d => hpCtlWrite true (d.fld 32 F.HP_CTL.itmo))

/-- QUEUE_DISABLE (R274). -/
def execQueueDisable (s : State) : Result := go s (withD fun d => hpCtlWrite false (d.fld 32 F.HP_CTL.itmo))

/-- QUIESCED (R274, R275). Every command has ended: queues and rings are gone. -/
def execQuiesced (s : State) : Result :=
  go s <| withD fun d =>
    if !(d.inn.quiet) ∨ d.inn.cmds.any (fun c => c.ended.isNone) then skip
    else
      ops [modI fun n => { n with quiet := false, cmds := [], ringLost := Vector.replicate 4 false
                                  ringUnsig := Vector.replicate 4 0 },
        modHost fun h => { h with queues := Vector.replicate 16 {}, served := Vector.replicate 4 0 },
        resetPage 33, resetPage 34, resetPage 35, setF 32 F.HP_STAT.quiesced 1]

/-! ### Errors of a queue (R264, R267) -/

/-- A queue enters its error state; commands that run in it run on, and their completions are discarded. -/
def queueError (q : QueueId) (c index : Nat) : Op :=
  ops [setF 33 (F.HP_SQ0.state.at q.val) 2, setF 33 (F.HP_SQERR0.cause.at q.val) c,
    setF 33 (F.HP_SQERR0.index.at q.val) index,
    modI fun n => { n with cmds := n.cmds.map fun x => if x.q = q.val then { x with aborted := true } else x },
    raise 33 0]

/-! ### Doorbells (R258, R264, R267, R276) -/

/-- A write of the submission tail doorbell. -/
def sqTail (q : QueueId) (v : Nat) : Op :=
  withD fun d =>
    if d.sqState q = 0 then hpErr 1
    else if d.sqSize q ≤ v then both (hpErr 1) (whenB (d.sqState q == 1) (queueError q 1 (v % 4096)))
    else if d.sqState q = 1 then modQ q fun x => { x with tail := v }
    else skip

/-- SQ_TAIL_DOORBELL (R264). -/
def execSqTailDoorbell (q : QueueId) (v : Word) (s : State) : Result :=
  go s (whenD (fun d => d.portPower) (sqTail q v.toNat))

/-- A write of the completion head doorbell; a head outside the queue is refused as a tail is (notes/assumptions/47.md). -/
def cqHeadWrite (q : QueueId) (v : Nat) : Op :=
  withD fun d =>
    if d.sqState q = 0 ∨ d.sqSize q ≤ v then hpErr 1
    else
      both (setF 34 (F.HP_CQ0.head.at q.val) v)
        (withD fun d1 => setB 34 (F.HP_CQ0.full.at q.val) (d1.cqFull q))

/-- CQ_HEAD_DOORBELL (R267). -/
def execCqHeadDoorbell (q : QueueId) (v : Word) (s : State) : Result :=
  go s (whenD (fun d => d.portPower) (cqHeadWrite q v.toNat))

/-- A write of the head doorbell of an event ring. -/
def ringHead (r : RingId) (v : Nat) : Op :=
  withD fun d =>
    if !(d.bit 35 (ringF F.HP_RING0CTL.en r.val)) ∨ d.fld 35 (ringF F.HP_RING0CTL.size r.val) ≤ v then hpErr 1
    else
      both (setF 35 (ringF F.HP_RING0STAT.head r.val) v)
        (withD fun d1 => setB 35 (ringF F.HP_RING0STAT.full r.val) (d1.ringFree r.val == 0))

/-- RING_HEAD_DOORBELL (R276). -/
def execRingHeadDoorbell (r : RingId) (v : Word) (s : State) : Result :=
  go s (whenD (fun d => d.portPower) (ringHead r v.toNat))

/-- A doorbell by its BAR4 offset (R258). -/
def doorbell (off v : Nat) : Op :=
  if off < 0x80 then
    if off % 8 = 0 then sqTail (Fin.ofNat 16 (off / 8)) v else if off % 8 = 4 then cqHeadWrite (Fin.ofNat 16 (off / 8)) v else skip
  else if 0x100 ≤ off ∧ off < 0x110 ∧ off % 4 = 0 then ringHead (Fin.ofNat 4 ((off - 0x100) / 4)) v
  else skip

/-- PROXY_DOORBELL (R298). An aligned write to the doorbell table of page 0x020; ignored while proxy mode is off. `i` is
the word in the table. -/
def execProxyDoorbell (i : Fin 68) (v : Word) (s : State) : Result :=
  go s (pageWrite 32 (whenD (fun d => d.proxied) (doorbell (4 * i.val) v.toNat)))

/-- MSIX_VECTOR_MASK_WRITE (R273). -/
def execMsixVectorMaskWrite (vec : Fin 256) (masked : Bool) (s : State) : Result :=
  go s <| withD fun d =>
    let v := vec.val
    if !(d.portPower) then skip
    else if masked then modI fun n => { n with msixMasked := if n.msixMasked.contains v then n.msixMasked else v :: n.msixMasked }
    else
      ops [modI fun n => { n with msixMasked := n.msixMasked.filter (· != v) },
        whenB (d.regBit 34 (R.HP_VECPEND0 + v / 32) (v % 32))
          (both (clearBits 34 (R.HP_VECPEND0 + v / 32) (2 ^ (v % 32))) (signalVec v))]

/-! ### Fetching commands (R265, R266) -/

/-- Opcodes of the command set; those of the admin queue alone. -/
def knownOp (o : Nat) : Bool := [0x00, 0x01, 0x02, 0x03, 0x10, 0x11, 0x12, 0x13, 0x20, 0x21, 0x30, 0x40, 0x50, 0x51, 0x52, 0x60].contains o
def adminOp (o : Nat) : Bool := [0x01, 0x02, 0x50, 0x51, 0x52, 0x60].contains o

/-- How many bytes of param1 an opcode uses. -/
def usedParam1 (o : Nat) : Nat := if o = 0x40 then 32 else if o = 0x01 ∨ o = 0x12 then 8 else 0

/-- The fields that must be zero are: flags beyond those of the opcode, offset 0x06, unused bytes of param1. -/
def zeroFields (e : List Byte) : Bool :=
  let o := numAt e 0 1
  (numAt e 1 1 < if o = 0x10 then 8 else 2) && numAt e 6 2 == 0 && numAt e (0x20 + usedParam1 o) (32 - usedParam1 o) == 0

/-- The command of a submission entry. -/
def cmdOf (q sqHead : Nat) (e : List Byte) : HostCmd :=
  { q := q, cid := numAt e 2 2, opcode := numAt e 0 1, flags := numAt e 1 1, target := numAt e 4 2, haddr := numAt e 8 8
    daddr := numAt e 0x10 8, length := numAt e 0x18 4, p0 := numAt e 0x1C 4, p1 := numAt e 0x20 32, zeroOk := zeroFields e
    sqHead := sqHead }

/-- A queue has an entry that can be started: posted, with room for completions, and its fence open. -/
def Device.queueReady (d : Device) (q : QueueId) : Bool :=
  d.sqState q == 1 && d.sqHead q != (d.hq q).tail && !(d.cqFull q) &&
    !((d.hq q).fenced && d.inn.cmds.any (fun c => c.q == q.val))

/-- The queue that is served next: the admin queue, then by priority, round-robin within one. -/
def Device.queueNext (d : Device) : Option QueueId :=
  let prio (q : QueueId) : Nat := d.fld 33 (F.HP_SQ0.prio.at q.val)
  let inPrio (p : Nat) : Option QueueId :=
    let order := (List.range 16).map fun i => (Fin.ofNat 16 (d.host.served.getD p 0 + 1 + i) : QueueId)
    order.find? fun q => q != 0 && prio q == p && d.queueReady q
  if d.queueReady 0 then some 0 else [3, 2, 1, 0].findSome? inPrio

/-- COMMAND_FETCH (R265, R266, R267). The entry at the head of the queue that is served next, or none where its read failed;
at most 64 commands run. A posted write of the host that is still on its way holds the fetch back. -/
def execCommandFetch (q : QueueId) (entry : Option (Vector Byte 64)) (s : State) : Result :=
  go s <| withD fun d =>
    if d.queueNext ≠ some q ∨ !(d.bit 32 F.HP_CTL.en) ∨ 64 ≤ (d.inn.cmds.filter fun c => c.ended.isNone).length ∨
        d.inn.net.any (fun p => p.src == 0x100 && p.kind == 2 && p.tag == 0) then skip
    else
      match (if d.proxied || d.host.busMaster then entry else none) with
      | none => both (whenB (!(d.proxied) && !(d.host.busMaster)) (hpErr 6)) (queueError q 2 (d.sqHead q))
      | some v =>
        let e := v.toList
        let h := nextIndex (d.sqHead q) (d.sqSize q)
        let c := cmdOf q.val h e
        if c.flags % 2 = 1 ∧ d.inn.cmds.any (fun c => c.q == q.val) then modQ q fun x => { x with fenced := true }
        else
          ops [setF 33 (F.HP_SQ0.head.at q.val) h, modQ q fun x => { x with fenced := false },
            modHost fun k => { k with served := k.served.set! (d.fld 33 (F.HP_SQ0.prio.at q.val)) q.val },
            modI fun n => { n with cmds := n.cmds ++ [c] },
            if !(knownOp c.opcode) ∨ (adminOp c.opcode ∧ q ≠ 0) then endCmd c 1 0 else whenB (!(c.zeroOk)) (endCmd c 2 0)]

/-! ### Posting completions (R262, R267, R273) -/

/-- The 16 bytes of a completion entry. -/
def completion (c : HostCmd) (st res phase : Nat) : List Byte :=
  let nb := Word.bytesOfNat
  nb 4 res ++ nb 2 c.sqHead ++ nb 1 c.q ++ nb 1 0 ++ nb 2 c.cid ++ nb 1 st ++ nb 1 phase ++ nb 4 0

/-- The command of a queue that ended first. -/
def Device.endedFirst (d : Device) (q : QueueId) : Option HostCmd :=
  let older (best : Option HostCmd) (c : HostCmd) : Option HostCmd :=
    if c.q ≠ q.val ∨ c.ended.isNone then best
    else
      match best with
      | some b => if c.order < b.order then some c else best
      | none => some c
  d.inn.cmds.foldl older none

/-- The queue is signalled, or one more of its entries is not. -/
def coalesce (q : QueueId) : Op :=
  withD fun d =>
    let n := d.fld 34 (F.HP_CQVEC0.count.at q.val)
    if n ≤ 1 ∨ n ≤ (d.hq q).unsig + 1 then
      both (modQ q fun x => { x with unsig := 0 }) (signalVec (d.fld 34 (F.HP_CQVEC0.vector.at q.val)))
    else modQ q fun x => { x with unsig := x.unsig + 1 }

/-- The status and the result with which a command ends: ABORTED where its queue was deleted meanwhile (R267, table Command status;
notes/assumptions/41.md). -/
def HostCmd.outcome (c : HostCmd) : Nat × Nat := if c.deleted then (9, 0) else c.ended.getD (0, 0)

/-- The counters of page 0x021, and the source of a failure. -/
def countCmd (c : HostCmd) (st : Nat) : Op :=
  ops [incReg 33 R.HP_CMDCNT, whenB (c.opcode == 0x10) (incReg 33 R.HP_OPCNT0), whenB (c.opcode == 0x11) (incReg 33 R.HP_OPCNT1),
    whenB (c.opcode == 0x12) (incReg 33 R.HP_OPCNT2), whenB (st == 6) (incReg 33 R.HP_TBUSYCNT),
    whenB (st != 0) (ops [incReg 33 R.HP_FAILCNT, setF 33 F.HP_LASTFAIL.status st, setF 33 F.HP_LASTFAIL.queue c.q,
      setF 33 F.HP_LASTFAIL.cid c.cid, raise 33 1])]

/-- The last command of a queue in deletion has ended: the queue is gone, and DELETE_QUEUE ends. -/
def endDeletion (q : QueueId) : Op :=
  withD fun d =>
    if d.sqState q = 3 ∧ d.inn.cmds.all (fun c => c.q != q.val) then
      both (dropQueue q) (endCmds (.queue q.val) 0 (d.hq q).killed)
    else skip

/-- COMPLETION_POST (R262, R267, R273). The next completion of a queue is written; one that is not to be issued is dropped;
while the completion queue is full it waits. `ok` is false where the write failed. -/
def execCompletionPost (q : QueueId) (ok : Bool) (s : State) : Result :=
  go s <| withD fun d =>
    match d.endedFirst q with
    | none => skip
    | some c =>
      let (st, res) := c.outcome
      let drop : Op := modI fun n => { n with cmds := n.cmds.erase c }
      if d.inn.quiet then skip
      else if c.aborted then both drop (endDeletion q)
      else if d.cqFull q then skip
      else if !ok ∨ !(d.proxied || d.host.busMaster) then
        both drop (if d.sqState q = 3 then endDeletion q else queueError q 3 (d.cqTail q))
      else
        let t := d.cqTail q
        let next := nextIndex t (d.sqSize q)
        ops [drop, hostOut ((d.hq q).cqBase + 16 * t) (completion c st res (d.fld 34 (F.HP_CQ0.phase.at q.val))),
          setF 34 (F.HP_CQ0.tail.at q.val) next,
          whenB (next == 0) (setF 34 (F.HP_CQ0.phase.at q.val) (1 - d.fld 34 (F.HP_CQ0.phase.at q.val))),
          withD fun d1 => both (setB 34 (F.HP_CQ0.full.at q.val) (d1.cqFull q)) (whenB (d1.cqFull q) (raise 34 0)),
          countCmd c st, coalesce q, endDeletion q]

/-- COALESCE_TIMEOUT (R273). The coalescing time of a completion queue, or of a ring, has passed. -/
def execCoalesceTimeout (w : QueueId ⊕ RingId) (s : State) : Result :=
  go s <| withD fun d =>
    match w with
    | .inl q =>
      if 0 < (d.hq q).unsig then
        both (modQ q fun x => { x with unsig := 0 }) (signalVec (d.fld 34 (F.HP_CQVEC0.vector.at q.val)))
      else skip
    | .inr r =>
      if 0 < d.inn.ringUnsig[r.val] then
        both (modI fun n => { n with ringUnsig := n.ringUnsig.set r.val 0 }) (signalVec (d.fld 35 (ringF F.HP_RING0CTL.vec r.val)))
      else skip

/-! ### Commands (table Command set) -/

/-- A command that has been taken, by queue, identifier and opcode. -/
def onCmd (q : QueueId) (cid : BitVec 16) (o : Nat) (f : HostCmd → Op) (s : State) : Result :=
  go s <| withD fun d =>
    match d.cmdAt q.val cid.toNat o with
    | some c => f c
    | none => skip

/-- Bytes for the command's host buffer, and what follows; nothing is issued for a command that is aborted, and without
Bus Master Enable the command ends with HOST_ABORT (R260, R274). -/
def cmdOut (c : HostCmd) (a : Nat) (bs : List Byte) (k : Op) : Op :=
  withD fun d =>
    if c.aborted || c.deleted then k
    else if d.proxied || d.host.busMaster then both (hostOut a bs) k
    else ops [setN64 32 R.HP_ERRADDR_LO a, hpErr 6, endCmd c 5 0]

/-- A command aimed at a region: INVALID_FIELD beyond 63, DOMAIN_OFF, TEST_BUSY (R270); a gated page takes no write, and the
command is refused as R489 says of the arrays (notes/assumptions/48.md). -/
def onRegion (c : HostCmd) (f : RegionId → Op) : Op :=
  withD fun d =>
    let r : RegionId := Fin.ofNat 64 c.target
    if 64 ≤ c.target then endCmd c 2 0
    else if !(d.domOn r.val) then endCmd c 10 0
    else if (d.rg r).test then endCmd c 6 0
    else if d.gated (rgnPg r) || d.inReset (rgnPg r) then endCmd c 7 1
    else f r

/-- NOP (R267). -/
def execNop (q : QueueId) (cid : BitVec 16) (s : State) : Result := onCmd q cid 0x00 (fun c => endCmd c 0 0) s

/-- CREATE_QUEUE (R263, R266). Queues 1 to 15, of 2 to 4,096 entries, in buffers on 4 KiB boundaries; one that exists is not
created again. -/
def execCreateQueue (q : QueueId) (cid : BitVec 16) (s : State) : Result :=
  onCmd q cid 0x01 (fun c => withD fun d =>
    let k : QueueId := Fin.ofNat 16 c.target
    let cq := c.p1 % 2 ^ 64
    if c.target = 0 ∨ 16 ≤ c.target ∨ c.length < 2 ∨ 4096 < c.length ∨ c.haddr % 4096 ≠ 0 ∨ cq % 4096 ≠ 0 ∨ d.sqState k ≠ 0 then
      endCmd c 2 0
    else
      both (startQueue k c.haddr cq c.length (c.p0 / 2 ^ 8 % 4) (c.p0 % 256) (c.p0 / 2 ^ 16 % 256) (c.p0 / 2 ^ 24 % 256))
        (endCmd c 0 0)) s

/-- DELETE_QUEUE (R267). The queue starts nothing more; its commands that run are aborted and counted, and its completions are posted. -/
def execDeleteQueue (q : QueueId) (cid : BitVec 16) (s : State) : Result :=
  onCmd q cid 0x02 (fun c => withD fun d =>
    let k : QueueId := Fin.ofNat 16 c.target
    if c.target = 0 ∨ 16 ≤ c.target ∨ d.sqState k = 0 ∨ d.sqState k = 3 then endCmd c 2 0
    else
      ops [setF 33 (F.HP_SQ0.state.at k.val) 3,
        modQ k fun x => { x with killed := (d.inn.cmds.filter fun x => x.q == k.val && x.ended.isNone).length },
        modI fun n => { n with cmds := n.cmds.map fun x =>
          if x.q = k.val ∧ x.ended = none then { x with deleted := true } else x },
        waitCmd c (.queue k.val), endDeletion k]) s

/-- IDENTIFY (R267). The identity page, whose contents the spec does not give. -/
def execIdentify (q : QueueId) (cid : BitVec 16) (s : State) : Result :=
  onCmd q cid 0x03 (fun c => withFree fun f =>
    cmdOut c c.haddr ((List.range 4096).map (Config.freeByte f)) (endCmd c 0 0)) s

/-- FETCH (R109, R270). -/
def execFetch (q : QueueId) (cid : BitVec 16) (s : State) : Result :=
  onCmd q cid 0x11 (fun c => onRegion c fun r => withD fun d =>
    let slot : SlotId := Fin.ofNat 8 (c.p0 / 2 ^ 8 % 8)
    both (fetchStart r (c.p0 / 2 ^ 16 % 256) slot)
      (match d.fetchRefusal r slot with
      | some x => endCmd c 7 x
      | none => waitCmd c (.fetch r.val))) s

/-- SCHEDULE (R102). -/
def execSchedule (q : QueueId) (cid : BitVec 16) (s : State) : Result :=
  onCmd q cid 0x12 (fun c => onRegion c fun r =>
    ops [setN64 (rgnPg r) R.RGN_SCHED_LO (c.p1 % 2 ^ 64), schedArm r (Fin.ofNat 8 (c.p0 % 8)), endCmd c 0 0]) s

/-- SWITCH (R95). -/
def execSwitch (q : QueueId) (cid : BitVec 16) (s : State) : Result :=
  onCmd q cid 0x13 (fun c => onRegion c fun r =>
    both (ctxselWrite r (Fin.ofNat 8 (c.p0 % 8)) true) (endCmd c 0 0)) s

/-- ENGINE (R189, R190, R270). Run, park or both: what applies to the engine's state; the result is ENG_STAT. -/
def execEngine (q : QueueId) (cid : BitVec 16) (s : State) : Result :=
  onCmd q cid 0x30 (fun c => withD fun d =>
    let e : EngineId := Fin.ofNat 256 c.target
    if 256 ≤ c.target then endCmd c 2 0
    else if !(d.domOn (engRgn e)) then endCmd c 10 0
    else if d.engState e = esTest then endCmd c 6 0
    else if d.gated (engPg e) || d.inReset (engPg e) then endCmd c 7 1
    else
      let run := c.p0 % 2 == 1
      let park := c.p0 / 2 % 2 == 1 && d.engState e != esParked
      ops [whenB run (startEngine e), whenB park (parkWrite e),
        withD fun d1 =>
          if d1.engState e = esParking then waitCmd c (.park e.val) else endCmd c 0 (d1.engStat e).toNat]) s

/-- POWER (R391, R397). P0 to P2 of a region, or P3 of the device. -/
def execPower (q : QueueId) (cid : BitVec 16) (s : State) : Result :=
  onCmd q cid 0x60 (fun c => withD fun d =>
    let r : RegionId := Fin.ofNat 64 c.target
    let st := c.p0 % 8
    if 3 < st ∨ (st < 3 ∧ 64 ≤ c.target) then endCmd c 2 0
    else if st = 3 then
      ops [p3Request, if d.p3Refusal = 0 then waitCmd c (.power 64 3) else endCmd c 7 d.p3Refusal]
    else
      let x := d.rgnRefusal r st
      if x = 3 then both (rgnRequest r st) (endCmd c 6 0)
      else if x ≠ 0 then both (rgnRequest r st) (endCmd c 7 x)
      else if st = d.rgnP r.val then both (rgnRequest r st) (endCmd c 0 st)
      else both (waitCmd c (.power r.val st)) (rgnRequest r st)) s

end Sys2Proof.Machine
end

