-- ==== Sys2Proof/Machine/MemAccess.lean ====
section
/-!
DEFINITION. An access to the memories of the device address map (R32) by an initiator that is not a fabric: engines, the
vault DMA channels, host commands, the steward, the debugger; then the host commands WRITE and READ (R268). Such an access
is one step, from its request to its response (notes/assumptions/49.md). The reach of each initiator (R33) is checked where
it makes the access.
-/

namespace Sys2Proof.Machine

/-! ### One line -/

/-- The bytes of flash as an initiator reads them: the steward record is zeros to all but the steward (R360). -/
def Device.flashBytes (d : Device) (who a n : Nat) : List Byte :=
  (List.range n).map fun i =>
    let b := a + i - flashBase
    if 0x210000 ≤ b ∧ b < 0x220000 ∧ who ≠ 0x101 then 0 else d.byte (a + i)

/-- An error that a read of the thermos finds: 0 corrected, 1 uncorrectable (PWR_THERR and the counts beside it). -/
def thermosErr (i a : Nat) : Op :=
  ops [incReg 21 (R.PWR_THCECNT + i), setN 21 R.PWR_THLASTERR (a - thermosBase), cause 21 R.PWR_THERR i]

/-- Read `n` bytes of one line; the gate has passed. `k` is given the status and the bytes. -/
def lineRead (who a n : Nat) (f : LineFound) (k : Status → List Byte → Op) : Op :=
  if inTier a then
    let v : VaultId := Fin.ofNat 64 (a / 0x4000000)
    let off := a % 0x4000000
    let touch (c : Nat) (x : Found) : Op :=
      whenB ((chunksOf a n).contains (a / 64 * 64 + 32 * c)) (chunkFound v (off / 64 * 64 + 32 * c) 2 who x)
    ops [touch 0 f.c0, touch 1 f.c1,
      withD fun d => k (if (chunksOf a n).any d.chunkBad then .poison else .ok) ((List.range n).map fun i => d.tierByte (a + i))]
  else if inExt a then
    withD fun d =>
      both (extRead (extChan a) (extOff a) who f.ext) (k (d.extReadStatus (extChan a) (extOff a) f.ext) (d.bytes a n))
  else if a < flashBase then
    withD fun d =>
      match f.c0 with
      | .clean => k .ok (d.bytes a n)
      | .corrected _ => both (thermosErr 0 a) (k .ok (d.bytes a n))
      | .uncorrectable => both (thermosErr 1 a) (k .poison (d.bytes a n))
  else
    withD fun d =>
      match f.c0 with
      | .clean => k .ok (d.flashBytes who a n)
      | .corrected _ => both (incReg 40 R.FL_ECCCNT) (k .ok (d.flashBytes who a n))
      | .uncorrectable =>
        ops [incReg 40 R.FL_UECNT, setN 40 R.FL_LASTERR (a - flashBase), flErr 3, k .poison (d.flashBytes who a n)]

/-- Write bytes of one line; the gate has passed. -/
def lineStore (who a : Nat) (bs : List Byte) (f : LineFound) (k : Status → Op) : Op :=
  if inTier a then
    let v : VaultId := Fin.ofNat 64 (a / 0x4000000)
    let off := a % 0x4000000
    let part (c : Nat) : Bool :=
      let x := a / 64 * 64 + 32 * c
      (chunksOf a bs.length).contains x && !((wholeChunks a bs.length).contains x)
    ops [whenB (part 0) (chunkFound v (off / 64 * 64) 2 who f.c0), whenB (part 1) (chunkFound v (off / 64 * 64 + 32) 2 who f.c1),
      withD fun d =>
        if d.partialBad a bs.length then both (vltCause v 7) (k .busErr)
        else ops [writeFresh a bs, breakResv (a / 64), k .ok]]
  else if inExt a then
    let c := extChan a
    let off := extOff a
    withD fun d =>
      if a % 64 = 0 ∧ bs.length = 64 then both (extWriteFull c off who bs f.ext f.bad) (k (d.extFullStatus c off f.ext))
      else
        both (extWritePart c off who ((List.range bs.length).map fun i => (a % 64 + i, bs.getD i 0)) f.ext f.bad)
          (k (d.extReadStatus c off f.ext))
  else both (setBytes a bs) (k .ok)

/-! ### Ranges -/

/-- A range as its pieces within lines of 64 B: address and length. -/
def linesOf (a n : Nat) : List (Nat × Nat) :=
  if n = 0 then []
  else (List.range ((a % 64 + n + 63) / 64)).map fun i =>
    let start := if i = 0 then a else (a / 64 + i) * 64
    (start, min (a + n) ((a / 64 + i + 1) * 64) - start)

/-- Read pieces in order; the first that fails ends the read. `k` is given the status, the address at which it failed, and
the bytes read before it. -/
def readPieces (router who : Nat) (k : Status → Nat → List Byte → Op) : List (Nat × Nat) → List LineFound → List Byte → Op
  | [], _, acc => k .ok 0 acc
  | (a, n) :: ps, fs, acc =>
    withD fun d =>
      match d.memGate router who false a with
      | .ok =>
        lineRead who a n (fs.headD {}) fun st bs =>
          if st = .ok then readPieces router who k ps fs.tail (acc ++ bs) else k st a acc
      | st => k st a acc

/-- Write pieces in order; the first that fails ends the write. -/
def writePieces (router who : Nat) (k : Status → Nat → Op) : List (Nat × Nat) → List LineFound → List Byte → Op
  | [], _, _ => k .ok 0
  | (a, n) :: ps, fs, bs =>
    withD fun d =>
      match d.memGate router who true a with
      | .ok =>
        lineStore who a (bs.take n) (fs.headD {}) fun st =>
          if st = .ok then writePieces router who k ps fs.tail (bs.drop n) else k st a
      | st => k st a

/-- A read of a range. It waits, with no effect, while one of its lines waits or its flash plane is busy (R239). -/
def memRead (router who a n : Nat) (fs : List LineFound) (k : Status → Nat → List Byte → Op) : Op :=
  withD fun d =>
    if (linesOf a n).any fun p => d.memWaits false p.1 || d.memGate router who false p.1 == .busy then skip
    else readPieces router who k (linesOf a n) fs []

/-- A write of a range. -/
def memWrite (router who a : Nat) (bs : List Byte) (fs : List LineFound) (k : Status → Nat → Op) : Op :=
  withD fun d =>
    if (linesOf a bs.length).any fun p => d.memWaits true p.1 then skip
    else writePieces router who k (linesOf a bs.length) fs bs

/-! ### The host window (R260, R297) -/

/-- A read of `n` bytes at window offset `w`, line by line: pieces not yet asked for are asked for, and while one has not
been answered nothing else happens. `k` is given the bytes, or none where a piece failed. -/
def hostFetch (who w n : Nat) (k : Option (List Byte) → Op) : Op :=
  withD fun d =>
    let got := (linesOf w n).map fun p => d.hostRead who p.1 p.2
    if got.all fun x => (x.bind (·.data)).isSome then
      let data := got.map fun x => (x.bind (·.data)).getD none
      both (forAll got fun x => match x with
        | some y => hostForget y.tag
        | none => skip)
        (k (if data.all (·.isSome) then some (data.flatMap fun x => x.getD []) else none))
    else forAll (linesOf w n) fun p => whenD (fun d => (d.hostRead who p.1 p.2).isNone) (hostAsk who p.1 p.2)

/-- A write of bytes at window offset `w`: posted, or refused while Bus Master Enable is 0. -/
def hostPut (w : Nat) (bs : List Byte) (k : Status → Op) : Op :=
  withD fun d =>
    if d.proxied then both (hostOut w bs) (k .ok)
    else if d.host.busMaster then both (hostOut (d.windowAddr w) bs) (k .ok)
    else both (windowErr w 6) (k .busErr)

/-- A device address lies in the host window (R32). -/
def inWindow (a : Nat) : Bool := hostBase ≤ a && a < hostBase + 2 ^ 37

/-! ### WRITE and READ (R268, R270) -/

/-- The range of a command: the memory tier 0, external memory 1, the thermos 2, the flash window 3. -/
def Device.cmdRange (d : Device) (a : Nat) : Option Nat :=
  if inTier a then some 0
  else if inExt a then (if extOff a < d.extGib (extChan a) * 2 ^ 30 then some 1 else none)
  else if thermosBase ≤ a ∧ a < thermosBase + 0x400000 then some 2
  else if flashBase ≤ a ∧ a < flashBase + 0x8000000 then some 3
  else none

/-- The status that a command ends with for the status of an access (table Command status). -/
def cmdStatus : Status → Nat
  | .ok => 0
  | .poison => 4
  | .domainOff => 10
  | .busyTest => 6
  | _ => 3

/-- What ends a WRITE or READ before it starts: its length, its range, a domain that is off, a block under test. -/
def Device.cmdRefusal (d : Device) (write : Bool) (a n : Nat) : Option Nat :=
  let last := a + n - 1
  let lines := linesOf a n
  let gate (st : Status) : Bool := lines.any fun p => d.memGate 3 0x100 write p.1 == st
  if 0x1000000 < n then some 2
  else if n = 0 then none
  else if d.cmdRange a = none ∨ d.cmdRange a ≠ d.cmdRange last ∨ (write ∧ d.cmdRange a = some 3) then some 3
  else if gate .domainOff then some 10
  else if gate .busyTest || lines.any (fun p => inTier p.1 && d.sliceTested (Fin.ofNat 64 (p.1 / 0x4000000)) (lineOf (p.1 % 0x4000000))) then
    some 6
  else none

/-- WRITE (R268). A failure reports the address of its line. `data` is what was read from the host buffer, none where that read failed; `fs` is what the lines' checks
find. -/
def execWrite (q : QueueId) (cid : BitVec 16) (data : Option (List Byte)) (fs : List LineFound) (s : State) : Result :=
  onCmd q cid 0x20 (fun c => withD fun d =>
    match d.cmdRefusal true c.daddr c.length, d.bufferRead data with
    | some st, _ => endCmd c st (if st = 3 then c.daddr / 64 * 64 % 2 ^ 32 else 0)
    | none, none => bufferFailed c
    | none, some bs =>
      let padded := (List.range c.length).map fun i => bs.getD i 0
      memWrite 3 0x100 c.daddr padded fs fun st a => endCmd c (cmdStatus st) (a / 64 * 64 % 2 ^ 32)) s

/-- READ (R268). -/
def execRead (q : QueueId) (cid : BitVec 16) (fs : List LineFound) (s : State) : Result :=
  onCmd q cid 0x21 (fun c => withD fun d =>
    match d.cmdRefusal false c.daddr c.length with
    | some st => endCmd c st (if st = 3 then c.daddr / 64 * 64 % 2 ^ 32 else 0)
    | none => memRead 3 0x100 c.daddr c.length fs fun st a bs => cmdOut c c.haddr bs (endCmd c (cmdStatus st) (a / 64 * 64 % 2 ^ 32))) s

end Sys2Proof.Machine
end

