-- ==== Sys2Proof/Machine/Dma.lean ====
section
/-!
DEFINITION. The vault DMA channels (07, R180 to R182, R185). A descriptor's lines are copied by DMA_DESCRIPTOR_DONE, in order
(notes/assumptions/49.md).
-/

namespace Sys2Proof.Machine

/-- A field of VLT_DMAc. -/
def fDma (f : Fld) (c : DmaId) : Fld := f.at c.val

/-- States of a channel: 0 idle, 1 running, 2 halted, 3 stopping. -/
def Device.dmaState (d : Device) (v : VaultId) (c : DmaId) : Nat := d.fld (vltPg v) (fDma F.VLT_DMA0.state c)
def setDmaState (v : VaultId) (c : DmaId) (st : Nat) : Op := setF (vltPg v) (fDma F.VLT_DMA0.state c) st

def Device.dma (d : Device) (v : VaultId) (c : DmaId) : DmaS := (d.vlt v).dma[c.val]
def modD (v : VaultId) (c : DmaId) (f : DmaS → DmaS) : Op := modV v fun s => { s with dma := s.dma.set c.val (f s.dma[c.val]) }

/-- The ring of a channel in its vault, and the descriptor at its head, by vault offset (R180). -/
def Device.dmaRing (d : Device) (v : VaultId) (c : DmaId) : Nat :=
  d.fld (vltPg v) F.VLT_DMABASE.base * 0x4000 + c.val * 0x1000
def Device.dmaHead (d : Device) (v : VaultId) (c : DmaId) : Nat := d.fld (vltPg v) (fDma F.VLT_DMA0.head c)
def Device.dmaDesc (d : Device) (v : VaultId) (c : DmaId) : Nat := vaultBase v.val + d.dmaRing v c + 64 * d.dmaHead v c

/-! ### The register (VLT_DMAc) -/

/-- A write of tail. -/
def dmaTail (v : VaultId) (c : DmaId) (tail : Nat) : Op := pageWrite (vltPg v) (setF (vltPg v) (fDma F.VLT_DMA0.tail c) tail)

/-- A write of run: an idle or stopping channel runs; a running one stops, after its current descriptor if it has one. -/
def dmaRun (v : VaultId) (c : DmaId) (run : Bool) : Op :=
  pageWrite (vltPg v) (withD fun d =>
    both (setB (vltPg v) (fDma F.VLT_DMA0.run c) run)
      (match run, d.dmaState v c with
        | true, 0 | true, 3 => setDmaState v c 1
        | false, 1 => setDmaState v c (if (d.dma v c).desc.isSome then 3 else 0)
        | _, _ => skip))

/-- A write of resume: a halt is cleared. -/
def dmaResume (v : VaultId) (c : DmaId) : Op :=
  pageWrite (vltPg v) (withD fun d =>
    if d.dmaState v c = 2 then
      ops [setF (vltPg v) (fDma F.VLT_DMA0.cause c) 0, modD v c fun _ => {},
        setDmaState v c (if d.bit (vltPg v) (fDma F.VLT_DMA0.run c) then 1 else 0)]
    else skip)

/-- DMA_TAIL_WRITE (R180). -/
def execDmaTailWrite (v : VaultId) (c : DmaId) (tail : Fin 64) (s : State) : Result := go s (dmaTail v c tail.val)

/-- DMA_RUN (R180, R182). -/
def execDmaRun (v : VaultId) (c : DmaId) (run : Bool) (s : State) : Result := go s (dmaRun v c run)

/-- DMA_RESUME (R182). -/
def execDmaResume (v : VaultId) (c : DmaId) (s : State) : Result := go s (dmaResume v c)

/-! ### Descriptors -/

/-- The channel meets an error: cause and address. -/
def dmaFail (v : VaultId) (c : DmaId) (x addr : Nat) : Op := modD v c fun s => { s with fail := some (x, addr) }

/-- The cause of a failed read, and of a failed write (VLT_DMAc.cause). -/
def dmaReadCause (st : Status) : Nat := if st = .poison then 3 else if st = .domainOff then 6 else 1
def dmaWriteCause (st : Status) : Nat := if st = .domainOff then 6 else 2

/-- A descriptor that ends with cause 4: no length, more than 16 MiB, or a reserved field that is not zero (R180, R185). -/
def badDescriptor (x : List Byte) : Bool :=
  let len := Word.natOfBytes ((x.drop 0x10).take 4)
  let z (off n : Nat) : Bool := Word.natOfBytes ((x.drop off).take n) == 0
  len == 0 || 0x1000000 < len || !(z 6 2) || !(z 14 2) || 3 < Word.natOfBytes ((x.drop 0x14).take 4) || !(z 0x18 8) ||
    !(z 0x24 4) || !(z 0x30 16)

/-- DMA_DESCRIPTOR_FETCH (R171, R172, R180, R185). A running channel with a posted descriptor, whose page is clocked, reads
it; in a vault that is closing it starts none. -/
def execDmaDescriptorFetch (v : VaultId) (c : DmaId) (fs : List LineFound) (s : State) : Result :=
  go s <| pageWrite (vltPg v) <| withD fun d =>
    let a := d.dmaDesc v c
    if d.dmaState v c ≠ 1 ∨ (d.dma v c).desc.isSome ∨ (d.dma v c).fail.isSome then skip
    else if (d.vlt v).closing then dmaFail v c 6 a
    else if d.dmaHead v c = d.fld (vltPg v) (fDma F.VLT_DMA0.tail c) then skip
    else if (List.range 4).any (fun i => d.inHamper (vaultBase v.val + d.dmaRing v 0 + 0x1000 * i)) then dmaFail v c 5 a
    else
      memRead v.val (Who.dma v c).id a 64 fs fun st _ bs =>
        if st ≠ .ok then dmaFail v c (dmaReadCause st) a
        else if badDescriptor bs then both (modD v c fun x => { x with desc := some bs }) (dmaFail v c 4 a)
        else modD v c fun x => { x with desc := some bs }

/-- Reads of host memory that the channel has outstanding (VLT_DMAc.outstanding). -/
def Device.dmaOut (d : Device) (v : VaultId) (c : DmaId) : Nat :=
  (d.host.reads.filter fun x => x.who == (Who.dma v c).id && x.data.isNone).length

/-- What a copy of `len` bytes writes at offset `off`: the bytes read, but free bytes where source and destination overlap and the
destination does not lie below the source (R181). -/
def copied (src dst len off : Nat) (bs : List Byte) (k : List Byte → Op) : Op :=
  if src ≤ dst ∧ dst < src + len then
    withFree fun f =>
      k ((List.range bs.length).map fun i => if dst + off + i < src + len then Config.freeByte f i else bs.getD i 0)
  else k bs

/-- Read bytes of one line of the memory tier, external memory or the host window for a channel (R33). -/
def dmaRead (v : VaultId) (c : DmaId) (a n : Nat) (f : LineFound) (k : List Byte → Op) : Op :=
  if inWindow a then
    hostFetch (Who.dma v c).id (a - hostBase) n fun x =>
      match x with
      | some bs => k bs
      | none => dmaFail v c 1 a
  else if inTier a ∨ inExt a then
    memRead v.val (Who.dma v c).id a n [f] fun st b bs => if st = .ok then k bs else dmaFail v c (dmaReadCause st) b
  else dmaFail v c 1 a

/-- Write pieces of lines of the memory tier, external memory or the host window for a channel (R33). -/
def dmaWrite (v : VaultId) (c : DmaId) : List (Nat × Nat) → List Byte → List LineFound → Op → Op
  | [], _, _, k => k
  | (a, n) :: ps, bs, fs, k =>
    if inWindow a then
      hostPut (a - hostBase) (bs.take n) fun st => if st = .ok then dmaWrite v c ps (bs.drop n) fs.tail k else dmaFail v c 2 a
    else if inTier a ∨ inExt a then
      memWrite v.val (Who.dma v c).id a (bs.take n) [fs.headD {}] fun st b =>
        if st = .ok then dmaWrite v c ps (bs.drop n) fs.tail k else dmaFail v c (dmaWriteCause st) b
    else dmaFail v c 2 a

/-- The line operations of a copy that are left, a source line each, in order: what is copied stands, and a line that waits holds the
rest back (R181, R182). -/
def dmaCopy (v : VaultId) (c : DmaId) (src dst len : Nat) : List (Nat × Nat) → List LineFound → List LineFound → Op → Op
  | [], _, _, k => k
  | (a, n) :: ps, fs, gs, k =>
    withD fun d =>
      let outs := linesOf (dst + (a - src)) n
      if d.memWaits false a ∨ outs.any fun p => d.memWaits true p.1 then skip
      else
        dmaRead v c a n (fs.headD {}) fun bs =>
          copied src dst len (a - src) bs fun bs' =>
            dmaWrite v c outs bs' gs
              (both (modD v c fun s => { s with done := a - src + n }) (dmaCopy v c src dst len ps fs.tail (gs.drop outs.length) k))

/-- Reads of the host window for up to 32 lines ahead are asked for; at that bound the channel stalls (R181). -/
def dmaAhead (v : VaultId) (c : DmaId) (ps : List (Nat × Nat)) : Op :=
  forAll ((ps.take 32).filter fun p => inWindow p.1) fun p =>
    whenD (fun d => (d.hostRead (Who.dma v c).id (p.1 - hostBase) p.2).isNone) (hostAsk (Who.dma v c).id (p.1 - hostBase) p.2)

/-- The channel writes the status word of the descriptor at head: done and the cause (R180, R181). -/
def dmaStatus (v : VaultId) (c : DmaId) (x : Nat) (fs : List LineFound) (k : Status → Op) : Op :=
  withD fun d =>
    memWrite v.val (Who.dma v c).id (d.dmaDesc v c + 0x20) (Word.bytesOfNat 4 (2 ^ 31 + x)) fs fun st _ => k st

/-- The channel writes fail_addr of the descriptor at head (R182). -/
def dmaFailAddr (v : VaultId) (c : DmaId) (failAddr : Nat) (fs : List LineFound) (k : Op) : Op :=
  withD fun d =>
    memWrite v.val (Who.dma v c).id (d.dmaDesc v c + 0x28) (Word.bytesOfNat 8 failAddr) fs fun _ _ => k

/-- A descriptor has ended without error: head advances, dma_done where it asks for it; a stopping channel is idle. -/
def dmaAdvance (v : VaultId) (c : DmaId) (x : List Byte) : Op :=
  withD fun d =>
    ops [setF (vltPg v) (fDma F.VLT_DMA0.head c) (d.dmaHead v c + 1), modD v c fun _ => {},
      whenB (d.dmaState v c == 3) (setDmaState v c 0),
      whenB (Word.natOfBytes ((x.drop 0x14).take 4) % 2 == 1) (vltCause v 4)]

/-- DMA_DESCRIPTOR_DONE (R180, R181). What is left of the descriptor in progress is copied as far as no line waits; once all of it is,
its status is written and head advances; an error leaves it for DMA_HALT. `src`, `dst` and `own` are what the checks of the lines
then read, written and of the descriptor find. -/
def execDmaDescriptorDone (v : VaultId) (c : DmaId) (src dst own : List LineFound) (s : State) : Result :=
  go s <| pageWrite (vltPg v) <| withD fun d =>
    match (d.dma v c).desc, (d.dma v c).fail with
    | some x, none =>
      let num (off n : Nat) : Nat := Word.natOfBytes ((x.drop off).take n)
      if (d.vlt v).closing then dmaFail v c 6 (d.dmaDesc v c)
      else
        let left := linesOf (num 0 8 + (d.dma v c).done) (num 0x10 4 - (d.dma v c).done)
        both (dmaAhead v c left)
          (dmaCopy v c (num 0 8) (num 8 8) (num 0x10 4) left src dst
            (dmaStatus v c 0 own fun st =>
              if st = .ok then dmaAdvance v c x else dmaFail v c (dmaWriteCause st) (d.dmaDesc v c + 0x20)))
    | _, _ => skip

/-- DMA_HALT (R182). The error's cause stands in VLT_DMAc and, if that write succeeds, in the descriptor; the channel is
halted, and dma_halt set. It waits while the channel has operations outstanding. -/
def execDmaHalt (v : VaultId) (c : DmaId) (own : List LineFound) (s : State) : Result :=
  go s <| pageWrite (vltPg v) <| withD fun d =>
    match (d.dma v c).fail with
    | none => skip
    | some (x, a) =>
      if d.dmaOut v c ≠ 0 then skip
      else dmaStatus v c x own fun _ => dmaFailAddr v c a own <|
        ops [hostForgetAll (Who.dma v c).id, setF (vltPg v) (fDma F.VLT_DMA0.cause c) x, setDmaState v c 2, modD v c fun _ => {}, vltCause v 5]

end Sys2Proof.Machine
end

