-- ==== Sys2Proof/Machine/Sentinel.lean ====
section
/-!
DEFINITION. The supply sentinel (17_power_and_supply.md, R402 to R407): r.m.s. values, supply events and their log, the
holdup fit, SUPPLY_WARN, its clearing and the release of the fetch forbid.
-/

namespace Sys2Proof.Machine

def modSen (f : Sentinel → Sentinel) : Op := modI fun n => { n with sen := f n.sen }

/-- The sentinel runs whenever the always-on domain does. -/
def senGo (s : State) (o : Op) : Result := goIn [.up, .p3, .fault] s o

/-- A cause of SEN_EV; sources 635 to 639 carry them in groups. -/
def senCause (i : Nat) : Op :=
  causeAt 23 R.SEN_EV i 16 (if i ≤ 2 then 1 else if i ≤ 4 then 2 else if i = 5 then 3 else if i = 6 then 4 else 5)

/-! ### The log (R403) -/

/-- The place of a new entry: a free one, else the oldest that has ended. -/
def Sentinel.place (s : Sentinel) : Option (Fin 16) :=
  match (List.finRange 16).find? fun i => (s.log[i.val]).isNone with
  | some i => some i
  | none =>
    (List.finRange 16).foldl (fun best i =>
      match s.log[i.val], best with
      | some e, none => if e.active then none else some i
      | some e, some b => match s.log[b.val] with
        | some eb => if !e.active && e.start < eb.start then some i else best
        | none => best
      | none, _ => best) none

/-- The events in progress (SEN_STAT). -/
def Device.evActive (d : Device) (kind : Nat) : Bool := d.regBit 23 R.SEN_STAT kind

/-- An event starts and is logged. -/
def evStart (kind extreme : Nat) : Op :=
  withD fun d =>
    let full := d.inn.sen.log.toList.all (·.isSome)
    ops [setBit 23 R.SEN_STAT kind,
      whenB full (both (setF 23 F.SEN_LOGCTL.lost (d.fld 23 F.SEN_LOGCTL.lost + 1)) (senCause 7)),
      match d.inn.sen.place with
      | some i =>
        let e : SenLog := { kind := kind, active := true, extreme := extreme % 65536, start := d.now, dur := 0 }
        modSen fun s => { s with log := s.log.set i.val (some e) }
      | none => skip,
      senCause kind]

/-- An entry whose event is in progress changes. -/
def evEdit (kind : Nat) (f : SenLog → SenLog) : Op :=
  let one (e : Option SenLog) : Option SenLog := e.map fun x => if x.kind = kind ∧ x.active then f x else x
  modSen fun s => { s with log := s.log.map one }

/-- An event ends. -/
def evEnd (kind : Nat) : Op :=
  withD fun d =>
    both (clearBits 23 R.SEN_STAT (2 ^ kind))
      (evEdit kind fun x => { x with active := false, dur := min ((d.now - x.start) / 1000) 0xFFFFFFFF })

/-- An event of a kind follows its conditions: `worse` keeps the more extreme of two values. -/
def evTrack (kind : Nat) (starts ends : Bool) (v : Nat) (worse : Nat → Nat → Nat) : Op :=
  withD fun d =>
    if d.evActive kind then
      if ends then evEnd kind else evEdit kind fun x => { x with extreme := worse x.extreme v % 65536 }
    else whenB starts (evStart kind v)

/-! ### Triggers (R405) -/

/-- A trigger is enabled: 2 holdup, 1 dc, 0 int. -/
def Device.trigOn (d : Device) (i : Nat) : Bool := (d.fld 23 F.SEN_WARNCFG.trig).testBit i

/-- An interruption in progress has lasted int_time. -/
def Device.intLong (d : Device) : Bool :=
  d.inn.sen.log.toList.any fun e =>
    match e with
    | some x => x.kind == 2 && x.active && x.start + 1000000 * d.fld 23 F.SEN_WARNCFG.int_time ≤ d.now
    | none => false

/-- An enabled trigger holds. -/
def Device.triggered (d : Device) : Bool :=
  d.bit 23 F.SEN_CTL.en &&
    ((d.inn.sen.sampled && d.trigOn 2 && (d.reg 23 R.SEN_HOLDUP).toNat < 1000 * d.fld 23 F.SEN_WARNCFG.warn_time) ||
      (d.inn.sen.sampled && d.trigOn 1 && (d.reg 23 R.SEN_RMS6).toNat < d.fld 23 F.SEN_DCCFG.dc_warn) ||
      (d.trigOn 0 && d.intLong))

/-- The ADC is being recalibrated: no SUPPLY_WARN can arise (R490). -/
def Device.senTested (d : Device) : Bool :=
  d.inn.tests.toList.any fun t =>
    match t.run with
    | some x => x.code == 0x21
    | none => false

/-- When a trigger last held. -/
def markTrigger : Op := withD fun d => whenB d.triggered (modSen fun s => { s with trigAt := d.now })

/-! ### Sampling (R402 to R404) -/

/-- A value in 10 mV in 0.1 % of Udin. -/
def Device.permille (d : Device) (v : Nat) : Nat :=
  let u := d.fld 23 F.SEN_CTL.udin
  if u = 0 then 0 else v * 100 / u

/-- A value in 10 mV is below, or above, so many percent of Udin. -/
def Device.belowPct (d : Device) (v pct : Nat) : Bool := v * 10 < pct * d.fld 23 F.SEN_CTL.udin
def Device.abovePct (d : Device) (v pct : Nat) : Bool := pct * d.fld 23 F.SEN_CTL.udin < v * 10

/-- Imbalance over the last ten cycles, in 0.1 %: (max − min) / mean of the phases' averages. -/
def imbalance (ps : List (Nat × Nat × Nat)) : Nat :=
  let a := (ps.map (·.1)).sum
  let b := (ps.map (·.2.1)).sum
  let c := (ps.map (·.2.2)).sum
  if a + b + c = 0 then 0 else (max a (max b c) - min a (min b c)) * 3000 / (a + b + c)

/-- New r.m.s. values of the phases, in 10 mV, and what they start and end. -/
def phaseValues (v1 v2 v3 : Nat) : Op :=
  withD fun d =>
    let lo := min v1 (min v2 v3)
    let hi := max v1 (max v2 v3)
    let sag := d.fld 23 F.SEN_THR.sag
    let swell := d.fld 23 F.SEN_THR.swell
    let low := d.fld 23 F.SEN_THR.int
    let hyst := d.fld 23 F.SEN_THR.hyst
    let isLow (v : Nat) : Bool := d.belowPct v low
    let back (v : Nat) : Bool := d.abovePct v (low + hyst)
    let allLow := isLow v1 && isLow v2 && isLow v3
    let anyLow := isLow v1 || isLow v2 || isLow v3
    let ps := ((v1, v2, v3) :: d.inn.sen.phases).take 20
    let imb := imbalance ps
    let lim := 10 * d.fld 23 F.SEN_THR.imb
    ops [setN 23 R.SEN_RMS0 v1, setN 23 (R.SEN_RMS0 + 1) v2, setN 23 (R.SEN_RMS0 + 2) v3,
      modSen fun s => { s with phases := ps },
      evTrack 0 (d.belowPct lo sag) (d.abovePct lo (sag + hyst)) (d.permille lo) min,
      evTrack 1 (d.abovePct hi swell) (d.belowPct hi (swell - hyst)) (d.permille hi) max,
      evTrack 3 (anyLow && !allLow) (allLow || (back v1 && back v2 && back v3)) (d.permille lo) min,
      evTrack 2 allLow (back v1 || back v2 || back v3) (d.permille hi) min,
      evTrack 4 (ps.length == 20 && lim < imb) (imb < lim) imb max]

/-- HALF_CYCLE_RMS (R402, R403). At a zero crossing of channel 0: the r.m.s. of each phase voltage in 10 mV and current in
10 mA over the last cycle, and the frequency in mHz, from 45 to 65 Hz. -/
def execHalfCycleRms (v i : Vector (BitVec 32) 3) (mHz : BitVec 17) (s : State) : Result :=
  senGo s <| withD fun d =>
    let f := mHz.toNat
    if !(d.bit 23 F.SEN_CTL.en) ∨ f < 45000 ∨ 65000 < f then skip
    else
      let nom := if d.bit 23 F.SEN_CTL.hz60 then 60000 else 50000
      let inside := nom ≤ f + 1000 && f ≤ nom + 1000
      let n := if inside then d.inn.sen.freqIn + 1 else 0
      ops [phaseValues v[0].toNat v[1].toNat v[2].toNat,
        forAll (List.finRange 3) fun k => setReg 23 (R.SEN_RMS3 + k.val) i[k.val],
        setN 23 R.SEN_FREQ f, setF 23 F.SEN_STAT.freq_valid 1, modSen fun s => { s with freqIn := n },
        withFree fun x => evTrack 5 (!inside) (20 ≤ n) (Config.freeNat x 0) (fun a _ => a), markTrigger]

/-- FIXED_WINDOW_RMS (R402). Outside 45 to 65 Hz: the r.m.s. values of a 20 ms window. -/
def execFixedWindowRms (v i : Vector (BitVec 32) 3) (s : State) : Result :=
  senGo s <| withD fun d =>
    if !(d.bit 23 F.SEN_CTL.en) then skip
    else
      ops [phaseValues v[0].toNat v[1].toNat v[2].toNat,
        forAll (List.finRange 3) fun k => setReg 23 (R.SEN_RMS3 + k.val) i[k.val],
        setF 23 F.SEN_STAT.freq_valid 0, modSen fun s => { s with freqIn := 0 },
        withFree fun x => evTrack 5 true false (Config.freeNat x 0) (fun a _ => a), markTrigger]

/-- SEN_HOLDUP from the DC bus in 10 mV and its slope in 10 mV per second: (VDC − dc_min) / −slope in µs (R404). -/
def holdup (dc dcMin : Nat) (slope : Int) : Nat :=
  if slope < 0 then min ((dc - dcMin) * 1000000 / slope.natAbs) 0xFFFFFFFF else 0xFFFFFFFF

/-- HOLDUP_FIT (R404, R403). Every 100 µs: the DC mean in 10 mV, and the slope of the last 1 ms in 10 mV per second. -/
def execHoldupFit (dc : BitVec 16) (slope : Int) (s : State) : Result :=
  senGo s <| withD fun d =>
    if !(d.bit 23 F.SEN_CTL.en) then skip
    else
      let w := d.fld 23 F.SEN_DCCFG.dc_warn
      ops [setN 23 R.SEN_RMS6 dc.toNat, setN 23 R.SEN_HOLDUP (holdup dc.toNat (d.fld 23 F.SEN_DCCFG.dc_min) slope),
        evTrack 6 (dc.toNat < w) (102 * w < 100 * dc.toNat) dc.toNat min,
        modSen fun s => { s with sampled := true }, markTrigger]

/-! ### SUPPLY_WARN (R26, R405, R406) -/

/-- A region that a stop switch would not switch, having no stop context (PWR_STOPHELD). -/
def Device.noStop (d : Device) (r : RegionId) : Bool :=
  d.rgnP r.val == 0 && !(!(d.rg r).loadReset && d.bit (rgnPg r) F.RGN_INFO.loaded && d.bit (rgnPg r) F.RGN_CTXCFG.stop_en)

/-- A region test is abandoned by the warning (R482): its restore starts. -/
def abandonTests : Op :=
  let one (t : TestSlot) : TestSlot := { t with run := t.run.map fun x => if x.code = 3 then { x with abandon := some 7 } else x }
  modI fun n => { n with tests := n.tests.map one }

/-- SUPPLY_WARN is raised; in P3 it is recorded only. -/
def supplyWarn : Op :=
  withD fun d =>
    let held (lo : Nat) : Nat := ((List.finRange 64).filter fun r => lo ≤ r.val && r.val < lo + 32 && d.noStop r).foldl
      (fun m r => m + 2 ^ (r.val - lo)) 0
    ops [setF 23 F.SEN_STAT.warn 1, modSen fun s => { s with trigAt := d.now }, setN64 17 R.PWR_WARNTIME_LO d.now,
      whenB (d.inn.phase == .up)
        (ops [incReg 17 R.PWR_WARNCNT, raise 23 0, abandonImage, forbidFetches, abandonTests,
          setN 17 R.PWR_STOPHELD0 (held 0), setN 17 R.PWR_STOPHELD1 (held 32),
          modI fun n => { n with stopAt := some (d.now + 1000 * d.fld 17 F.PWR_SUPCTL.stop_lead) }, startSave])]

/-- SUPPLY_WARN (R405, R26). An enabled trigger holds, and no warning is in force. -/
def execSupplyWarn (s : State) : Result :=
  senGo s (whenD (fun d => d.triggered && !(d.senTested) && !(d.bit 23 F.SEN_STAT.warn)) supplyWarn)

/-- INTERRUPTION_TIMEOUT (R405). An interruption has lasted int_time; its trigger, where enabled, raises SUPPLY_WARN. -/
def execInterruptionTimeout (s : State) : Result :=
  senGo s (whenD (fun d => d.bit 23 F.SEN_CTL.en && d.intLong && d.trigOn 0)
    (both markTrigger (whenD (fun d => !(d.senTested) && !(d.bit 23 F.SEN_STAT.warn)) supplyWarn)))

/-- WARNING_CLEAR (R405, R27, R398). No trigger has held for clear_time: the warning and the stop holds clear; in P3 its end
is a wake source. -/
def execWarningClear (s : State) : Result :=
  senGo s <| withD fun d =>
    if d.bit 23 F.SEN_STAT.warn ∧ d.bit 23 F.SEN_CTL.en ∧ ¬ d.triggered ∧
        d.inn.sen.trigAt + 10000000 * d.fld 23 F.SEN_WARNCFG.clear_time ≤ d.now then
      ops [setF 23 F.SEN_STAT.warn 0, forAll (List.finRange 64) fun r => setF (rgnPg r) F.RGN_HOLD.stop_hold 0,
        whenB (d.inP3 && d.regBit 17 R.PWR_WAKE 1) (modI fun n => { n with wakeDue := n.wakeDue.getD 1 })]
    else skip

/-- A write of release to PWR_SUPCTL: ignored while the warning holds, and while entry to P3 forbids fetches. -/
def forbidRelease : Op :=
  pageWrite 17 (whenD (fun d => !(d.bit 23 F.SEN_STAT.warn) && !d.pow.p3) (setF 17 F.PWR_DEVSTAT.forbid 0))

/-- FORBID_RELEASE (R405, R114). -/
def execForbidRelease (s : State) : Result := go s forbidRelease

/-- A write of SEN_CTL.en: clearing it ends the events in progress; setting it has the sentinel evaluate afresh. -/
def sentinelEnable (en : Bool) : Op :=
  pageWrite 23 (withD fun d =>
    let was := d.bit 23 F.SEN_CTL.en
    ops [setB 23 F.SEN_CTL.en en,
      whenB (was && !en) (both (forAll (List.range 7) fun k => whenD (fun d => d.evActive k) (evEnd k))
        (modSen fun s => { s with phases := [], freqIn := 0, sampled := false })),
      whenB (!was && en) (modSen fun s => { s with trigAt := d.now })])

/-- SENTINEL_ENABLE (R405). -/
def execSentinelEnable (en : Bool) (s : State) : Result := go s (sentinelEnable en)

end Sys2Proof.Machine
end

