-- ==== Sys2Proof/Machine/StartUp.lean ====
section
/-!
DEFINITION. From power to READY (18_start_up.md): POR release, the steps of start-up and what stops it, calibration and
its restore, checker self-test, READY, RESET_N.
-/

namespace Sys2Proof.Machine

/-! ### Stops (R412) and step numbers -/

def setStep (n : Nat) : Op := setF 0 F.DEV_STAT.step n
def Device.step (d : Device) : Nat := d.fld 0 F.DEV_STAT.step

/-- Start-up stops: FAULT_N, DEV_BOOTERR. -/
def startStop (c : Nat) : Op :=
  ops [setStep 15, setF 0 F.DEV_STAT.fault 1, setF 0 F.DEV_BOOTERR.valid 1, setF 0 F.DEV_BOOTERR.cause c,
    modI fun n => { n with bootStop := true }, modStw fun w => { w with refStop := c == 3 }]

/-! ### Step 1: the boot ROM (R425, R427, R430, R431, R433) -/

/-- Flash offsets of the steward slots (R360). -/
def stewardBase (slot : Nat) : Nat := flashBase + if slot = 0 then 0 else 0x4000000

/-- A steward slot that the boot ROM accepts. -/
def Device.acceptSlot (d : Device) (slot : Nat) : Option (Nat × List Byte) :=
  match Config.stewardSlot (d.cells (stewardBase slot) 0x200000) with
  | some (v, bs) => if d.inn.stw.rollStw ≤ v then some (v, bs) else none
  | none => none

/-- The keys that the steward makes at its start: none in BLANK and RETURNED (R428). -/
def startKeys : Op :=
  modStw fun w =>
    let l := max w.fuseLcs w.recLcs
    let k := l == 1 || l == 2
    { w with identity := k, sealRoot := k, memKeys := k }

/-- A new nonce (R440). -/
def newNonce : Op :=
  withFree fun f => both (modStw fun w => { w with nonce := (List.range 32).map (Config.freeByte f) }) (addReg 3 R.STW_RNGCNT 8)

/-- A write of the steward record. -/
def recordWritten : Op := both (modStw fun w => { w with recWrites := w.recWrites + 1 }) (incF 3 F.STW_RECSTAT.writes)

/-- The steward starts from a slot. -/
def stewardStarts (slot : Nat) (other trying : Bool) (version : Nat) (bs : List Byte) : Op :=
  withD fun d =>
    ops [setF 0 F.DEV_BOOTSLOT.slot slot, setB 0 F.DEV_BOOTSLOT.other_failed other,
      modStw fun w => { w with trying := trying, trial := none, recLcs := d.lcs },
      whenB (d.inn.stw.recLcs != d.lcs || d.inn.stw.trial.isSome) recordWritten,
      setB 1 F.STW_LCS.rewritten (d.inn.stw.recLcs != d.lcs), setB 1 F.STW_LCS.trial trying,
      extendSlot 0 (Config.sha3 bs), setF 1 F.STW_STAT.sec_version version, setF 1 F.STW_STAT.ready 1,
      setN 1 R.STW_ROLLSTW d.inn.stw.rollStw,
      forAll (List.finRange 8) fun i => setN 1 (R.STW_ROLLMIN2 + i.val) d.inn.stw.rollMin[i.val],
      setF 3 F.STW_FUSE.state d.inn.stw.fuseLcs, setF 3 F.STW_RECSTAT.valid 1, setF 3 F.STW_RECSTAT.writes d.inn.stw.recWrites,
      setF 3 F.STW_RNGSTAT.healthy 1,
      setB 3 F.STW_IDSTAT.present (!d.inn.stw.chain.isEmpty), setF 3 F.STW_IDSTAT.bytes d.inn.stw.chain.length,
      setF 1 F.STW_SCRUBSTAT.north 1, setF 1 F.STW_SCRUBSTAT.south 1,
      startKeys, newNonce, setStep 2, startPll]

/-- The boot ROM's step: a slot on trial first, then the preferred one, then the other; one that it does not try has not
failed. -/
def bootRom (katOk : Bool) : Op :=
  withD fun d =>
    let w := d.inn.stw
    let first := w.trial.getD w.preferred
    if !katOk then startStop 1
    else
      match d.acceptSlot first with
      | some (v, bs) => stewardStarts first false w.trial.isSome v bs
      | none =>
        match d.acceptSlot (1 - first) with
        | some (v, bs) => stewardStarts (1 - first) true false v bs
        | none => startStop 2

/-! ### Step 4: calibration and its restore (R415 to R417, R407, R488) -/

/-- One step of the CRC-32 of the IEEE 802.3 polynomial, reflected, over a byte. -/
def crc32Byte (c : Nat) (b : Byte) : Nat :=
  (List.range 8).foldl (fun c _ => if c % 2 = 1 then (c / 2) ^^^ 0xEDB88320 else c / 2) (c ^^^ b.toNat)

/-- The CRC-32 of bytes. -/
def crc32 (bs : List Byte) : Nat := bs.foldl crc32Byte 0xFFFFFFFF ^^^ 0xFFFFFFFF

/-- Words of little-endian bytes. -/
def wordsOf : Nat → List Byte → List Word
  | 0, _ => []
  | n + 1, bs => BitVec.ofNat 32 (Word.natOfBytes (bs.take 4)) :: wordsOf n (bs.drop 4)

/-- The mark before the arrays in the thermos, and their length (notes/assumptions/45.md). -/
def calMark : Nat := 0x4B414C43
def calLen : Nat := 4 * (calArrays.map (·.2)).sum

/-- The arrays of the thermos device record; none where it holds none (R416). -/
def Device.thermosArrays (d : Device) : Option (List (Nat × List Word) × List Byte) :=
  if d.num (thermosBase + recordCal) 4 ≠ calMark ∨ d.bit 0 F.DEV_CHKSTAT.thermos then none
  else
    let bs := d.bytes (thermosBase + recordCal + 4) calLen
    let step (acc : List (Nat × List Word) × List Byte) (a : Nat × Nat) := (acc.1 ++ [(a.1, wordsOf a.2 acc.2)], acc.2.drop (4 * a.2))
    some ((calArrays.foldl step ([], bs)).1, bs)

/-- The arrays of a calibration block. -/
def blockArrays : Nat → List Byte → List (Nat × List Word)
  | 0, _ => []
  | n + 1, bs =>
    let len := numAt bs 2 2
    (numAt bs 0 2, wordsOf len (bs.drop 4)) :: blockArrays n (bs.drop (4 + 4 * len))

/-- The calibration block in flash, where its magic, length, device_id and CRC hold (R417): arrays, policy, bytes. -/
def Device.flashArrays (d : Device) : Option (List (Nat × List Word) × Nat × List Byte) :=
  let a := flashBase + 0x4220000
  let len := d.num (a + 8) 4
  if d.num a 4 ≠ calMark ∨ len < 0x24 ∨ 0x10000 < len ∨ d.bytes (a + 0x10) 16 ≠ uidBytes then none
  else
    let bs := d.bytes a len
    if numAt bs (len - 4) 4 ≠ crc32 (bs.take (len - 4)) then none
    else some (blockArrays (numAt bs 6 2) (bs.drop 0x20), numAt bs 0x0C 2, bs)

/-- The item of R415's table that a page's array belongs to, as DEV_CALSRC numbers items; lanes belong to none. -/
def calItem (p : Nat) : Option Nat :=
  match kindOf p with
  | some .clkF => some 0
  | some .sen => some 1
  | some .vlt => some 2
  | some .io => some 3
  | some .ext => some (4 + (p - 36))
  | _ => none

/-- The words of a page's array are written. -/
def putArray (p : Nat) (ws : List Word) : Op :=
  forAll (List.range ws.length) fun i => setReg p (256 + i) (ws.getD i 0)

/-- An item calibrated afresh: its arrays take what calibration finds. -/
def freshArrays (item : Nat) : Op :=
  forAll (calArrays.filter fun a => calItem a.1 == some item) fun a =>
    withFree fun f => putArray a.1 ((List.range a.2).map (Config.freeWord f))

/-- The outcome of an item (DEV_CALSRC): restored and kept, restored and recalibrated, or calibrated afresh. -/
def outcome (restorable kept : Bool) : Nat := if restorable then (if kept then 2 else 3) else 1

def setItem (i v : Nat) : Op := withD fun d =>
  let w := d.fld 0 F.DEV_CALSRC.items
  setF 0 F.DEV_CALSRC.items (w - (w / 4 ^ i % 4) * 4 ^ i + v * 4 ^ i)

/-- The restore source (R416): its code, its arrays, the items it restores, its bytes. -/
def Device.calSource (d : Device) : Nat × List (Nat × List Word) × Nat × List Byte :=
  match d.thermosArrays with
  | some (as, bs) => (1, as, 0x3F, bs)
  | none =>
    match d.flashArrays with
    | some (as, pol, bs) => (2, as, if pol.testBit 15 then 0 else pol % 64, bs)
    | none => (0, [], 0, [])

/-- The arrays of the source that take effect: lanes always, as starting points (R314); an item where it was kept. OSC_F was
trimmed in step 3. -/
def applyArrays (as : List (Nat × List Word)) (kept : Nat → Bool) : Op :=
  forAll as fun a =>
    if 96 ≤ a.1 ∧ a.1 < 144 then
      ops [putArray a.1 a.2, setF a.1 F.LN_CALSTAT.written 1, modI fun n => { n with calNew := (a.1 - 96) :: n.calNew.erase (a.1 - 96) }]
    else
      match calItem a.1 with
      | some i => whenB (i != 0 && kept i) (putArray a.1 a.2)
      | none => skip

/-- Step 4 ends. LPDDR5X, items 4 and 5, is trained in step 7b; its arrays are set out for it. -/
def calibrated (keep : Nat) (sentinel io ms : Nat) : Op :=
  withD fun d =>
    let (src, as, items, bs) := d.calSource
    let out (i : Nat) : Nat := outcome (items.testBit i) (keep.testBit i)
    ops [whenB (src != 0) (extendSlot 10 (Config.sha3 bs)), setF 0 F.DEV_CALSRC.src src,
      applyArrays as fun i => items.testBit i && (4 ≤ i || keep.testBit i),
      forAll (List.range 4) fun i => both (setItem i (out i)) (whenB (i != 0 && out i != 2) (freshArrays i)),
      setB 0 F.DEV_STAT.cal_restored ((List.range 4).any fun i => out i == 2), setF 0 F.DEV_CALTIME.step4 ms,
      setF 23 F.SEN_CALSTAT.calibrated 1, setF 23 F.SEN_CALSTAT.residual sentinel, whenB (4 < sentinel) (senCause 8),
      forAll ((List.finRange 10).filter fun b => !(d.inn.vccBad.contains b.val)) fun b =>
        both (setF (ioPg b) F.IO_CALSTAT.calibrated 1) (setF (ioPg b) F.IO_CALSTAT.residual io),
      forAll (List.finRange 64) fun v => modV v fun s => { s with filling := true }, setStep 5]

/-! ### Step 6: checker self-test (R413, R414) -/

/-- A block is fenced. -/
def fence (p : Nat) : Op := setF p fFault 1

/-- The lowest vault, region or engine group among the failed ones. -/
def lowestFailed (v p e : Nat) : Nat :=
  ((List.range 64).find? fun i => v.testBit i || p.testBit i || e / 2 ^ (4 * i) % 16 != 0).getD 0

/-- Step 6 ends, and steps 7a and 7b begin: with BOOT_NOIMG high the first is skipped; each channel that kept nothing trains,
in BLANKET. -/
def checked (x : Checkers) : Op :=
  withD fun d =>
    let v := x.vaults.toNat
    let p := x.pools.toNat
    let e := x.engines.toNat
    ops [setF 0 F.DEV_CHKSTAT.done 1, setF 0 F.DEV_CHKSTAT.first (lowestFailed v p e), setB 0 F.DEV_CHKSTAT.crypto x.crypto,
      setB 0 F.DEV_CHKSTAT.thermos x.thermos, setB 0 F.DEV_CHKSTAT.tcm (e != 0), setB 0 F.DEV_CHKSTAT.scrub x.scrub,
      setB 0 F.DEV_CHKSTAT.pool (p != 0), setB 0 F.DEV_CHKSTAT.vault (v != 0),
      forAll ((List.finRange 64).filter fun i => v.testBit i.val) fun i =>
        both (fence (vltPg i)) (setF (vltPg i) F.VLT_STAT.filled 0),
      forAll ((List.finRange 64).filter fun i => p.testBit i.val) fun i => fence (rgnPg i),
      forAll ((List.finRange 256).filter fun i => e.testBit i.val) fun i => fence (engPg i),
      whenB x.scrub (ops [setF 1 F.STW_SCRUBSTAT.stopped 1, setF 1 F.STW_SCRUBSTAT.north 0, setF 1 F.STW_SCRUBSTAT.south 0,
        fence 1, raise 1 1]),
      setB 38 F.CRY_KAT.passed (!x.crypto), whenB x.crypto (both (fence 38) (modStw fun w => { w with memKeys := false })),
      setStep 7,
      forAll (List.finRange 2) fun c => whenD (fun d1 => d1.fld (extPg c) F.EXT_STAT.state == 0)
        (both (setF (extPg c) F.EXT_STAT.state 1) (setMode c mBlanket)),
      if d.bit 17 F.PWR_STRAPS.boot_noimg then
        both (setF 0 F.DEV_BOOTIMG.skipped 1) (modI fun n => { n with boot7 := (true, n.boot7.2) })
      else
        both (openImage 1 0 0) takeMore]

/-! ### Step 7b: external memory (R339, R319) -/

/-- A channel has ended its training, or resumed after P3. -/
def Device.chanReady (d : Device) (c : ChanId) : Bool :=
  d.fld (extPg c) F.EXT_STAT.state == 3 || d.fld (extPg c) F.EXT_STAT.state == 5

/-- Each trained channel enters the mode for the life-cycle state; one that returned from P3 keeps its mode. -/
def extStarted (keep ms : Nat) : Op :=
  withD fun d =>
    let wake := d.fld 17 F.PWR_RESETCAUSE.cause == 5
    let (_, _, items, _) := d.calSource
    ops [forAll (List.finRange 2) fun c =>
        ops [setItem (4 + c.val) (outcome (items.testBit (4 + c.val)) (keep.testBit c.val)),
          whenB (items.testBit (4 + c.val) && keep.testBit c.val) (setF 0 F.DEV_STAT.cal_restored 1),
          whenB (!wake && d.inn.stw.memKeys && (d.lcs == 1 || d.lcs == 2)) (changeMode c mFull)],
      setF 0 F.DEV_CALTIME.step7b ms, modI fun n => { n with boot7 := (n.boot7.1, true) }]

/-! ### Meanings -/

/-- POR_RELEASE (R410, R411, R377, R419). The POR delay has passed and OSC_F is ready: straps are sampled, device time starts
at 0, the boot ROM begins. -/
def execPorRelease (ioPull noImg pcieEn : Bool) (s : State) : Result :=
  goIn [.por] s <| withD fun d =>
    if !(d.bit 15 F.CLK_OSCF.ready) then skip
    else
      ops [setB 17 F.PWR_STRAPS.io_pull_sel ioPull, setB 17 F.PWR_STRAPS.boot_noimg noImg,
        setB 17 F.PWR_STRAPS.pcie_en pcieEn, modPow fun p => { p with time0 := 0, since := 0 },
        modI fun n => { n with phase := .up, devtime := 0, devfrac := 0, hold := 0 }]

/-- STARTUP_STEP_DONE (R411 to R417, R422). The step in progress ends as given, and the next begins, or start-up stops. -/
def execStartupStepDone (e : StepEnd) (s : State) : Result :=
  go s <| withD fun d =>
    match e with
    | .bootRom ok => if d.step = 1 then bootRom ok else skip
    | .pll locked =>
      if d.step ≠ 2 then skip
      else if !locked then startStop 3
      else if d.bit 13 F.CLK_PLL.lock then ops [setSource 0 false, setB 14 (fSrc 0) false, setStep 3] else skip
    | .trim => if d.step = 3 ∧ (d.bit 15 F.CLK_TRIMRES.valid ∨ d.bit 13 F.CLK_ERR.trim_held) then setStep 4 else skip
    | .calibrated keep sentinel io ms =>
      if d.step = 4 then calibrated keep.toNat sentinel.toNat io.toNat ms.toNat else skip
    | .filled => if d.step = 5 ∧ d.inn.vault.toList.all (fun v => !v.filling) then setStep 6 else skip
    | .checked x => if d.step = 6 then checked x else skip
    | .image ms =>
      if d.step = 7 ∧ ¬ d.inn.boot7.1 ∧ d.ldr.src ≠ some 1 then
        both (setF 0 F.DEV_BOOTIMG.ms ms.toNat) (modI fun n => { n with boot7 := (true, n.boot7.2) })
      else skip
    | .extMem keep ms =>
      if d.step = 7 ∧ ¬ d.inn.boot7.2 ∧ d.chanReady 0 ∧ d.chanReady 1 then extStarted keep.toNat ms.toNat else skip

/-- REFCLK_ARRIVAL (R412). REFCLK arrives during a stop for its absence: start-up resumes at step 2. -/
def execRefclkArrival (s : State) : Result :=
  go s <| withD fun d =>
    if d.inn.stw.refStop then
      ops [setF 0 F.DEV_STAT.fault 0, setStep 2, modStw fun w => { w with refStop := false },
        modI fun n => { n with bootStop := false }, startPll]
    else skip

/-- The arrays in use are written into the device record (R416). -/
def saveArrays : Op :=
  whenD (fun d => !(d.bit 0 F.DEV_CHKSTAT.thermos)) (withD fun d =>
    ops [setBytes (thermosBase + recordCal) (Word.bytesOfNat 4 calMark ++
        calArrays.flatMap fun a => (List.range a.2).flatMap fun i => Word.bytes (d.reg a.1 (256 + i))),
      setF 21 (F.PWR_SAVEDIR0.offset.at 4) (recordCal / 64), setF 21 (F.PWR_SAVEDIR0.length.at 4) ((calLen + 4 + 63) / 64)])

/-- READY (R421, R416, R431, R444). Steps 7a and 7b have ended and group 0 is on KROOT. -/
def execReady (s : State) : Result :=
  go s <| withD fun d =>
    if d.step ≠ 7 ∨ !d.inn.boot7.1 ∨ !d.inn.boot7.2 ∨ d.onOscf 0 then skip
    else
      let wake := d.fld 17 F.PWR_RESETCAUSE.cause == 5
      let ms := (d.now - d.pow.time0) / 1000000
      ops [setStep 8, setF 0 F.DEV_STAT.ready 1, setF 17 F.PWR_DEVSTAT.ready 1,
        setN 0 R.DEV_READYTIME (if wake then ms else ms + 2),
        whenB wake (setN 17 R.PWR_EXITTIME ((d.now - d.pow.since) / 1000000)), saveArrays,
        whenB d.inn.stw.trying (both (modStw fun w => { w with preferred := d.fld 0 F.DEV_BOOTSLOT.slot, trying := false })
          recordWritten),
        setF 1 F.STW_LCS.trial 0,
        whenB (d.lcs == 1 || d.lcs == 2) (setF 4 fClkEn 1)]

/-- RESET_N (R420, R386, R372). Everything outside the always-on domain is reset; it ends FATAL_CLOCK, a
sequence fault and scan (R486). -/
def execResetN (s : State) : Result :=
  goIn [.seq, .por, .up, .p3, .fault] s <| withD fun d =>
    let c := if d.inn.phase ≠ .fault ∨ d.inn.scan then 2 else if d.bit 17 F.PWR_SEQFAULT.valid then 4 else 3
    both (resetDevice c) (whenB (d.inn.phase == .p3) (modI fun n => { n with phase := .seq }))

end Sys2Proof.Machine
end

