-- ==== Sys2Proof/Machine/Steward.lean ====
section
/-!
DEFINITION. The steward (19_steward_and_attestation.md): life-cycle transitions, tokens and sessions, measurement slots,
attestation, rollback, the device watchdog, the scrub stores, the sealing service.
-/

namespace Sys2Proof.Machine

def Device.stw (d : Device) : StwS := d.inn.stw

/-- A list made exactly `n` bytes long, zero-padded. -/
def fitBytes (n : Nat) (bs : List Byte) : List Byte := (List.range n).map fun i => bs.getD i 0

/-- The causes of the steward pages, each on its source bit. -/
def stwEv2 (i : Nat) : Op := causeAt 2 R.STW_EV2 i 16 (if i < 2 then 0 else 1)
def stwEv3 (i : Nat) : Op := causeAt 3 R.STW_EV3 i 16 (if i < 2 then 0 else 1)
def stwEv4 (i : Nat) : Op := causeAt 4 R.STW_EV4 i 16 i

/-- The steward's fault record: 1 bus error, 2 poison, 3 flash uncorrectable (R47, R177). -/
def stwFault (st : Status) : Op :=
  both (incF 1 F.STW_FAULT.count) (setF 1 F.STW_FAULT.cause (if st = .poison then 2 else 1))

/-- A read by the steward; one that fails is recorded. -/
def stwRead (a n : Nat) (fs : List LineFound) (k : Option (List Byte) → Op) : Op :=
  if inWindow a then hostFetch 0x101 (a - hostBase) n fun x => if x.isSome then k x else both (stwFault .busErr) (k none)
  else memRead 5 0x101 a n fs fun st _ bs => if st = .ok then k (some bs) else both (stwFault st) (k none)

/-- A write by the steward. -/
def stwWrite (a : Nat) (bs : List Byte) (fs : List LineFound) (k : Bool → Op) : Op :=
  if inWindow a then hostPut (a - hostBase) bs fun st => if st = .ok then k true else both (stwFault st) (k false)
  else memWrite 5 0x101 a bs fs fun st _ => if st = .ok then k true else both (stwFault st) (k false)

/-! ### Life-cycle transitions (R425 to R427) -/

/-- A transition: fuses, record, and a reset as RESET_N does. On the way to OPEN the owner root hash is fused, on the way to
RETURNED the device secret is destroyed. -/
def transition (target : Nat) (owner : Option (List Byte)) : Op :=
  ops [modStw fun w => { w with fuseLcs := target, recLcs := target, owner := owner.getD w.owner
                                secretGone := w.secretGone || target == 3 },
    recordWritten, setF 1 F.STW_LCRESULT.result 1, stwEv3 2, resetDevice 2]

/-- A write of STW_LCREQ with go. -/
def lcRequest (target : Nat) (fs : List LineFound) : Op :=
  pageWrite 1 (both (setF 1 F.STW_LCREQ.target target) (withD fun d =>
    if d.lcs = 0 ∧ target = 3 then transition 3 none
    else if d.lcs = 0 ∧ target = 1 then
      stwRead (d.reg64 3 R.STW_PROVADDR_LO) 1312 fs fun key =>
        match key with
        | some bs => transition 1 (some (Config.sha3 bs))
        | none => setF 1 F.STW_LCRESULT.result 2
    else setF 1 F.STW_LCRESULT.result 9))

/-- LC_REQUEST (R426, R427). `fs` is what the reads of the owner root key find. -/
def execLcRequest (target : Fin 4) (fs : List LineFound) (s : State) : Result := go s (lcRequest target.val fs)

/-! ### Tokens and sessions (R439, R440, R469) -/

/-- A write of STW_TOKDATA: 1,024 words at most; not while a token is checked (notes/assumptions/50.md). -/
def tokenData (w : Word) : Op :=
  pageWrite 2 (modStw fun x => if x.checking || 1024 ≤ x.tok.length then x else { x with tok := x.tok ++ [w] })

/-- TOKEN_DATA (R439). -/
def execTokenData (w : Word) (s : State) : Result := go s (tokenData w)

/-- A write of STW_TOKCTL with submit. -/
def tokenSubmit : Op := pageWrite 2 (modStw fun w => { w with checking := true })

/-- TOKEN_SUBMIT (R439). -/
def execTokenSubmit (s : State) : Result := go s tokenSubmit

/-- The bytes of a token in the FIFO. -/
def tokenBytes (ws : List Word) : List Byte := ws.flatMap Word.bytes

/-- The layout of a token: magic, kind, argument, expiry, zeros. -/
def tokenFormat (b : List Byte) : Bool :=
  let kind := numAt b 4 1
  b.length == 3796 && numAt b 0 4 == 0x4E4B4F54 && (kind == 1 || kind == 2) && numAt b 0x38 8 == 0 &&
    (if kind == 1 then 1 ≤ numAt b 6 2 else numAt b 6 2 == 0)

/-- A transition that a token may authorise (R426). -/
def tokenTarget (lcs target : Nat) : Bool := (lcs == 1 && (target == 2 || target == 3)) || (lcs == 2 && target == 3)

/-- The result of a token's check: 1, or the first refusal that holds (notes/assumptions/50.md). -/
def Device.tokenResult (d : Device) (b : List Byte) : Nat :=
  let kind := numAt b 4 1
  let arg := numAt b 5 1
  let key := slice b 0x40 1312
  if !(tokenFormat b) then 2
  else if (kind = 1 ∧ d.lcs ≠ 2) ∨ (kind = 2 ∧ d.lcs ≠ 1 ∧ d.lcs ≠ 2) then 7
  else if Config.sha3 key ≠ d.stw.owner then 3
  else if !(Config.sigVerify key (slice b 0x560 2420) (slice b 0 0x560)) then 4
  else if slice b 8 16 ≠ uidBytes then 5
  else if slice b 0x18 32 ≠ d.stw.nonce then 6
  else if kind = 1 ∧ arg ≠ 1 ∧ arg ≠ 2 then 8
  else if kind = 2 ∧ ¬ tokenTarget d.lcs arg then 9
  else 1

/-- A second on the steward's timer, which counts units of 1/48 ns. -/
def stwSecond : Nat := 48000000000

/-- A session opens at a level for so many seconds, or replaces the one that is open. -/
def openSession (level seconds : Nat) : Op :=
  withD fun d =>
    both (levelFall d.dbgLevel level)
      (modI fun n => { n with session := some (level, n.mono + seconds * stwSecond) })

/-- TOKEN_CHECKED (R439, R440, R426). -/
def execTokenChecked (s : State) : Result :=
  go s <| withD fun d =>
    let b := tokenBytes d.stw.tok
    if !(d.stw.checking) then skip
    else
      ops [modStw fun w => { w with checking := false, tok := [] }, setF 2 F.STW_TOKSTAT.result (d.tokenResult b),
        if d.tokenResult b = 1 then
          ops [extendSlot 11 (Config.sha3 b), newNonce, stwEv2 2,
            if numAt b 4 1 = 1 then openSession (numAt b 5 1) (numAt b 6 2) else transition (numAt b 5 1) none]
        else stwEv2 3]

/-- A write of STW_TOKCTL with flush. -/
def tokenFlush : Op := pageWrite 2 (modStw fun w => if w.checking then w else { w with tok := [] })

/-- TOKEN_FLUSH (R439). -/
def execTokenFlush (s : State) : Result := go s tokenFlush

/-- The session that a token opened ends. -/
def endSession : Op :=
  withD fun d =>
    if d.inn.session.isSome then
      ops [levelFall d.dbgLevel (lcsLevel d.lcs), modI fun n => { n with session := none }, stwEv2 4]
    else skip

/-- A write of STW_TOKCTL with end. -/
def sessionEnd : Op := pageWrite 2 endSession

/-- SESSION_END (R440, R469). -/
def execSessionEnd (s : State) : Result := go s sessionEnd

/-- SESSION_EXPIRY (R440, R469). The seconds of the session have run out on the steward's timer. -/
def execSessionExpiry (s : State) : Result :=
  go s (whenD (fun d => d.inn.session.any fun x => decide (x.2 ≤ d.inn.mono)) endSession)

/-- A write of STW_DBGCTL with new_nonce. -/
def nonceWrite : Op := pageWrite 2 newNonce

/-- NEW_NONCE (R440). -/
def execNewNonce (s : State) : Result := go s nonceWrite

/-! ### Measurement (R433 to R435) -/

/-- A write of STW_MEASSEL: the snapshot of a slot. -/
def meassel (i : Fin 16) : Op :=
  pageWrite 2 (withD fun d =>
    let x := d.stw.slots[i.val]
    ops [setF 2 F.STW_MEASSEL.slot i.val,
      forAll (List.range 8) fun k => setN 2 (R.STW_MEAS0 + k) (numAt x (4 * k) 4),
      setB 2 F.STW_MEASSTAT.valid (d.stw.seqs[i.val] != 0), setF 2 F.STW_MEASSTAT.seq d.stw.seqs[i.val],
      setF 2 F.STW_MEASSTAT.slot i.val])

/-- MEASSEL_WRITE (R434). -/
def execMeasselWrite (i : Fin 16) (s : State) : Result := go s (meassel i)

/-- The 32 bytes at an address lie in the memory tier, external memory or the thermos. -/
def measurable (a n : Nat) : Bool :=
  let within (x : Nat) : Bool := inTier x || inExt x || (thermosBase ≤ x && x < thermosBase + 0x400000)
  within a && within (a + n - 1)

/-- A write of STW_EXTCTL with go. -/
def extendWrite (slot : Nat) (fs : List LineFound) : Op :=
  pageWrite 2 (both (setF 2 F.STW_EXTCTL.slot slot) (withD fun d =>
    let a := d.reg64 2 R.STW_EXTADDR_LO
    if slot < 12 ∨ !(measurable a 32) then setF 2 F.STW_EXTCTL.refused 1
    else
      stwRead a 32 fs fun x =>
        match x with
        | some bs => extendSlot slot bs
        | none => setF 2 F.STW_EXTCTL.refused 1))

/-- EXTEND (R435). -/
def execExtend (slot : Fin 16) (fs : List LineFound) (s : State) : Result := go s (extendWrite slot.val fs)

/-! ### Attestation (R436 to R438) -/

/-- The certificate chain as a report carries it, padded to 16 bytes; none in BLANK. -/
def Device.certChain (d : Device) : List Byte :=
  if d.lcs = 0 then [] else fitBytes ((d.stw.chain.length + 15) / 16 * 16) d.stw.chain

/-- The length of a report. -/
def Device.reportLen (d : Device) : Nat := if d.lcs = 0 then 672 else 672 + d.certChain.length + 2420

/-- Seconds left of a token's session. -/
def Device.secondsLeft (d : Device) : Nat :=
  match d.inn.session with
  | some (_, t) => (t - d.inn.mono + stwSecond - 1) / stwSecond
  | none => 0

/-- A report without its signature (table Attestation report); `req` is the requester's code, `dev` its device number. -/
def Device.report (d : Device) (nonce : List Byte) (req dev : Nat) : List Byte :=
  let nb := Word.bytesOfNat
  let hidden := (List.finRange 64).any fun r => (d.rg r).confidential && !((d.rg r).loadReset)
  let dbg := d.dbgLevel + (if d.inn.session.isSome then 4 else 0) + 8 * min d.secondsLeft 8191
  let pow := (List.range 64).foldr (fun r acc => d.rgnP r + 4 * acc) 0
  nb 4 0x5441574B ++ nb 2 1 ++ nb 1 d.lcs ++ nb 1 ((if d.lcs = 0 then 0 else 1) + if hidden then 2 else 0) ++
    nb 4 d.reportLen ++ nb 2 dbg ++ nb 2 (req * 16384 + dev) ++ nb 16 pow ++ fitBytes 32 nonce ++ uidBytes ++
    Word.bytes (d.reg 0 R.DEV_ID) ++ nb 4 (d.fld 1 F.STW_STAT.sec_version) ++ nb 8 d.now ++ nb 4 d.stw.reports ++ nb 28 0 ++
    d.stw.slots.toList.flatMap (fitBytes 32) ++ d.stw.seqs.toList.flatMap (nb 1) ++ nb 2 d.certChain.length ++ nb 14 0 ++
    d.certChain

/-- A request is captured. -/
def attCapture (addr who : Nat) (nonce : List Byte) (req dev : Nat) : Op :=
  withD fun d => modStw fun w => { w with att := some { addr := addr, who := who, report := d.report nonce req dev } }

/-- The buffer of a register request: in the memory tier outside every hamper range, or in external memory. -/
def Device.attBuffer (d : Device) (a n : Nat) : Bool :=
  (inTier a && inTier (a + n - 1) && !((linesOf a n).any fun p => d.inHamper p.1)) || (inExt a && inExt (a + n - 1))

/-- A register request is refused. -/
def attRefuse (c : Nat) : Op := both (setF 2 F.STW_ATTSTAT.cause c) (stwEv2 1)

/-- The device number that a report names for a register request of `who`: a remote device's own (R437). -/
def StwS.askedBy (w : StwS) : Who → Nat
  | .remote _ => w.asker
  | _ => 0

/-- A write of STW_ATTCTL with go: from a remote device, or a debugger at D1 or higher; from another it asks for nothing. -/
def attestWrite (who : Who) (dev : Nat) (fs : List LineFound) : Op :=
  pageWrite 2 (withD fun d =>
    let a := d.reg64 2 R.STW_ATTADDR_LO
    let run (req : Nat) : Op :=
      if d.stw.att.isSome then attRefuse 1
      else if d.lcs = 3 then attRefuse 2
      else if !(d.attBuffer a d.reportLen) then attRefuse 3
      else
        stwRead a 32 fs fun x =>
          match x with
          | none => attRefuse 3
          | some nonce =>
            ops [setF 2 F.STW_ATTSTAT.valid 0, setF 2 F.STW_ATTSTAT.cause 0, attCapture a who.id nonce req dev,
              whenB (who == .debugger) (modStw fun w => { w with dbgBuf := some (a, d.reportLen) })]
    match who with
    | .remote _ => run 1
    | .debugger => if 1 ≤ d.dbgLevel then run 2 else skip
    | _ => skip)

/-- ATTEST_REQUEST (R436, R437). `dev` is the device number of a remote requester, 0 for a debugger. -/
def execAttestRequest (who : Who) (dev : BitVec 14) (fs : List LineFound) (s : State) : Result :=
  go s (byWrite who 2 (attestWrite who dev.toNat fs))

/-- ATTEST (R436, R437, R438). While the steward is busy the command waits. -/
def execAttest (q : QueueId) (cid : BitVec 16) (s : State) : Result :=
  onCmd q cid 0x40 (fun c => withD fun d =>
    if d.lcs = 3 then endCmd c 7 2
    else if c.length < d.reportLen then endCmd c 2 d.reportLen
    else if d.stw.att.isSome then skip
    else both (attCapture c.haddr 0x100 (Word.bytesOfNat 32 c.p1) 0 0) (waitCmd c .attest)) s

/-- What a report's end does to counts: the reports written, those signed. -/
def countReport (n : Nat) (signed : Bool) : Op :=
  ops [incF 2 F.STW_ATTSTAT.seq, setF 2 F.STW_ATTSTAT.length n, modStw fun w => { w with reports := w.reports + if signed then 1 else 0 }]

/-- ATTEST_DONE (R438). The report is signed and written at its target. -/
def execAttestDone (fs : List LineFound) (s : State) : Result :=
  go s <| withD fun d =>
    match d.stw.att with
    | none => skip
    | some x =>
      let signed := decide (numAt x.report 6 1 ≠ 0)
      let bs := x.report ++ if signed then fitBytes 2420 (Config.sigSign x.report) else []
      let free : Op := modStw fun w => { w with att := none }
      if x.who = 0x100 then
        match d.inn.cmds.find? fun c => c.wait == some .attest && c.ended == none with
        | some c => ops [free, countReport bs.length signed, cmdOut c x.addr bs (endCmd c 0 bs.length)]
        | none => free
      else
        stwWrite x.addr bs fs fun ok =>
          both free (if ok then ops [countReport bs.length signed, setF 2 F.STW_ATTSTAT.valid 1, stwEv2 0] else attRefuse 4)

/-! ### Rollback (R432) -/

/-- A write of STW_ROLLCTL with go: a minimum rises, or nothing happens. -/
def rollback (slot : Nat) : Op :=
  pageWrite 1 (both (setF 1 F.STW_ROLLCTL.slot slot) (withD fun d =>
    let w := d.stw
    let cur := d.fld 1 F.STW_STAT.sec_version
    if slot = 0 ∧ w.rollStw < cur then
      ops [modStw fun w => { w with rollStw := cur }, setN 1 R.STW_ROLLSTW cur, recordWritten, stwEv3 3]
    else if 2 ≤ slot ∧ slot < 10 then
      let i : Fin 8 := Fin.ofNat 8 (slot - 2)
      match w.lastVer[i.val] with
      | some v =>
        if w.rollMin[i.val] < v then
          ops [modStw fun w => { w with rollMin := w.rollMin.set i.val v }, setN 1 (R.STW_ROLLMIN2 + i.val) v, recordWritten, stwEv3 3]
        else skip
      | none => skip
    else skip))

/-- ROLLBACK_COMMIT (R432). -/
def execRollbackCommit (slot : Fin 16) (s : State) : Result := go s (rollback slot.val)

/-! ### The device watchdog (R445) -/

/-- The count pauses: outside SEALED, with dbg_pause, while a session at D1 or higher holds an engine in MONITOR. -/
def Device.stwWdtPaused (d : Device) : Bool :=
  d.lcs != 2 && d.bit 1 F.STW_WDT.dbg_pause && 1 ≤ d.dbgLevel && (List.finRange 256).any fun e => d.engState e == esMonitor

/-- One cycle of the device watchdog: it counts milliseconds down, unless it is paused; where a pause has ended it has 100 at
least. PRE_BITE and WATCHDOG_BITE are commands. -/
def tickStwWdt : Op :=
  withD fun d =>
    if !(d.bit 1 F.STW_WDT.en) then skip
    else if d.stwWdtPaused then modStw fun w => { w with wdtPaused := true }
    else
      let cnt := (d.reg 1 R.STW_WDTCNT).toNat
      let t := d.stw.wdtPart + d.sysCycle48
      let left := (if d.stw.wdtPaused then max cnt 100 else cnt) - t / (stwSecond / 1000)
      ops [setN 1 R.STW_WDTCNT left,
        modStw fun w => { w with wdtPaused := false, wdtPart := t % (stwSecond / 1000)
                                 preBitten := w.preBitten && left ≤ d.fld 1 F.STW_WDT.period / 8 }]

/-- A write of STW_WDTKICK. -/
def stwKick (key : Nat) : Op :=
  pageWrite 1 (withD fun d => whenB (key == 0x9C3E) (both (setN 1 R.STW_WDTCNT (d.fld 1 F.STW_WDT.period)) (modStw fun w => { w with preBitten := false })))

/-- STW_WDT_KICK (R445). -/
def execStwWdtKick (key : BitVec 16) (s : State) : Result := go s (stwKick key.toNat)

/-- A write of STW_WDT: en is set under an open unlock and stays; a period of 0 leaves the field. The count starts at the
period (notes/assumptions/51.md). -/
def stwWdtWrite (who : Who) (en pause : Bool) (period : Nat) : Op :=
  pageWrite 1 (ops [setB 1 F.STW_WDT.dbg_pause pause, whenB (period != 0) (setF 1 F.STW_WDT.period period),
    withD fun d => whenB (en && d.unlockedFor 1 who && !(d.bit 1 F.STW_WDT.en))
      (ops [setF 1 F.STW_WDT.en 1, setN 1 R.STW_WDTCNT (d.fld 1 F.STW_WDT.period), modStw fun w => { w with preBitten := false }])])

/-- PRE_BITE (R445). The count has reached period / 8, once for each load of it. -/
def execPreBite (s : State) : Result :=
  go s <| withD fun d =>
    if d.bit 1 F.STW_WDT.en ∧ ¬ d.stwWdtPaused ∧ ¬ d.stw.preBitten ∧ (d.reg 1 R.STW_WDTCNT).toNat ≤ d.fld 1 F.STW_WDT.period / 8 then
      ops [modStw fun w => { w with preBitten := true }, incF 1 F.STW_WDTCAUSE.prebites, raise 1 0]
    else skip

/-- WATCHDOG_BITE (R445, R420). The count reaches zero. -/
def execWatchdogBite (s : State) : Result :=
  go s <| withD fun d =>
    if d.bit 1 F.STW_WDT.en ∧ ¬ d.stwWdtPaused ∧ d.reg 1 R.STW_WDTCNT = 0 then both (resetDevice 2) (setF 1 F.STW_WDTCAUSE.bitten 1) else skip

/-! ### Scrub stores (R446) -/

/-- An event of the scrub stores is recorded. -/
def scrubLog (code : Nat) : Op :=
  withD fun d => ops [setF 1 F.STW_SCRUBLOG.last code, incF 1 F.STW_SCRUBLOG.events, setN64 1 R.STW_SCRUBTIME_LO d.now]

/-- SCRUB_STORE_CHECK (R446). In a pass the two engines check each other's store; the golden copy is read to restore one. -/
def execScrubStoreCheck (northOk southOk : Bool) (s : State) : Result :=
  go s <| withD fun d =>
    if d.bit 1 F.STW_SCRUBSTAT.stopped ∨ d.bit 1 F.STW_SCRUBSTAT.dead then skip
    else
      both (incF 1 F.STW_SCRUBSTAT.passes)
        (if northOk then (if southOk then skip else both (scrubLog 2) (setF 1 F.STW_SCRUBGOLD.valid 1))
          else if southOk then both (scrubLog 1) (setF 1 F.STW_SCRUBGOLD.valid 1)
          else ops [setF 1 F.STW_SCRUBSTAT.stopped 1, setF 1 F.STW_SCRUBSTAT.north 0, setF 1 F.STW_SCRUBSTAT.south 0, raise 1 1])

/-- SCRUB_RELOAD_DONE (R446). Both stores are reloaded from the golden copy, or scrubbing stays stopped. -/
def execScrubReloadDone (golden : Bool) (s : State) : Result :=
  go s <| withD fun d =>
    if !(d.bit 1 F.STW_SCRUBSTAT.stopped) ∨ d.bit 1 F.STW_SCRUBSTAT.dead then skip
    else
      both (setB 1 F.STW_SCRUBGOLD.valid golden)
        (if golden then ops [setF 1 F.STW_SCRUBSTAT.stopped 0, setF 1 F.STW_SCRUBSTAT.north 1, setF 1 F.STW_SCRUBSTAT.south 1, scrubLog 3]
          else setF 1 F.STW_SCRUBSTAT.dead 1)

/-! ### The sealing service (R431, R444) -/

def Device.svcSrc (d : Device) : Nat := d.reg64 4 R.STW_SVCSRC_LO
def Device.svcDst (d : Device) : Nat := d.reg64 4 R.STW_SVCDST_LO
def Device.svcLen (d : Device) : Nat := (d.reg 4 R.STW_SVCLEN).toNat

/-- SHA3-256 of the slots that a mask selects. -/
def Device.maskHash (d : Device) (mask : Nat) : List Byte :=
  Config.sha3 ((List.finRange 16).flatMap fun i => if mask.testBit i.val then d.stw.slots[i.val] else [])

/-- A secret may not be released into external memory while a channel is not in FULL (R322). -/
def Device.secretRefused (d : Device) : Bool :=
  inExt d.svcDst && (d.extMode 0 != mFull || d.extMode 1 != mFull)

/-- A write of STW_SVCCTL with go and an operation: refused with status 1 while another is in progress; `run` does the
operation and ends with its status and the bytes written. -/
def service (who : Who) (op : Nat) (run : (Nat → Nat → Op) → Op) : Op :=
  pageWrite 4 (withD fun d =>
    let start (st out : Nat) : Op :=
      ops [setF 4 F.STW_SVCCTL.op op, setF 4 F.STW_SVCSTAT.busy 1, setF 4 F.STW_SVCSTAT.done 0, setF 4 F.STW_SVCSTAT.init who.id,
        modStw fun w => { w with svc := some { who := who.id, op := op, status := st, out := out } }]
    if d.stw.svc.isSome then
      ops [setF 4 F.STW_SVCCTL.op op, incReg 4 R.STW_SVCBUSYCNT, incReg 4 R.STW_SVCERRCNT, setF 4 F.STW_SVCLAST.status 1, setF 4 F.STW_SVCLAST.op op, stwEv4 1]
    else if d.lcs = 0 ∨ d.lcs = 3 then start 5 0
    else run start)

/-- Operation 1: a blob with the slot mask and the hash of the masked slots, sealed under the seal root. -/
def sealOp (src dst : List LineFound) (fin : Nat → Nat → Op) : Op :=
  withD fun d =>
    let n := d.svcLen
    let mask := d.fld 4 F.STW_SVCMASK.mask
    if n = 0 ∨ 4096 < n then fin 6 0
    else
      stwRead d.svcSrc n src fun x =>
        match x with
        | none => fin 6 0
        | some bs =>
          stwWrite d.svcDst (fitBytes (n + 112) (Config.sealBytes d.stw.owner (Word.bytesOfNat 2 mask ++ d.maskHash mask ++ bs))) dst
            fun ok => if ok then fin 0 (n + 112) else fin 6 0

/-- SEAL (R444). -/
def execSeal (who : Who) (src dst : List LineFound) (s : State) : Result := go s (byWrite who 4 (service who 1 (sealOp src dst)))

/-- Operation 2: the contents of a blob, where its tag holds and the masked slots are those at sealing. -/
def unsealOp (src dst : List LineFound) (fin : Nat → Nat → Op) : Op :=
  withD fun d =>
    let n := d.svcLen
    if d.secretRefused then both (incReg 38 R.CRY_SECREF) (fin 2 0)
    else if n ≤ 112 ∨ 4208 < n then fin 6 0
    else
      stwRead d.svcSrc n src fun x =>
        match x with
        | none => fin 6 0
        | some bs =>
          match Config.unsealBytes d.stw.owner bs with
          | none => fin 3 0
          | some p =>
            if slice p 2 32 ≠ d.maskHash (numAt p 0 2) then fin 4 0
            else stwWrite d.svcDst (fitBytes (n - 112) (p.drop 34)) dst fun ok => if ok then fin 0 (n - 112) else fin 6 0

/-- UNSEAL (R444, R322). -/
def execUnseal (who : Who) (src dst : List LineFound) (s : State) : Result := go s (byWrite who 4 (service who 2 (unsealOp src dst)))

/-- Operation 3: a value derived from the seal root and the label. -/
def deriveOp (dst : List LineFound) (fin : Nat → Nat → Op) : Op :=
  withD fun d =>
    let label := (List.range 8).flatMap fun i => Word.bytes (d.reg 4 (R.STW_SVCLABEL0 + i))
    if d.secretRefused then both (incReg 38 R.CRY_SECREF) (fin 2 0)
    else
      stwWrite d.svcDst (fitBytes 32 (Config.deriveBytes (d.stw.owner ++ label))) dst fun ok => if ok then fin 0 32 else fin 6 0

/-- DERIVE (R444, R322). -/
def execDerive (who : Who) (dst : List LineFound) (s : State) : Result := go s (byWrite who 4 (service who 3 (deriveOp dst)))

/-- The cells of bytes as the boot ROM finds them in an erased slot. -/
def cellsOf (bs : List Byte) : List (Nat × Byte) := (List.range bs.length).filterMap fun i =>
  if bs.getD i 0 = 0xFF then none else some (i, bs.getD i 0)

/-- Operation 4: a steward image, verified, is written to the slot that does not run, which is then on trial. -/
def slotUpdate (src : List LineFound) (fin : Nat → Nat → Op) : Op :=
  withD fun d =>
    let n := d.svcLen
    let slot := 1 - d.fld 0 F.DEV_BOOTSLOT.slot
    if n = 0 ∨ 0x200000 < n then fin 6 0
    else
      stwRead d.svcSrc n src fun x =>
        match x with
        | none => fin 6 0
        | some bs =>
          match Config.stewardSlot (cellsOf bs) with
          | none => fin 7 0
          | some (v, _) =>
            if v < d.stw.rollStw then fin 7 0
            else
              ops [setBytes (stewardBase slot) (bs ++ List.replicate (0x200000 - n) 0xFF),
                modStw fun w => { w with trial := some slot }, setF 1 F.STW_LCS.trial 1, recordWritten, fin 0 n]

/-- STEWARD_SLOT_UPDATE (R431, R444). -/
def execStewardSlotUpdate (who : Who) (src : List LineFound) (s : State) : Result :=
  go s (byWrite who 4 (service who 4 (slotUpdate src)))

/-- An operation that is not assigned. -/
def serviceOther (who : Who) (op : Nat) : Op := service who op fun fin => fin 8 0

/-- SERVICE_DONE (R444). The operation ends with its status; it took `us` microseconds. -/
def execServiceDone (us : Word) (s : State) : Result :=
  go s <| withD fun d =>
    match d.stw.svc with
    | none => skip
    | some x =>
      ops [modStw fun w => { w with svc := none }, setF 4 F.STW_SVCSTAT.busy 0, setF 4 F.STW_SVCSTAT.done 1,
        setF 4 F.STW_SVCSTAT.status x.status, incReg 4 R.STW_SVCCNT, incReg 4 R.STW_SVCSEQ, setN 4 R.STW_SVCOUT x.out,
        setReg 4 R.STW_SVCTIME us,
        if x.status = 0 then stwEv4 0
        else ops [incReg 4 R.STW_SVCERRCNT, setF 4 F.STW_SVCLAST.status x.status, setF 4 F.STW_SVCLAST.op x.op, stwEv4 1]]

end Sys2Proof.Machine
end

