-- ==== Sys2Proof/Machine/SelfTest.lean ====
section
/-!
DEFINITION. Self-test and calibration (21_self_test_and_calibration.md): starting a test and its refusals, what each test
does to its target, its end and its result slot, the expected signatures, scan, and the calibration arrays.
-/

namespace Sys2Proof.Machine

/-! ### Result slots (R473, R491) -/

/-- The slots in which a test runs. -/
def Device.testRuns (d : Device) : List TestRun := d.inn.tests.toList.filterMap (·.run)

/-- The lowest slot in which no test runs. -/
def Device.freeTest (d : Device) : Option (Fin 4) := (List.finRange 4).find? fun i => (d.inn.tests[i.val]).run.isNone

def modT (i : Fin 4) (f : TestSlot → TestSlot) : Op := modI fun n => { n with tests := n.tests.set i.val (f n.tests[i.val]) }

/-- The word of ST_RESULT. -/
def resultWord (running : Bool) (outcome c code page : Nat) : Word :=
  BitVec.ofNat 32 ((if running then 0x40000000 else 0x80000000) + outcome * 2 ^ 28 + c * 2 ^ 24 + code % 256 * 2 ^ 16 + page % 1024)

/-- A cause of ST_EV: done raises bit 0 of page 0x006, fail bit 1. -/
def stEv (i : Nat) : Op := causeAt 6 R.ST_EV i 16 i

/-! ### Refusals (R473, R475, R478, R480, R487, R490) -/

/-- The kind of page that a test code asks for; none for a code that is not assigned. -/
def testTarget (code page : Nat) : Bool :=
  match code with
  | 1 | 2 | 7 => kindOf page == some .vlt
  | 3 => kindOf page == some .rgn
  | 4 => kindOf page == some .eng
  | 5 => page == 12
  | 6 => kindOf page == some .ext
  | 8 => kindOf page == some .ln
  | 0x20 => kindOf page == some .io
  | 0x21 => kindOf page == some .sen
  | _ => false

/-- A valid hamper entry of a region begins in the save area, the lowest 8 MiB of the hamper (R480). -/
def Device.saveAreaUsed (d : Device) (r : RegionId) : Bool :=
  let dep := d.depth r
  let top := vaultBase r.val + hamperLow (d.fld (rgnPg r) F.RGN_HAMPER.size) + 0x800000
  (List.range (hamperEntries (d.fld (rgnPg r) F.RGN_HAMPER.size) dep)).any fun e =>
    hamperEntry r.val dep e < top && d.entryOk r e

/-- The target is not in a state in which the test is accepted: cause 2, or 3 for the save area. -/
def Device.targetRefusal (d : Device) (code page : Nat) : Nat :=
  match code with
  | 7 => if d.rgnP (page - 384) = 2 then 0 else 2
  | 3 =>
    let r : RegionId := Fin.ofNat 64 (page - 256)
    if d.rgnP r.val ≠ 0 ∨ (d.rg r).loadReset ∨ !(d.bit page F.RGN_INFO.loaded) ∨ d.fld page F.RGN_HAMPER.size < 2 then 2
    else if d.saveAreaUsed r then 3
    else 0
  | 4 => if d.engState (Fin.ofNat 256 (page - 512)) = esParked then 0 else 2
  | 6 => if d.fld page F.EXT_STAT.state = 3 then 0 else 2
  | 8 => if d.ownerUp (Fin.ofNat 48 (page - 96)) then 2 else 0
  | 0x20 =>
    let r := bankOwner (Fin.ofNat 10 (page - 64))
    if (d.rg r).loadReset ∨ d.rgnP r.val = 2 then 0 else 2
  | 0x21 => if d.bit 23 F.SEN_CTL.en then 2 else 0
  | _ => 0

/-- The cause that refuses a test, 0 where none does (table ST_RESULT). -/
def Device.testRefusal (d : Device) (code page : Nat) : Nat :=
  if !(testTarget code page) then 6
  else if d.freeTest.isNone ∨ d.testRuns.any (fun x => x.page == page) then 1
  else if !(d.domOn (pageDomain page)) then 8
  else if (code = 6 ∨ code = 7) ∧ !(d.bit 6 F.ST_DESTROY.en) then 4
  else if (code = 6 ∨ code = 7) ∧ d.lcs = 2 then 5
  else d.targetRefusal code page

/-! ### What a test does to its target (R183, R474 to R482) -/

/-- A slice goes to the test buffer or comes back; a chunk that is uncorrectable stays so (R178, R183). -/
def moveSlice (src dst : Nat) : Op := forAll (List.range 64) fun i => copyLine (src + 64 * i) (dst + 64 * i)

/-- A slice of a vault is under test, from now on or no longer. -/
def sliceOn (v : VaultId) (bank row : Nat) : Op :=
  ops [moveSlice (vaultBase v.val + row * 32768 + bank * 4096) (testBufBase v.val), setF (vltPg v) F.VLT_STAT.test_bank bank,
    setF (vltPg v) F.VLT_STAT.test_row row, setF (vltPg v) F.VLT_STAT.test_active 1]
def sliceOff (v : VaultId) : Op :=
  withD fun d =>
    let bank := d.fld (vltPg v) F.VLT_STAT.test_bank
    let row := d.fld (vltPg v) F.VLT_STAT.test_row
    if d.bit (vltPg v) F.VLT_STAT.test_active then
      both (moveSlice (testBufBase v.val) (vaultBase v.val + row * 32768 + bank * 4096)) (setF (vltPg v) F.VLT_STAT.test_active 0)
    else skip

/-- A test begins. A region test waits for its quiet edge. -/
def beginTest (code page arg : Nat) : Op :=
  let v : VaultId := Fin.ofNat 64 (page - 384)
  match code with
  | 1 => sliceOn v (arg / 2 ^ 11 % 8) (arg % 2 ^ 11)
  | 2 => sliceOn v 0 0
  | 4 => setF page F.ENG_STAT.state esTest
  | 6 => ops [setF page F.EXT_TEST.test 1, changeMode (Fin.ofNat 2 (page - 36)) mBlanket, setF page F.EXT_STAT.state 6]
  | 7 => both (modV v fun s => { s with filling := true }) (setF (vltPg v) F.VLT_STAT.filled 0)
  | 8 => laneTestGo (Fin.ofNat 48 (page - 96)) 1 3 3
  | _ => skip

/-- A test is started in a slot. -/
def startTest (i : Fin 4) (code page arg : Nat) (retain : Bool) : Op :=
  withD fun d =>
    let hold := retain && (code == 1 || code == 7)
    ops [modT i fun _ => { run := some { code := code, page := page, arg := arg, retain := hold, waiting := code == 3
                                         pauses := if hold then 2 else 0, since := d.now
                                         mode := if code = 6 then d.extMode (Fin.ofNat 2 (page - 36)) else 0 }
                           result := resultWord true 0 0 code page },
      incReg 6 R.ST_RUNCNT, setF 6 F.ST_LASTTGT.page page, beginTest code page arg]

/-- A test is refused: the result stands in the lowest free slot, where there is one. -/
def refuseTest (c code page : Nat) : Op :=
  withD fun d =>
    ops [match d.freeTest with
      | some i => modT i fun _ => { result := resultWord false 2 c code page }
      | none => skip,
      incReg 6 R.ST_REFCNT, stEv 1]

/-- A write of ST_CTL with go, or the start by SELFTEST. -/
def stStart (code page arg : Nat) (retain : Bool) : Op :=
  withD fun d =>
    match d.testRefusal code page, d.freeTest with
    | 0, some i => startTest i code page arg retain
    | c, _ => refuseTest c code page

/-- A write of ST_CTL with go; argument and retention stand in ST_ARG. -/
def stCtl (code page : Nat) : Op :=
  pageWrite 6 (ops [setF 6 F.ST_CTL.test code, setF 6 F.ST_CTL.target page,
    withD fun d => stStart code page (d.fld 6 F.ST_ARG.arg) (d.bit 6 F.ST_ARG.retention)])

/-- SELFTEST (R473, R270, R487). While four tests run, the command waits in the host port. -/
def execSelftest (q : QueueId) (cid : BitVec 16) (s : State) : Result :=
  onCmd q cid 0x50 (fun c => withD fun d =>
    let code := c.p0 % 256
    let page := c.target
    if d.freeTest.isNone then skip
    else if testTarget code page ∧ !(d.domOn (pageDomain page)) then endCmd c 10 0
    else if d.testRuns.any (fun x => x.page == page) then endCmd c 6 0
    else
      let x := d.testRefusal code page
      both (stStart code page (c.p0 / 2 ^ 16) (c.p0 / 2 ^ 15 % 2 == 1))
        (if x = 0 then waitCmd c (.test ((d.freeTest.getD 0).val)) else endCmd c 7 (resultWord false 2 x code page).toNat)) s

/-! ### The tests by their registers -/

/-- VAULT_SLICE_TEST (R477, R183). ST_CTL with test 0x01: a slice goes under test. -/
def execVaultSliceTest (v : VaultId) (s : State) : Result := go s (stCtl 1 (vltPg v))

/-- The next slice of a sweep, in order of line index: row by row, each through its banks; the spare rows come last and
leave the array alone. -/
def nextSlice (v : VaultId) : Op :=
  withD fun d =>
    let n := 8 * d.fld (vltPg v) F.VLT_STAT.test_row + d.fld (vltPg v) F.VLT_STAT.test_bank + 1
    if !(d.bit (vltPg v) F.VLT_STAT.test_active) then skip
    else both (sliceOff v) (whenB (n < 16384) (sliceOn v (n % 8) (n / 8)))

/-- VAULT_SWEEP (R477). ST_CTL with test 0x02; with `next`, the sweep that runs goes on to its next slice. -/
def execVaultSweep (v : VaultId) (next : Bool) (s : State) : Result :=
  go s <|
    if next then whenD (fun d => d.testRuns.any fun x => x.code == 2 && x.page == vltPg v) (nextSlice v)
    else stCtl 2 (vltPg v)

/-- REGION_TEST (R480, R481). ST_CTL with test 0x03: accepted, the test waits for its quiet edge. -/
def execRegionTest (r : RegionId) (s : State) : Result := go s (stCtl 3 (rgnPg r))

/-- Bytes whose places the spec does not give are free values. -/
def freeRange (a n : Nat) : Op := withFree fun f => writeFresh a ((List.range n).map (Config.freeByte f))

/-- The save area is written: pool, block RAM, arithmetic registers, live flip-flops, FIFO pointers (R481). The spec gives the
order and sizes; of the layout inside a part it gives that of block RAM alone (R57). -/
def saveRegion (r : RegionId) : Op :=
  withD fun d =>
    let a := vaultBase r.val + hamperLow (d.fld (rgnPg r) F.RGN_HAMPER.size)
    ops [freeRange a 5308416, writeFresh (a + 5308416) (d.bytes (bramBase r.val) bramSpan), freeRange (a + 6193152) 21760,
      setF 6 F.ST_SAVESTAT.clean 0, setF 6 F.ST_SAVESTAT.saved (6214912 / 64)]

/-- QUIET_EDGE (R481). A region accepted for test is quiet: its enable falls and its state is saved. -/
def execQuietEdge (r : RegionId) (s : State) : Result :=
  go s <| withD fun d =>
    match (List.finRange 4).find? fun i =>
        match (d.inn.tests[i.val]).run with
        | some x => x.waiting && x.page == rgnPg r
        | none => false with
    | none => skip
    | some i =>
      if !(d.quietRegion r) then skip
      else
        ops [modT i fun t => { t with run := t.run.map fun x => { x with waiting := false, since := d.now } },
          modR r fun g => { g with test := true }, saveRegion r]

/-- ENGINE_TEST (R478). -/
def execEngineTest (e : EngineId) (s : State) : Result := go s (stCtl 4 (engPg e))

/-- THERMOS_TEST (R479). -/
def execThermosTest (s : State) : Result := go s (stCtl 5 12)

/-- EXT_MEMORY_TEST (R475, R320, R487). -/
def execExtMemoryTest (c : ChanId) (s : State) : Result := go s (stCtl 6 (extPg c))

/-- WHOLE_VAULT_TEST (R475). -/
def execWholeVaultTest (v : VaultId) (s : State) : Result := go s (stCtl 7 (vltPg v))

/-- LANE_TEST (R487, R312). -/
def execLaneTest (l : LaneId) (s : State) : Result := go s (stCtl 8 (lnPg l))

/-- IO_RECALIBRATION (R490). -/
def execIoRecalibration (b : BankId) (s : State) : Result := go s (stCtl 0x20 (ioPg b))

/-- SENTINEL_RECALIBRATION (R490). -/
def execSentinelRecalibration (s : State) : Result := go s (stCtl 0x21 23)

/-- RETENTION_PAUSE_END (R474). -/
def execRetentionPauseEnd (i : Fin 4) (s : State) : Result :=
  go s (modT i fun t => { t with run := t.run.map fun x => { x with pauses := x.pauses - 1 } })

/-! ### The end of a test (R475, R476, R483 to R485) -/

/-- The depth of place `i` in a list of signatures. -/
def sigDepth (i : Nat) : Nat := 2 ^ (i + 1)

/-- The expected value of a signature. -/
def Device.expectedSig (d : Device) (r depth sig : Nat) : Option Nat :=
  (d.inn.expected.find? fun x => x.1 == r && x.2.1 == depth).map fun x =>
    if sig = 0 then x.2.2.2.1 else if sig = 1 then x.2.2.2.2.1 else x.2.2.2.2.2

/-- The signatures of a region, compared with what is stored. -/
def Device.measured (d : Device) (r : Nat) (x : TestEnd) : List (SigS × Bool) :=
  (List.finRange 3).flatMap fun i => (List.finRange 3).map fun k =>
    let v := ((x.sigs[i.val])[k.val]).toNat
    let e := d.expectedSig r (sigDepth i.val) k.val
    ({ region := r, depth := sigDepth i.val, sig := k.val, value := v, matched := e == some v }, e.isSome && e != some v)

/-- A region comes back: slots with bits in an uncorrectable chunk are UNUSABLE; where that is the active one, or the chunk
held flip-flops or FIFO pointers, the region is held (R483). What waited goes on (R482). -/
def restoreRegion (r : RegionId) (x : TestEnd) : Op :=
  withD fun d =>
    let act := d.active r
    let hit (sl : SlotId) : Bool := x.badSlots.contains sl && decide (d.slot r sl = slResident)
    let hold := x.badCore || x.badSlots.contains act
    ops [forAll ((List.finRange 8).filter hit) fun sl => setSlot r sl slUnusable,
      whenB hold (ops [pauseRegion r, faultCause r 2, whenB (x.badSlots.contains act) (modR r fun g => { g with activeBad := true })]),
      setB 6 F.ST_SAVESTAT.clean (x.badSlots.isEmpty && !x.badCore), modR r fun g => { g with test := false },
      whenB (d.rg r).stopDue (both (modR r fun g => { g with stopDue := false }) (stopRegion r))]

/-- What the end of a test does to its target; `done` is false for one that is abandoned. -/
def endTest (t : TestRun) (x : TestEnd) (done : Bool) : Op :=
  let v : VaultId := Fin.ofNat 64 (t.page - 384)
  match t.code with
  | 1 | 2 => sliceOff v
  | 3 => whenB (!t.waiting) (restoreRegion (Fin.ofNat 64 (t.page - 256)) x)
  | 4 =>
    let e : EngineId := Fin.ofNat 256 (t.page - 512)
    ops [setF t.page F.ENG_STAT.state esParked,
      forAll x.words fun w =>
        ops [modE e fun n => { n with tcmBad := (if w.1 then 1 else 0, w.2.val) :: n.tcmBad.erase (if w.1 then 1 else 0, w.2.val) },
          setF t.page F.ENG_MEMERR.uncorr 1, setB t.page F.ENG_MEMERR.mem w.1, setF t.page F.ENG_MEMERR.word w.2.val, engCause e 2]]
  | 6 =>
    let c : ChanId := Fin.ofNat 2 (t.page - 36)
    both (setF t.page F.EXT_TEST.test 0)
      (whenD (fun d => d.fld t.page F.EXT_STAT.state == 6) <| both (setF t.page F.EXT_STAT.state 3) <| withD fun d => if t.mode = d.extMode c then whenB (t.mode == mBlanket) (enterBlanket c) else changeMode c t.mode)
  | 7 =>
    whenB done (ops [vaultLost v, setF (vltPg v) F.VLT_STAT.filled 1, vltCause v 8])
  | 8 => both (laneTestGo (Fin.ofNat 48 (t.page - 96)) 0 0 0) (setReg t.page R.LN_PRBSERR x.errors)
  | 0x20 =>
    withFree fun f => ops [putArray t.page ((List.range 48).map (Config.freeWord f)), setF t.page F.IO_CALSTAT.calibrated 1,
      whenB (10 < x.quality.toNat) (ioErr (Fin.ofNat 10 (t.page - 64)) 1),
      setF t.page F.IO_CALSTAT.residual x.quality.toNat, setReg 6 R.ST_CALQ x.quality,
      setF 6 F.ST_CALRES.outcome (if x.quality.toNat ≤ 10 then 1 else 2)]
  | 0x21 =>
    withFree fun f => ops [putArray 23 ((List.range 12).map (Config.freeWord f)), setF 23 F.SEN_CALSTAT.calibrated 1,
      setF 23 F.SEN_CALSTAT.residual x.quality.toNat, whenB (4 < x.quality.toNat) (senCause 8), setReg 6 R.ST_CALQ x.quality,
      setF 6 F.ST_CALRES.outcome (if x.quality.toNat ≤ 4 then 1 else 2)]
  | _ => skip

/-- ST_COV0 and ST_COV1: a byte per fault model of R476's table; `logic` is that of the last row. -/
def coverage (code : Nat) (retain : Bool) (logic : Nat) : Word × Word :=
  if code = 1 ∨ code = 2 ∨ code = 3 ∨ code = 6 ∨ code = 7 then
    (0x64646464, BitVec.ofNat 32 (100 + 100 * 2 ^ 8 + (if retain then 100 * 2 ^ 16 else 0) + logic * 2 ^ 24))
  else if code = 4 ∨ code = 5 then (0x64646464, BitVec.ofNat 32 (88 + 50 * 2 ^ 8 + logic * 2 ^ 24))
  else (0, 0)

/-- The signatures of a region test are kept, and ST_SIGFAIL says whether one failed. -/
def keepSigs (r : Nat) (ms : List (SigS × Bool)) : Op :=
  ops [modI fun n => { n with sigs := ms.map (·.1) ++ n.sigs.filter fun x => x.region != r },
    clearBits 7 (R.ST_SIGFAIL0 + r / 32) (2 ^ (r % 32)), whenB (ms.any (·.2)) (setBit 7 (R.ST_SIGFAIL0 + r / 32) (r % 32))]

/-- A test that has run, or been abandoned, writes its result. -/
def finishTest (i : Fin 4) (t : TestRun) (x : TestEnd) : Op :=
  withD fun d =>
    let ms := if t.code = 3 ∧ t.abandon.isNone then d.measured (t.page - 256) x else []
    let badSig := (ms.find? (·.2)).map fun m => 0x10000000 + m.1.depth * 2 ^ 24 + m.1.sig
    let loc : Option Nat := match x.fail with
      | some l => some l.toNat
      | none => badSig
    let outcome := if t.abandon.isSome then 3 else if loc.isSome then 1 else 0
    let word := resultWord false outcome (t.abandon.getD 0) t.code t.page
    withFree fun f =>
      let logic := if t.code = 3 then (Config.freeByte f 0).toNat else if t.code = 4 then 95 else 0
      let (c0, c1) := coverage t.code t.retain logic
      ops [endTest t x t.abandon.isNone, whenB (t.code == 3 && t.abandon.isNone) (keepSigs (t.page - 256) ms),
        modT i fun _ => { result := word, time := x.us, cov0 := c0, cov1 := c1
                          loc := if t.code = 8 then x.errors else BitVec.ofNat 32 (loc.getD 0) },
        whenB (outcome == 1) (both (incReg 6 R.ST_FAILCNT) (stEv 1)), whenB (outcome == 3) (incReg 6 R.ST_ABNCNT), stEv 0,
        endCmds (.test i.val) 0 word.toNat]

/-- TEST_DONE (R476). The test in a slot ends; one that still waits for its quiet edge, or for a pause, only where it is
abandoned. -/
def execTestDone (i : Fin 4) (x : TestEnd) (s : State) : Result :=
  go s <| withD fun d =>
    match (d.inn.tests[i.val]).run with
    | none => skip
    | some t => if (t.waiting ∨ t.pauses ≠ 0) ∧ t.abandon.isNone then skip else finishTest i t x

/-- A write of 1 to ST_EXPCLR. -/
def expClear : Op := pageWrite 7 (modI fun n => { n with expected := [] })

/-- EXPECTED_CLEAR (R485). -/
def execExpectedClear (s : State) : Result := go s expClear

/-! ### Scan (R442, R486) -/

/-- A write of ST_SCANCTL with enter, by a debugger at D3: the steward clears and reads back what scan would show, every
clock group stops, and the functional state outside the always-on domain is lost. -/
def scanEnter (who : Who) : Op :=
  pageWrite 7 (withD fun d =>
    if who ≠ .debugger ∨ d.dbgLevel ≠ 3 then skip
    else
      ops [raise 7 1, resetRest false, keepMem fun a => inRange a flashBase 0x8000000, readyFalls,
        modStw fun w => { w with identity := false, sealRoot := false, memKeys := false },
        modI fun n => { n with dk := d.inn.dk, scan := true, clkStopped := 31, phase := .fault },
        setF 7 fClkEn 1, setF 7 F.ST_SCANCLR.verified 1])

/-- SCAN_ENTER (R486, R442). -/
def execScanEnter (who : Who) (s : State) : Result := go s (byWrite who 7 (scanEnter who))

/-- A write of ST_SCANDATA: 32 bits go into the selected chain, and 32 come out, which the next read returns. -/
def scanShift : Op :=
  whenD (fun d => d.inn.scan) (withFree fun f => both (modI fun n => { n with scanOut := Config.freeWord f 0 }) (incReg 7 R.ST_SCANCNT))

/-- SCAN_SHIFT (R486). The word shifted in reaches state that scan alone shows. -/
def execScanShift (_w : Word) (s : State) : Result := goIn [.fault] s scanShift

/-! ### Calibration arrays (R488, R489) -/

/-- The words of a page's array; none where the page is of no calibrated item. -/
def arrayWords (p : Nat) : Option Nat := (calArrays.find? fun a => a.1 == p).map (·.2)

/-- A word lies in its item's range (R488, R314). -/
def arrayWordOk (p i : Nat) (w : Word) : Bool :=
  match kindOf p with
  | some .clkF => i != 0 || w.toNat < 4096
  | some .vlt => (w &&& ~~~0x3F3F) == 0
  | some .io => w.toNat < 512
  | some .ln => i != 0 || w.toNat < 16
  | _ => true

/-- What ends a CAL_READ or CAL_WRITE: no array, its domain, a test, a gated page, the length. -/
def Device.calRefusal (d : Device) (c : HostCmd) : Option (Nat × Nat) :=
  match arrayWords c.target with
  | none => some (2, 0)
  | some n =>
    if !(d.domOn (pageDomain c.target)) then some (10, 0)
    else if d.testRuns.any (fun x => x.page == c.target) ∨ (kindOf c.target = some .ln ∧ d.underTest (Fin.ofNat 48 (c.target - 96))) then
      some (6, 0)
    else if d.gated c.target then some (7, 1)
    else if c.length ≠ 4 * n then some (2, 0)
    else none

/-- CAL_READ (R489). -/
def execCalRead (q : QueueId) (cid : BitVec 16) (s : State) : Result :=
  onCmd q cid 0x51 (fun c => withD fun d =>
    match d.calRefusal c with
    | some (st, res) => endCmd c st res
    | none =>
      cmdOut c c.haddr ((List.range (c.length / 4)).flatMap fun i => Word.bytes (d.reg c.target (256 + i))) (endCmd c 0 c.length)) s

/-- A written array takes effect: the oscillator's code moves toward it with its trims, the lane's next ADAPT starts from it. -/
def arrayTaken (p : Nat) (ws : List Word) : Op :=
  match kindOf p with
  | some .clkF => modI fun n => { n with oscGoal := some (ws.getD 0 0).toNat }
  | some .ln => both (setF p F.LN_CALSTAT.written 1) (modI fun n => { n with calNew := (p - 96) :: n.calNew.erase (p - 96) })
  | _ => skip

/-- CAL_WRITE (R489). `data` is what was read from the host buffer, none where that read failed. -/
def execCalWrite (q : QueueId) (cid : BitVec 16) (data : Option (List Byte)) (s : State) : Result :=
  onCmd q cid 0x52 (fun c => withD fun d =>
    match d.calRefusal c, d.bufferRead data with
    | some (st, res), _ => endCmd c st res
    | none, none => bufferFailed c
    | none, some bs =>
      let ws := wordsOf (c.length / 4) bs
      if (List.range ws.length).all fun i => arrayWordOk c.target i (ws.getD i 0) then
        ops [putArray c.target ws, arrayTaken c.target ws, endCmd c 0 c.length]
      else endCmd c 2 0) s

end Sys2Proof.Machine
end

