-- ==== Sys2Proof/Machine/RegView.lean ====
section
/-!
DEFINITION. What a register reads as where it shows state that is held elsewhere: the register tables of the chapters.
Each function takes the stored word and lays the live fields over it. Registers that show what the part measures or counts
outside the model read free in the bits of `freeBits`.
-/

namespace Sys2Proof.Machine

/-- A bit as a number. -/
def bitN (b : Bool) (i : Nat) : Nat := if b then 2 ^ i else 0

/-- A register as a sum of its fields' values. -/
def wordOf (n : Nat) : Word := BitVec.ofNat 32 n
/-- The high half of a 64-bit number. -/
def hiWord (n : Nat) : Word := BitVec.ofNat 32 (n / 2 ^ 32)

/-- The mask of the numbers below `n` for which something holds. -/
def maskOf (n : Nat) (f : Nat → Bool) : Nat := (List.range n).foldl (fun m i => m + bitN (f i) i) 0

/-- Fields laid over a word. -/
def overlay (w : Word) (fs : List (Fld × Nat)) : Word := fs.foldl (fun v f => f.1.set f.2 v) w

/-! ### Regions, interfaces, vaults, engines -/

/-- RGN_INFO, RGN_HAMPER, RGN_SPECSTAT (04, 05). -/
def Device.viewRgn (d : Device) (r : RegionId) (w : Nat) (v : Word) : Word :=
  let g := d.rg r
  if w = R.RGN_INFO then F.RGN_INFO.pstate.set (d.rgnP r.val) v
  else if w = R.RGN_HAMPER then F.RGN_HAMPER.fetch_blocked.set (bitN d.forbid 0) v
  else if w = R.RGN_SPECSTAT then
    overlay v [(F.RGN_SPECSTAT.open, bitN g.spec.isSome 0), (F.RGN_SPECSTAT.draining, bitN (g.border.any (·.committed)) 0),
      (F.RGN_SPECSTAT.reg_pend, bitN g.specReg.isSome 0),
      (F.RGN_SPECSTAT.held, match g.spec with
        | some sp => sp.held.length
        | none => 0),
      (F.RGN_SPECSTAT.log, match g.spec with
        | some sp => sp.log.length
        | none => 0),
      (F.RGN_SPECSTAT.buf, g.border.length)]
  else v

/-- NI_STAT (10): open, closing or loading; tags, held requests, target queue. -/
def Device.viewNi (d : Device) (r : RegionId) (w : Nat) (v : Word) : Word :=
  let g := d.rg r
  if w = R.NI_STAT then
    overlay v [(F.NI_STAT.state, if g.loadReset then 3 else if d.inn.closing.contains r.val then 2 else 1),
      (F.NI_STAT.fab_tags, ((List.finRange 32).filter g.tagUsed).length),
      (F.NI_STAT.eng_tags, ((rgnEngines r).map d.engReads).sum),
      (F.NI_STAT.held, match g.spec with
        | some sp => sp.held.length
        | none => 0),
      (F.NI_STAT.tq, g.tq.length)]
  else v

/-- The entry of a vault's error log as VLT_LOGINFO shows it. -/
def VLog.info (e : VLog) : Nat :=
  2 ^ 31 + bitN e.uncorr 30 + e.finder % 4 * 2 ^ 28 + e.init % 1024 * 2 ^ 18 + e.symbol % 128 * 2 ^ 11 +
    bankOfLine e.line * 2 ^ 8 + min e.rep 255

/-- VLT_STAT, VLT_LOGADDR, VLT_LOGINFO, VLT_REMAP (07). -/
def Device.viewVlt (d : Device) (x : VaultId) (w : Nat) (v : Word) : Word :=
  let s := d.vlt x
  let p := vltPg x
  let sel := d.fld p F.VLT_LOGCTL.sel
  if w = R.VLT_STAT then
    overlay v [(F.VLT_STAT.remap_used, (s.remap.toList.filter (·.isSome)).length),
      (F.VLT_STAT.log_used, (s.log.toList.filter (·.isSome)).length)]
  else if w = R.VLT_LOGADDR then
    match s.log[(Fin.ofNat 16 sel).val] with
    | some e => wordOf (e.chunk % 2 * 2 ^ 20 + e.line % 2 ^ 20)
    | none => 0
  else if w = R.VLT_LOGINFO then
    match s.log[(Fin.ofNat 16 sel).val] with
    | some e => wordOf e.info
    | none => 0
  else if w = R.VLT_REMAP then
    match s.remap[(Fin.ofNat 8 (d.fld p F.VLT_REMAP.sel)).val] with
    | some (slot, line) =>
      overlay v [(F.VLT_REMAP.valid, 1), (F.VLT_REMAP.slot, slot), (F.VLT_REMAP.line, line)]
    | none =>
      let old := s.remapOld[(Fin.ofNat 8 (d.fld p F.VLT_REMAP.sel)).val]
      overlay v [(F.VLT_REMAP.valid, 0), (F.VLT_REMAP.slot, old.1), (F.VLT_REMAP.line, old.2)]
  else if R.VLT_DMA0 ≤ w ∧ w < R.VLT_DMA0 + 4 then
    (fDma F.VLT_DMA0.outstanding (Fin.ofNat 4 (w - R.VLT_DMA0))).set (d.dmaOut x (Fin.ofNat 4 (w - R.VLT_DMA0))) v
  else v

/-- ENG_SPORT (08): the FIFOs of the engine's eight ports as the engine sees them (R132, R209). -/
def Device.viewSport (d : Device) (e : EngineId) : Word :=
  let g := d.rg (Fin.ofNat 64 (engRgn e))
  let dn (p : Nat) : Fifo := g.down[(fifoIndex e p).val]
  let up (p : Nat) : Fifo := g.up[(fifoIndex e p).val]
  wordOf (maskOf 8 (fun p => (dn p).q.isEmpty && (dn p).popped.isEmpty) * 2 ^ 24 + maskOf 8 (fun p => (dn p).engFree == 0) * 2 ^ 16 +
    maskOf 8 (fun p => (up p).engWords == 0) * 2 ^ 8 + maskOf 8 (fun p => 16 ≤ (up p).engWords))

/-- ENG_STAT, ENG_SPORT, ENG_WINA, ENG_WINB (08). -/
def Device.viewEng (d : Device) (e : EngineId) (w : Nat) (v : Word) : Word :=
  let x : Fin 16 := Fin.ofNat 16 (d.fld (engPg e) F.ENG_WINSEL.sel)
  if w = R.ENG_STAT then d.engStat e
  else if w = R.ENG_SPORT then d.viewSport e
  else if w = R.ENG_WINA then (d.en e).winA[x.val]
  else if w = R.ENG_WINB then (d.en e).winB[x.val]
  else v

/-! ### Events, time, debug -/

/-- EVT_PSUM0 to 5 and EVT_NETSUM (02): pending and unmasked sources, interfaces with an enabled cause set. -/
def Device.viewEvt (d : Device) (k w : Nat) (v : Word) : Word :=
  if R.EVT_PSUM0 ≤ w ∧ w < R.EVT_PSUM0 + 6 then
    wordOf (maskOf 32 fun i =>
      let j := 32 * (w - R.EVT_PSUM0) + i
      let s := 165 * k + j
      j < 165 && s < 660 && d.regBit (srcPage s).1 wPend (srcPage s).2 && !(d.regBit (srcPage s).1 wMask (srcPage s).2))
  else if w = R.EVT_NETSUM then
    wordOf (maskOf 16 fun i =>
      let e := (d.reg (320 + 16 * k + i) R.NI_ERR).toNat
      e % 512 &&& e / 65536 != 0)
  else v

/-- TIME_LO to TIME_HOLD (16, R382), on page 0x010 and through the aliases of page 0x00C (R36). -/
def Device.viewTime (d : Device) (w : Nat) : Word :=
  if w = R.TIME_LO then wordOf d.inn.devtime
  else if w = R.TIME_HI then hiWord d.inn.devtime
  else if w = R.TIME_SUB then wordOf (d.inn.devfrac * 16 / nsUnit)
  else if w = R.TIME_STAT then
    wordOf (d.steer * 2 ^ 30 + bitN (d.inn.hold != 0) 29 + bitN (d.onOscf 0) 28)
  else if w = R.TIME_HOLD then wordOf (min ((d.inn.hold + nsUnit - 1) / nsUnit) (2 ^ 32 - 1))
  else d.reg 16 w

/-- The debug page (20): the level, the selected engine and comparator. -/
def Device.viewDbg (d : Device) (w : Nat) (v : Word) : Word :=
  let e := d.selEngine
  let c := d.cmp (d.fld 5 F.DBG_BRKSEL.sel)
  if w = R.DBG_STAT then
    overlay v [(F.DBG_STAT.level, d.dbgLevel), (F.DBG_STAT.by_token, bitN d.inn.session.isSome 0),
      (F.DBG_STAT.in_p3, bitN d.inP3 0)]
  else if w = R.DBG_ENGCTL then
    overlay v [(F.DBG_ENGCTL.step_mask, bitN (d.en e).stepMask 0), (F.DBG_ENGCTL.catch_brk, bitN (d.en e).catchBrk 0)]
  else if w = R.DBG_ENGSTAT then
    wordOf (d.engState e * 2 ^ 29 + bitN (d.en e).liveRuns 28 + (d.en e).haltCause % 16 * 2 ^ 24 + (d.en e).haltComp % 8 * 2 ^ 21 +
      (d.en e).halts % 65536)
  else if w = R.DBG_ENGREG then (if d.engregOpen then d.engreg else 0)
  else if w = R.DBG_LIVE then wordOf ((d.en e).live % 65536)
  else if w = R.DBG_BRKCTL then c.ctl
  else if w = R.DBG_BRKLO then c.lo
  else if w = R.DBG_BRKHI then c.hi
  else if w = R.DBG_BRKTAG then c.tag
  else if w = R.DBG_SNAPCTL then
    F.DBG_SNAPCTL.halted.set (bitN (d.rg (Fin.ofNat 64 (d.fld 5 F.DBG_SNAPCTL.region))).dbgHalt 0) v
  else v

/-! ### The steward, self-test -/

/-- The word of a byte string at a word index. -/
def wordAt (bs : List Byte) (i : Nat) : Word := wordOf (Word.natOfBytes ((bs.drop (4 * i)).take 4))

/-- Pages 0x001 to 0x003 (19). -/
def Device.viewStw (d : Device) (p w : Nat) (v : Word) : Word :=
  let s := d.stw
  if p = 1 then
    if w = R.STW_STAT then F.STW_STAT.busy.set (bitN (s.checking || s.att.isSome || s.svc.isSome) 0) v
    else if w = R.STW_LCS then F.STW_LCS.state.set d.lcs v
    else v
  else if p = 2 then
    if w = R.STW_ATTSTAT then F.STW_ATTSTAT.busy.set (bitN s.att.isSome 0) v
    else if w = R.STW_NONCE then wordAt s.nonce (d.fld 2 F.STW_DBGCTL.nsel)
    else if w = R.STW_TOKSTAT then F.STW_TOKSTAT.words.set s.tok.length v
    else if w = R.STW_SESSION then
      wordOf (d.dbgLevel * 2 ^ 30 + bitN d.inn.session.isSome 29 + (if d.inn.session.isSome then min d.secondsLeft 0xFFFE else 0xFFFF))
    else v
  else
    if w = R.STW_KEYSTAT then
      wordOf (bitN (!s.owner.isEmpty) 31 + bitN s.identity 30 + bitN s.sealRoot 29 + bitN s.memKeys 28 +
        maskOf 12 fun k => d.fld (80 + k) F.LNK_KEYSTAT.state == 1 || d.fld (80 + k) F.LNK_KEYSTAT.state == 2)
    else if R.STW_OWNER0 ≤ w ∧ w < R.STW_OWNER0 + 8 then wordAt s.owner (w - R.STW_OWNER0)
    else v

/-- The depth that ST_SIGSEL codes 1 to 3. -/
def sigSelDepth (n : Nat) : Nat := 2 ^ n

/-- Pages 0x006 and 0x007 (21). -/
def Device.viewSt (d : Device) (p w : Nat) (v : Word) : Word :=
  let t := d.inn.tests[(Fin.ofNat 4 (d.fld 6 F.ST_RSEL.slot)).val]
  let r := d.fld 7 F.ST_SIGSEL.region
  let depth := sigSelDepth (d.fld 7 F.ST_SIGSEL.depth)
  let sig := d.fld 7 F.ST_SIGSEL.sig
  let got := d.inn.sigs.find? fun x => x.region == r && x.depth == depth && x.sig == sig
  let val (x : Option SigS) : Nat := match x with
    | some y => y.value
    | none => 0
  let want := d.expectedSig r depth sig
  if p = 6 then
    if w = R.ST_STAT then
      wordOf (d.testRuns.length + 16 * maskOf 4 fun i => (d.inn.tests[(Fin.ofNat 4 i).val]).run.isSome)
    else if w = R.ST_RESULT then t.result
    else if w = R.ST_RLOC then t.loc
    else if w = R.ST_RTIME then t.time
    else if w = R.ST_COV0 then t.cov0
    else if w = R.ST_COV1 then t.cov1
    else v
  else
    if w = R.ST_SIGACT_LO then wordOf (val got)
    else if w = R.ST_SIGACT_HI then hiWord (val got)
    else if w = R.ST_SIGEXP_LO then wordOf (want.getD 0)
    else if w = R.ST_SIGEXP_HI then hiWord (want.getD 0)
    else if w = R.ST_SIGSTAT then wordOf (bitN want.isSome 31 + bitN (match got with
      | some y => y.matched
      | none => false) 30)
    else if w = R.ST_EXPCNT then wordOf d.inn.expected.length
    else if w = R.ST_SCANSTAT then
      wordOf (bitN d.inn.scan 31 + Config.scanLength (d.fld 7 F.ST_SCANCTL.chain) % 2 ^ 20)
    else if w = R.ST_SCANDATA then d.inn.scanOut
    else if w = R.ST_LBSEED_LO then wordOf Config.lbSeed
    else if w = R.ST_LBSEED_HI then hiWord Config.lbSeed
    else v

/-! ### Links, external memory, the host port -/

/-- LNK_STAT and LNK_OUTST (12). -/
def Device.viewLnk (d : Device) (q : PortId) (w : Nat) (v : Word) : Word :=
  if w = R.LNK_STAT then
    F.LNK_STAT.tparent.set (bitN (d.fld 80 F.LNK_DEV.tparent == q.val && !(d.bit 80 F.LNK_DEV.cor) && d.lnkState q == psUp) 0) v
  else if w = R.LNK_OUTST then wordOf ((d.lk q).etags.length * 2 ^ 16 + (d.lk q).held.length)
  else v

/-- EXT_OUTST, and the selected entry of a channel's poison log (14). -/
def Device.viewExt (d : Device) (c : ChanId) (w : Nat) (v : Word) : Word :=
  let e := (d.ext c).plog[(Fin.ofNat 16 (d.fld (extPg c) F.EXT_PLOGCTL.sel)).val]
  let a : Nat := match e with
    | some x => x.addr
    | none => 0
  if w = R.EXT_OUTST then wordOf (d.extOut c false % 256 * 2 ^ 16 + d.extOut c true % 128)
  else if w = R.EXT_PLOGADDR_LO then wordOf a
  else if w = R.EXT_PLOGADDR_HI then hiWord a
  else if w = R.EXT_PLOGINFO then
    match e with
    | some x => wordOf (2 ^ 31 + x.kind % 4 * 2 ^ 29 + x.init % 1024 * 2 ^ 9)
    | none => 0
  else v

/-- Page 0x026 (14): the selected key region, generations and counts. -/
def Device.viewCry (d : Device) (w : Nat) (v : Word) : Word :=
  let k := d.fld 38 F.CRY_KRSEL.sel
  if w = R.CRY_KRINFO then
    wordOf (bitN (d.regionInUse k) 31 + bitN (d.regBit 38 R.CRY_KRSTALL k) 30 + bitN (d.regBit 38 R.CRY_KRQUEUE k) 29 + d.kGen k % 256)
  else if w = R.CRY_KRCNT_LO then wordOf (d.kCount k)
  else if w = R.CRY_KRCNT_HI then hiWord (d.kCount k)
  else if R.CRY_KRGEN0 ≤ w ∧ w < R.CRY_KRGEN0 + 4 then
    wordOf ((List.range 8).foldl (fun m i => m + d.kGen (8 * (w - R.CRY_KRGEN0) + i) % 16 * 2 ^ (4 * i)) 0)
  else if R.CRY_KRPCT0 ≤ w ∧ w < R.CRY_KRPCT0 + 8 then
    wordOf ((List.range 4).foldl (fun m i => m + min 255 (d.kCount (4 * (w - R.CRY_KRPCT0) + i) / 2 ^ 36) * 2 ^ (8 * i)) 0)
  else v

/-- The selected entry of the counter-lost log (14). -/
def Device.viewCtr (d : Device) (w : Nat) (v : Word) : Word :=
  let e := d.inn.cry.lostLog[(Fin.ofNat 16 (d.fld 39 F.CTR_LOSTSEL.sel)).val]
  let a : Nat := match e with
    | some x => x.addr
    | none => 0
  if w = R.CTR_LOSTINFO then
    match e with
    | some x => wordOf (2 ^ 31 + x.ch % 2 * 2 ^ 30 + x.level % 4)
    | none => 0
  else if w = R.CTR_LOSTADDR_LO then wordOf a
  else if w = R.CTR_LOSTADDR_HI then hiWord a
  else v

/-- HP_STAT (11): commands executing, non-posted requests to the host. -/
def Device.viewHp (d : Device) (w : Nat) (v : Word) : Word :=
  if w = R.HP_STAT then
    overlay v [(F.HP_STAT.exec, (d.inn.cmds.filter fun c => c.ended.isNone).length), (F.HP_STAT.np, d.hostNp)]
  else v

/-! ### Machine I/O, power, the sentinel -/

/-- The code of a declared VCCIO (IO_INFO). -/
def vccCode (mv : Nat) : Nat :=
  if mv = 1200 then 1 else if mv = 1500 then 2 else if mv = 1800 then 3 else if mv = 2500 then 4 else if mv = 3300 then 5 else 0

/-- IO_INFO and IO_DLYVAL (15). -/
def Device.viewIo (d : Device) (b : BankId) (w : Nat) (v : Word) : Word :=
  let pin := d.fld (ioPg b) F.IO_DLYSEL.pin
  let k := 48 * b.val + pin
  if w = R.IO_INFO then
    overlay v [(F.IO_INFO.owner, (bankOwner b).val), (F.IO_INFO.declared, vccCode (d.inn.vccio.getD b.val 0))]
  else if w = R.IO_DLYVAL then
    if 48 ≤ pin then 0 else wordOf (bitN (d.tap k != d.tapGoal k) 31 + d.tap k % 512 * 2 ^ 16 + d.tapGoal k % 512)
  else v

/-- SER_STAT and SER_RX (15). -/
def Device.viewSer (d : Device) (who : Who) (x : SerialId) (w : Nat) (v : Word) : Word :=
  let s := d.se x
  if w = R.SER_STAT then wordOf (bitN (!s.tx.isEmpty || s.cs.isSome) 31 + (64 - s.tx.length) * 2 ^ 16 + s.rx.length)
  else if w = R.SER_RX then d.serRx who x
  else v

/-- ETH_QSTAT (15). -/
def Device.viewEth (d : Device) (m : MacId) (w : Nat) (v : Word) : Word :=
  if w = R.ETH_QSTAT then
    wordOf (maskOf 8 (fun q => !((d.mc m).tx[(Fin.ofNat 8 q).val]).isEmpty) * 2 ^ 8 + d.gates m % 256)
  else v

/-- FL_PROT (15): ranges 0, 1, 2 and 4 of the flash layout are written by the steward only. -/
def viewFl (w : Nat) (v : Word) : Word := if w = R.FL_PROT then 0x17 else v

/-- PWR_RGNREQ and PWR_RAMPQ (17). -/
def Device.viewPwr2 (d : Device) (w : Nat) (v : Word) : Word :=
  if w = R.PWR_RGNREQ then F.PWR_RGNREQ.busy.set (bitN ((List.range 64).any d.rgnMoving) 0) v
  else if w = R.PWR_RAMPQ then wordOf d.pow.waiting.length
  else v

/-- The sentinel's selected channel and log entry (17). -/
def Device.viewSen (d : Device) (w : Nat) (v : Word) : Word :=
  let s := d.inn.sen
  let ch := d.fld 23 F.SEN_CHSEL.ch
  let e := s.log[(Fin.ofNat 16 (d.fld 23 F.SEN_LOGCTL.sel)).val]
  let t : Nat := match e with
    | some x => x.start
    | none => 0
  if w = R.SEN_CHCFG then (if ch < 12 then s.chcfg[(Fin.ofNat 12 ch).val] else 0)
  else if w = R.SEN_LOGINFO then
    match e with
    | some x => wordOf (2 ^ 31 + bitN x.active 30 + x.kind % 16 * 2 ^ 24 + x.extreme % 65536)
    | none => 0
  else if w = R.SEN_LOGTIME_LO then wordOf t
  else if w = R.SEN_LOGTIME_HI then hiWord t
  else if w = R.SEN_LOGDUR then
    match e with
    | some x => wordOf (min x.dur (2 ^ 32 - 1))
    | none => 0
  else v

/-! ### Free bits -/

/-- The bits of a register that show what the model does not hold: pins, measurements, counts of link layers and of
counter-cache traffic (notes/assumptions/54.md). -/
def freeBits (k : Kind) (w : Nat) : Nat :=
  match k with
  | .io => if w = R.IO_IN_LO ∨ w = R.IO_IN_HI then 0xFFFFFFFF else 0
  | .pwr1 => if w = R.PWR_AONMV then 0xFFFFFFFF else 0
  | .pwr5 => if w = R.PWR_THSTAT ∨ w = R.PWR_RESTSTAT then 0xFFFFFFFF else 0
  | .hp0 => if (R.HP_CNT0 ≤ w ∧ w < R.HP_CNT0 + 10) ∨ w = R.HP_REPLAYCNT ∨ w = R.HP_RXERRCNT
      then 0xFFFFFFFF else 0
  | .eth => if R.ETH_CNT0 ≤ w ∧ w < R.ETH_CNT0 + 24 then 0xFFFFFFFF else if w = R.ETH_STAT then 0x30000000 else 0
  | .ext => if w = R.EXT_STALLCNT ∨ w = R.EXT_CCHIT ∨ w = R.EXT_CCMISS ∨ (R.EXT_DQ0 ≤ w ∧ w < R.EXT_DQ0 + 8) then 0xFFFFFFFF else 0
  | .ctr => if (R.CTR_CCRD0 ≤ w ∧ w < R.CTR_CCRD0 + 8) ∨ w = R.CTR_INITPOS0 ∨ w = R.CTR_INITPOS1 ∨ w = R.CTR_CCERR ∨ w = R.CTR_CCFIX ∨
      w = R.CTR_LASTERR ∨ w = R.CTR_ROOTPAR0 ∨ w = R.CTR_ROOTPAR1 then 0xFFFFFFFF else 0
  | .sen => if w = R.SEN_RAW then 0xFFFFFFFF else 0
  | .clkF => if w = R.CLK_OSCS then 0xFFFFFFFF else 0
  | .ln => if w = R.LN_EBUF then 0x3F3F3F else if w = R.LN_SKIPCNT ∨ w = R.LN_BLKERR ∨ (R.LN_CNT0 ≤ w ∧ w < R.LN_CNT0 + 4) then 0xFFFFFFFF else 0
  | .fl => if w = R.FL_ID then 0xFFFFFFFF else 0
  | .stw3 => if w = R.STW_LINKTIME then 0xFFFFFFFF else if w = R.STW_RNGSTAT then 0xFF else 0
  | _ => 0

/-- The DFE taps of a READY lane keep adapting while LN_RXCTL.cont is 1 and dfe_hold 0 (R307): what they come to is free,
and so are the counts of a checker that runs, and those of a clock monitor until a trip latches them (R311, R369;
notes/assumptions/54.md). -/
def Device.adapting (d : Device) (k : Kind) (p w : Nat) : Bool :=
  k == .clkD && R.CLK_REFCNT ≤ w && w < R.CLK_REFCNT + 3 && !(d.regBit 13 R.CLK_MONSTAT (w - R.CLK_REFCNT)) ||
  k == .ln &&
    if w = R.LN_DFE0 ∨ w = R.LN_DFE1 then
      d.fld p F.LN_STAT.state == 5 && d.bit p F.LN_RXCTL.cont && !(d.bit p F.LN_RXCTL.dfe_hold)
    else R.LN_PRBSERR ≤ w && w < R.LN_PRBSERR + 3 && d.fld p F.LN_TEST.chk != 0

/-! ### One register -/

/-- The block register or table word at an offset of a page as it reads, but for its free bits (R6, R8). -/
def Device.view (d : Device) (who : Who) (p w : Nat) : Word :=
  let v := d.reg p w
  let i := p - 256
  match kindOf p with
  | some .rgn => d.viewRgn (Fin.ofNat 64 i) w v
  | some .ni => d.viewNi (Fin.ofNat 64 (p - 320)) w v
  | some .vlt => d.viewVlt (Fin.ofNat 64 (p - 384)) w v
  | some .eng => d.viewEng (Fin.ofNat 256 (p - 512)) w v
  | some .evt => d.viewEvt (p - 8) w v
  | some .time => if 16 ≤ w ∧ w < 24 then d.viewTime w else v
  | some .clk10 => if 16 ≤ w ∧ w < 24 then d.viewTime w else v
  | some .dbg => d.viewDbg w v
  | some .stw1 | some .stw2 | some .stw3 => d.viewStw p w v
  | some .st6 | some .st7 => d.viewSt p w v
  | some .lnk => d.viewLnk (Fin.ofNat 12 (p - 80)) w v
  | some .ext => d.viewExt (Fin.ofNat 2 (p - 36)) w v
  | some .cry => d.viewCry w v
  | some .ctr => d.viewCtr w v
  | some .hp0 => d.viewHp w v
  | some .io => d.viewIo (Fin.ofNat 10 (p - 64)) w v
  | some .ser => d.viewSer who (Fin.ofNat 16 (p - 48)) w v
  | some .eth => d.viewEth (Fin.ofNat 2 (p - 41)) w v
  | some .fl => viewFl w v
  | some .pwr2 => d.viewPwr2 w v
  | some .sen => d.viewSen w v
  | _ => v

end Sys2Proof.Machine
end

