-- ==== Sys2Proof/Machine/RegWrite.lean ====
section
/-!
DEFINITION. The write of one 32-bit register (R8, R40 to R45, R49 to R55): each field by its access type, the values that
leave a field unchanged, and the actions that a write starts. The actions are those of the chapters' own commands.
-/

namespace Sys2Proof.Machine

/-! ### Fields by their access types (R8) -/

/-- The stored word after a write of `v`: RW and, under the writer's unlock, RWL fields take it; W1C and W1S bits are cleared
and set; the rest stays. -/
def writtenWord (fields : List FieldD) (unlocked : Bool) (old v : Word) : Word :=
  fields.foldl (fun w f =>
    let m := BitVec.ofNat 32 f.mask
    match f.acc with
    | .rw => (w &&& ~~~m) ||| (v &&& m)
    | .rwl => if unlocked then (w &&& ~~~m) ||| (v &&& m) else w
    | .w1c => w &&& ~~~(v &&& m)
    | .w1s => w ||| (v &&& m)
    | _ => w) old

/-- A field of the word written that holds a value outside `ok` is replaced by the field's present value. -/
def keepUnless (old : Word) (v : Word) (f : Fld) (ok : Nat → Bool) : Word := if ok (f.get v) then v else f.set (f.get old) v

/-- The fields of a register that a value outside a range leaves unchanged (the register tables of the chapters). -/
def Device.rangeOf (d : Device) (k : Kind) (p w : Nat) : List (Fld × (Nat → Bool)) :=
  let depth := d.fld p F.RGN_INFO.depth
  match k with
  | .rgn =>
    if w = R.RGN_CTXCFG then
      [(F.RGN_CTXCFG.fault_policy, (· < 3)), (F.RGN_CTXCFG.safe_slot, (· < depth)), (F.RGN_CTXCFG.stop_slot, (· < depth))]
    else if w = R.RGN_SPECCTL then [(F.RGN_SPECCTL.corr_slot, (· < depth)), (F.RGN_SPECCTL.pred_slot, (· < depth))]
    else []
  | .ni =>
    if w = R.NI_CTL then [(F.NI_CTL.tmo, (0 < ·))]
    else if R.NI_TB0 ≤ w ∧ w < R.NI_TB0 + 4 then [(F.NI_TB0.burst.at (w - R.NI_TB0), (0 < ·)), (F.NI_TB0.rate.at (w - R.NI_TB0), (· ≤ 256))]
    else []
  | .vlt => if w = R.VLT_SCRUB then [(F.VLT_SCRUB.pass_time, (60 ≤ ·))] else []
  | .eng => if w = R.ENG_WDT then [(F.ENG_WDT.action, (· < 3)), (F.ENG_WDT.exp, (12 ≤ ·))] else []
  | .hp3 =>
    let r := (w - R.HP_RING0BASE_LO) / 10
    if (w - R.HP_RING0BASE_LO) % 10 = R.HP_RING0CTL - R.HP_RING0BASE_LO then
      [(ringF F.HP_RING0CTL.size r, fun n => 16 ≤ n && n ≤ 4096 && !(d.bit 35 (ringF F.HP_RING0CTL.en r)))]
    else []
  | .lnk => if w = R.LNK_DEV then [(F.LNK_DEV.e2e_tmo, (32 ≤ ·)), (F.LNK_DEV.tparent, fun n => n < 12 || n == 15)] else []
  | .ln =>
    if w = R.LN_CTL then [(F.LN_CTL.rate, (· < 3))]
    else if w = R.LN_RXCTL then [(F.LN_RXCTL.train_tmo, (0 < ·))]
    else []
  | .ext => if w = R.EXT_CFG then [(F.EXT_CFG.max_rate, (0 < ·))] else []
  | .cry => if w = R.CRY_RAMBLE then [(F.CRY_RAMBLE.share, (0 < ·))] else []
  | .ser =>
    if w = R.SER_DIV then
      [(F.SER_DIV.div, fun n => if d.fld p F.SER_CTL.mode = 3 then 4 ≤ n && n % 2 == 0 else 16 ≤ n)]
    else []
  | .io => if w = R.IO_STBY then [(F.IO_STBY.mode, (· < 5))] else []
  | .pwr1 => if w = R.PWR_SUPCTL then [(F.PWR_SUPCTL.stop_lead, fun n => 1 ≤ n && n ≤ 1000)] else []
  | .pwr2 => if w = R.PWR_RGNREQ then [(F.PWR_RGNREQ.state, (· < 3))] else []
  | .pwr3 => if R.PWR_REG0 ≤ w ∧ w < R.PWR_REG0 + 8 then [(F.PWR_REG0.timeout.at (w - R.PWR_REG0), (0 < ·))] else []
  | .st6 => if w = R.ST_RETENT then [(F.ST_RETENT.ms, fun n => 1 ≤ n && n ≤ 10000)] else []
  | .st7 => if w = R.ST_LBPAT then [(F.ST_LBPAT.v, (0 < ·))] else []
  | _ => []

/-- The write of the fields of a register that no action follows from. -/
def plainWrite (who : Who) (p w : Nat) (v : Word) : Op :=
  withD fun d =>
    match kindOf p with
    | none => skip
    | some k =>
      if onlyOn k p w then skip
      else
        let v' := (d.rangeOf k p w).foldl (fun x r => keepUnless (d.reg p w) x r.1 r.2) v
        setReg p w (writtenWord (k.fieldsAt w) (d.unlockedFor p who) (d.reg p w) v')

/-- A one-bit field of the word written is 1. -/
def Fld.on (f : Fld) (v : Word) : Bool := f.get v != 0

/-! ### Regions, interfaces, vaults, engines -/

def writeRgn (who : Who) (r : RegionId) (w : Nat) (v : Word) : Op :=
  let p := rgnPg r
  let plain := plainWrite who p w v
  let slot (f : Fld) : SlotId := Fin.ofNat 8 (f.get v)
  if w = R.RGN_CTXSEL then ctxselWrite r (slot F.RGN_CTXSEL.next_slot) (F.RGN_CTXSEL.req.on v)
  else if w = R.RGN_SCHED_CTL then
    if F.RGN_SCHED_CTL.arm.on v then schedArm r (slot F.RGN_SCHED_CTL.slot)
    else both (setF p F.RGN_SCHED_CTL.slot (F.RGN_SCHED_CTL.slot.get v)) (schedDisarm r)
  else if w = R.RGN_HAMPER then hamperResize who r (F.RGN_HAMPER.size.get v)
  else if w = R.RGN_FETCH then
    if F.RGN_FETCH.start.on v then fetchStart r (F.RGN_FETCH.entry.get v) (slot F.RGN_FETCH.slot) else plain
  else if w = R.RGN_FAULT then both plain (whenB (v.getLsbD 3) (releaseCuts r))
  else if w = R.RGN_HOLD then whenB (F.RGN_HOLD.release.on v) (faultHoldRelease r)
  else if w = R.RGN_SPECCTL then
    both plain
      (if F.RGN_SPECCTL.abort.on v then specRequest r .abort
      else if F.RGN_SPECCTL.commit.on v then specRequest r .commit
      else whenB (F.RGN_SPECCTL.open.on v) (specRequest r (.opn (specSrc who))))
  else plain

def writeNi (who : Who) (r : RegionId) (w : Nat) (v : Word) : Op :=
  let plain := plainWrite who (niPg r) w v
  if w = R.NI_WMCTL ∧ F.NI_WMCTL.flip.on v then waymarkFlip r (F.NI_WMCTL.entry.get v) else plain

def writeVlt (who : Who) (x : VaultId) (w : Nat) (v : Word) : Op :=
  let p := vltPg x
  let plain := plainWrite who p w v
  if w = R.VLT_LOGCTL ∧ F.VLT_LOGCTL.free.on v then logFree x (Fin.ofNat 16 (F.VLT_LOGCTL.sel.get v))
  else if w = R.VLT_REMAP then
    let sel : Fin 8 := Fin.ofNat 8 (F.VLT_REMAP.sel.get v)
    if !(F.VLT_REMAP.wr.on v) then setF p F.VLT_REMAP.sel sel.val
    else (if F.VLT_REMAP.valid.on v then remapWrite else remapEnd) who x sel (F.VLT_REMAP.slot.get v) (F.VLT_REMAP.line.get v)
      .clean .clean
  else if w = R.VLT_DMABASE then whenD (fun d => !((List.finRange 4).any fun c => d.bit p (fDma F.VLT_DMA0.run c))) plain
  else if R.VLT_DMA0 ≤ w ∧ w < R.VLT_DMA0 + 4 then
    let c : DmaId := Fin.ofNat 4 (w - R.VLT_DMA0)
    ops [dmaTail x c (F.VLT_DMA0.tail.get v), dmaRun x c (F.VLT_DMA0.run.on v), whenB (F.VLT_DMA0.resume.on v) (dmaResume x c)]
  else plain

def writeEng (who : Who) (e : EngineId) (w : Nat) (v : Word) : Op :=
  let plain := plainWrite who (engPg e) w v
  if w = R.ENG_CTL then
    both plain (withD fun d =>
      if d.engState e = esParked then whenB (F.ENG_CTL.run.on v) (startEngine e) else whenB (F.ENG_CTL.park.on v) (parkWrite e))
  else if w = R.ENG_WDT then
    withD fun d => ops [plain,
      whenB (F.ENG_WDT.en.on v && !(d.bit (engPg e) F.ENG_WDT.en)) (wdtEnable who e true), wdtKick e (F.ENG_WDT.kick.get v)]
  else if w = R.ENG_IRQ then both (irqClear e (v.toNat % 65536)) (irqSet e (v.toNat / 65536))
  else if w = R.ENG_WINA then windowWrite e false v
  else if w = R.ENG_WINB then windowWrite e true v
  else plain

/-! ### Events -/

/-- Delivery is enabled for the sources of an events page: what is pending and unmasked is delivered
(notes/assumptions/8.md). -/
def deliverEnable (k : Nat) (en : Bool) : Op :=
  withD fun d =>
    let was := d.bit (8 + k) F.EVT_CTL.deliver_en
    both (setB (8 + k) F.EVT_CTL.deliver_en en)
      (whenB (!was && en) (forAll ((List.range 165).map (165 * k + ·)) fun s =>
        whenD (fun d => s < 660 && !(srcNmiFixed s) && d.deliverable s) (deliverTo s)))

/-- A write of a route entry (R51, R53, R54): the entries of the fixed non-maskable sources take nothing; a non-maskable
destination is taken by the fault sources of regions only. -/
def routeWrite (who : Who) (s : Nat) (v : Word) : Op :=
  let p := routePage s
  if 660 ≤ s ∨ srcNmiFixed s then skip
  else if v.toNat / 2 ^ 30 = 3 ∧ ¬ (s < 192 ∧ s % 3 = 2) then
    both (setF p F.EVT_STAT.route_refused 1) (setF p F.EVT_REFADDR.offset (4 * routeWord s))
  else plainWrite who p (routeWord s) v

/-- A write of EVT_FORCE (R44, R53): one occurrence, whatever the page's gate; a fixed non-maskable source takes none. -/
def forceSource (s : Nat) : Op := if 660 ≤ s ∨ srcNmiFixed s then skip else occur s

def writeEvt (who : Who) (k w : Nat) (v : Word) : Op :=
  if w = R.EVT_CTL then deliverEnable k (F.EVT_CTL.deliver_en.on v)
  else if w = R.EVT_FORCE then forceSource (F.EVT_FORCE.source.get v)
  else if 256 ≤ w ∧ w < 421 then routeWrite who (165 * k + (w - 256)) v
  else plainWrite who (8 + k) w v

/-! ### Clocks and power -/

def writeClk (who : Who) (p w : Nat) (v : Word) : Op :=
  let plain := plainWrite who p w v
  if p = 13 then
    if w = R.CLK_PLL then whenB (F.CLK_PLL.relock.on v) pllRelock
    else if w = R.CLK_FAIL then whenB (F.CLK_FAIL.record.on v) failRecordClear
    else plain
  else if p = 14 then
    if R.CLK_GRP0 ≤ w ∧ w < R.CLK_GRP0 + 5 then
      let i := w - R.CLK_GRP0
      let g : Fin 5 := Fin.ofNat 5 i
      ops [whenB ((F.CLK_GRP0.abandoned.at i).on v) (setF 14 (fAbandoned g) 0),
        whenD (fun d => d.bit 14 (fGrpPend g) || d.onOscf g != (fSrc g).on v) (clockSwitch g ((fSrc g).on v)),
        withD fun d => whenB (i != 0 && d.fld 14 (F.CLK_GRP0.div.at i) != (F.CLK_GRP0.div.at i).get v)
          (dividerWrite (Fin.ofNat 4 (i - 1)) ((F.CLK_GRP0.div.at i).get v))]
    else plain
  else if p = 15 then
    if w = R.CLK_OSCF then whenB (F.CLK_OSCF.restart.on v) oscRestart else plain
  else
    if w = R.TIME_CTL then swSteerWrite (F.TIME_CTL.sw_steer.on v)
    else if w = R.TIME_ADJ then timeAdjWrite v
    else if w = R.TIME_STEPCTL then whenB (F.TIME_STEPCTL.go.on v) (timeStep (F.TIME_STEPCTL.absolute.on v))
    else plain

/-- A write of PWR_ENCTL.clear: the energy of every entry and the peak start again (notes/assumptions/55.md). -/
def energyClear : Op :=
  ops [forAll (List.range 16) fun i => setReg 22 (R.PWR_ENERGY0_LO + i) 0, setReg 22 R.PWR_PEAK 0, setN64 22 R.PWR_PEAKTIME_LO 0,
    modPow fun p => { p with rest := Vector.replicate 8 0 }]

def writePwr (who : Who) (p w : Nat) (v : Word) : Op :=
  let plain := plainWrite who p w v
  if p = 17 then
    if w = R.PWR_DEVCTL then both plain (whenB (F.PWR_DEVCTL.p3.on v) p3Request)
    else if w = R.PWR_SUPCTL then both plain (whenB (F.PWR_SUPCTL.release.on v) forbidRelease)
    else if w = R.PWR_REBUILD ∧ F.PWR_REBUILD.go.on v then
      rebuild (Fin.ofNat 64 (F.PWR_REBUILD.region.get v)) (Fin.ofNat 8 (F.PWR_REBUILD.slot.get v))
    else plain
  else if p = 18 then
    if w = R.PWR_RGNREQ ∧ F.PWR_RGNREQ.go.on v then
      rgnreqWrite (Fin.ofNat 64 (F.PWR_RGNREQ.region.get v)) (F.PWR_RGNREQ.state.get v)
    else if w = R.PWR_DOMCTL then domctlWrite (v.toNat % 2 ^ 15)
    else plain
  else if p = 19 then
    if w = R.PWR_PMBCMD ∧ F.PWR_PMBCMD.start.on v then
      pmbStart (F.PWR_PMBCMD.addr.get v) (F.PWR_PMBCMD.cmd.get v) (F.PWR_PMBCMD.wlen.get v) (F.PWR_PMBCMD.rlen.get v)
    else plain
  else if p = 22 then
    if w = R.PWR_ENCTL then whenB (F.PWR_ENCTL.clear.on v) energyClear else plain
  else plain

/-- The sentinel's page: the selected channel's configuration and the freeing of a log entry stand beside it. -/
def writeSen (who : Who) (w : Nat) (v : Word) : Op :=
  let plain := plainWrite who 23 w v
  if w = R.SEN_CTL then
    ops [setF 23 F.SEN_CTL.hz60 (F.SEN_CTL.hz60.get v), setF 23 F.SEN_CTL.udin (F.SEN_CTL.udin.get v),
      sentinelEnable (F.SEN_CTL.en.on v)]
  else if w = R.SEN_CHCFG then
    withD fun d =>
      let ch := d.fld 23 F.SEN_CHSEL.ch
      if 12 ≤ ch then skip else modSen fun s => { s with chcfg := s.chcfg.set! ch v }
  else if w = R.SEN_LOGCTL then
    both plain (whenB (F.SEN_LOGCTL.free.on v) (modSen fun s => { s with log := s.log.set! (F.SEN_LOGCTL.sel.get v) none }))
  else plain

/-! ### The host port, external memory and crypto -/

/-- Pages 0x020 to 0x023. Admin queue registers stand still while HP_CTL.en is 1, and a ring's base while its own en is; a
ring that is enabled takes what was withheld from it (R263, R271, R52). -/
def writeHp (who : Who) (p w : Nat) (v : Word) : Op :=
  let plain := plainWrite who p w v
  if p = 32 then
    if w = R.HP_CTL then hpCtlWrite (F.HP_CTL.en.on v) (F.HP_CTL.itmo.get v)
    else if R.HP_AQ_SQBASE_LO ≤ w ∧ w ≤ R.HP_AQ_SIZE then whenD (fun d => !(d.bit 32 F.HP_CTL.en)) plain
    else if 512 ≤ w ∧ w < 580 then whenD (fun d => d.proxied) (doorbell (4 * (w - 512)) v.toNat)
    else plain
  else if p = 35 then
    let r := (w - R.HP_RING0BASE_LO) / 10
    let off := (w - R.HP_RING0BASE_LO) % 10
    if off < 2 then whenD (fun d => !(d.bit 35 (ringF F.HP_RING0CTL.en r))) plain
    else if off = R.HP_RING0CTL - R.HP_RING0BASE_LO then both plain releaseAllWithheld
    else plain
  else plain

def writeExt (who : Who) (c : ChanId) (w : Nat) (v : Word) : Op :=
  if w = R.EXT_PLOGCTL ∧ F.EXT_PLOGCTL.free.on v then plogFree c (Fin.ofNat 16 (F.EXT_PLOGCTL.sel.get v))
  else plainWrite who (extPg c) w v

def writeCry (who : Who) (w : Nat) (v : Word) : Op :=
  let plain := plainWrite who 38 w v
  if w = R.CRY_MODE then cryModeWrite who (F.CRY_MODE.mode0.get v) (F.CRY_MODE.mode1.get v)
  else if w = R.CRY_RAMBLE then both plain (whenB (F.CRY_RAMBLE.force.on v) (rambleForce (F.CRY_RAMBLE.region.get v)))
  else plain

def writeCtr (who : Who) (w : Nat) (v : Word) : Op :=
  if w = R.CTR_LOSTSEL ∧ F.CTR_LOSTSEL.free.on v then lostLogFree (Fin.ofNat 16 (F.CTR_LOSTSEL.sel.get v))
  else if w = R.CTR_CCCTL then whenB (F.CTR_CCCTL.flush.on v) counterFlush
  else plainWrite who 39 w v

/-! ### Machine I/O -/

/-- The flash page: FL_CMD and the page buffer take nothing while an operation runs (R361). -/
def writeFl (who : Who) (w : Nat) (v : Word) : Op :=
  let plain := plainWrite who 40 w v
  if w = R.FL_CMD then
    if F.FL_CMD.op.get v = 1 then flashCmd who true else if F.FL_CMD.op.get v = 2 then flashCmd who false else skip
  else if 256 ≤ w then whenD (fun d => !(d.bit 40 F.FL_STAT.busy)) plain
  else plain

def writeEth (who : Who) (m : MacId) (w : Nat) (v : Word) : Op :=
  let p := ethPg m
  let plain := plainWrite who p w v
  if w = R.ETH_CTL then
    both (setF p F.ETH_CTL.promisc (F.ETH_CTL.promisc.get v)) (ethEnable m (F.ETH_CTL.en.on v) (F.ETH_CTL.rate.get v))
  else if w = R.ETH_GCLCTL then both plain (whenB (F.ETH_GCLCTL.change.on v) (gclChange m))
  else plain

def writeSer (who : Who) (x : SerialId) (w : Nat) (v : Word) : Op :=
  if w = R.SER_TX then serTxPush x v else plainWrite who (serPg x) w v

def writeIo (who : Who) (b : BankId) (w : Nat) (v : Word) : Op :=
  let p := ioPg b
  let plain := plainWrite who p w v
  if w = R.IO_DLYVAL then delayWrite b (F.IO_DLYVAL.target.get v)
  else if w = R.MB_CMD then
    if b.val < 4 ∧ F.MB_CMD.start.on v then
      mbStart (Fin.ofNat 4 b.val) (F.MB_CMD.addr.get v) (F.MB_CMD.wlen.get v) (F.MB_CMD.rlen.get v)
    else skip
  else plain

/-! ### Links and lanes -/

def writeLnk (who : Who) (q : PortId) (w : Nat) (v : Word) : Op :=
  let p := lnkPg q
  let plain := plainWrite who p w v
  if w = R.LNK_CTL then
    ops [forAll [F.LNK_CTL.enc_req, F.LNK_CTL.rx_mem, F.LNK_CTL.rx_ext, F.LNK_CTL.rx_reg] fun f => setF p f (f.get v),
      linkEnable q (F.LNK_CTL.en.on v), whenB (F.LNK_CTL.retrain.on v) (linkRetrain q)]
  else if q.val = 0 ∧ w = R.LNK_DEV then
    steered plain
  else if q.val = 0 ∧ w = R.LNK_WMCTL ∧ F.LNK_WMCTL.flip.on v then
    linkWaymarkFlip (F.LNK_WMCTL.tbl.on v) (F.LNK_WMCTL.entry.get v)
  else if q.val = 0 ∧ w = R.LNK_PROXY then whenD (fun d => !(d.bit 32 F.HP_CTL.en)) plain
  else plain

def writeLn (who : Who) (l : LaneId) (w : Nat) (v : Word) : Op :=
  let plain := plainWrite who (lnPg l) w v
  if w = R.LN_TXEQ then txeqWrite l (F.LN_TXEQ.pre.get v) (F.LN_TXEQ.main.get v) (F.LN_TXEQ.post.get v)
  else if w = R.LN_TEST then
    ops [laneTest l (F.LN_TEST.loop.get v) (F.LN_TEST.gen.get v) (F.LN_TEST.chk.get v),
      whenB (F.LN_TEST.inject.on v) (prbsInject l), whenB (F.LN_TEST.clear.on v) (prbsClear l)]
  else if w = R.LN_ETHSEL then whenB (l.val == 44) (ethselWrite (F.LN_ETHSEL.eth.on v))
  else plain

/-! ### The steward, self-test -/

/-- Pages 0x001 to 0x004. `fs` is what reads of memory that the write starts find. -/
def writeStw (who : Who) (p w : Nat) (v : Word) (fs : List LineFound) : Op :=
  let plain := plainWrite who p w v
  if p = 1 then
    if w = R.STW_LCREQ then (if F.STW_LCREQ.go.on v then lcRequest (F.STW_LCREQ.target.get v) fs else plain)
    else if w = R.STW_WDT then stwWdtWrite who (F.STW_WDT.en.on v) (F.STW_WDT.dbg_pause.on v) (F.STW_WDT.period.get v)
    else if w = R.STW_WDTKICK then stwKick (v.toNat % 65536)
    else if w = R.STW_ROLLCTL then (if F.STW_ROLLCTL.go.on v then rollback (F.STW_ROLLCTL.slot.get v) else plain)
    else plain
  else if p = 2 then
    if w = R.STW_MEASSEL then meassel (Fin.ofNat 16 (F.STW_MEASSEL.slot.get v))
    else if w = R.STW_EXTCTL then both plain (whenB (F.STW_EXTCTL.go.on v) (extendWrite (F.STW_EXTCTL.slot.get v) fs))
    else if w = R.STW_ATTCTL then whenB (F.STW_ATTCTL.go.on v) (withD fun d => attestWrite who (d.stw.askedBy who) fs)
    else if w = R.STW_DBGCTL then both plain (whenB (F.STW_DBGCTL.new_nonce.on v) nonceWrite)
    else if w = R.STW_TOKDATA then tokenData v
    else if w = R.STW_TOKCTL then
      ops [whenB (F.STW_TOKCTL.submit.on v) tokenSubmit, whenB (F.STW_TOKCTL.flush.on v) tokenFlush,
        whenB (F.STW_TOKCTL.end.on v) sessionEnd]
    else plain
  else if p = 4 ∧ w = R.STW_SVCCTL then
    if !(F.STW_SVCCTL.go.on v) then plain
    else
      match F.STW_SVCCTL.op.get v with
      | 1 => service who 1 (sealOp fs (fs.drop 66))
      | 2 => service who 2 (unsealOp fs (fs.drop 67))
      | 3 => service who 3 (deriveOp fs)
      | 4 => service who 4 (slotUpdate fs)
      | o => serviceOther who o
  else plain

def writeSt (who : Who) (p w : Nat) (v : Word) : Op :=
  let plain := plainWrite who p w v
  if p = 6 then
    if w = R.ST_CTL ∧ F.ST_CTL.go.on v then stCtl (F.ST_CTL.test.get v) (F.ST_CTL.target.get v) else plain
  else
    if w = R.ST_SCANCTL then both plain (whenB (F.ST_SCANCTL.enter.on v) (scanEnter who))
    else if w = R.ST_SCANDATA then scanShift
    else if w = R.ST_EXPCLR then whenB (F.ST_EXPCLR.clear.on v) expClear
    else plain

/-! ### The debug page for initiators other than the debugger (R455, R466) -/

def writeDbgOther (who : Who) (w : Nat) (v : Word) : Op :=
  if w = R.DBG_VTOUT then vtOutWrite who (F.DBG_VTOUT.byte.get v)
  else if w = R.DBG_VTIN then skip
  else if w = R.DBG_EV then plainWrite who 5 w v
  else skip

/-! ### One block register -/

/-- The write of a block register or table word of an ungated page out of reset. `dbg` is what the debugger's writes of page
0x005 do. -/
def blockWriteBy (dbg : Nat → Word → Op) (who : Who) (p w : Nat) (v : Word) (fs : List LineFound) : Op :=
  match kindOf p with
  | none => skip
  | some k =>
    if onlyOn k p w then skip
    else
      match k with
      | .rgn => writeRgn who (Fin.ofNat 64 (p - 256)) w v
      | .ni => writeNi who (Fin.ofNat 64 (p - 320)) w v
      | .vlt => writeVlt who (Fin.ofNat 64 (p - 384)) w v
      | .eng => writeEng who (Fin.ofNat 256 (p - 512)) w v
      | .evt => writeEvt who (p - 8) w v
      | .time => skip
      | .clkD | .clkE | .clkF | .clk10 => writeClk who p w v
      | .pwr1 | .pwr2 | .pwr3 | .pwr4 | .pwr5 | .pwr6 => writePwr who p w v
      | .sen => writeSen who w v
      | .hp0 | .hp1 | .hp2 | .hp3 => writeHp who p w v
      | .ext => writeExt who (Fin.ofNat 2 (p - 36)) w v
      | .cry => writeCry who w v
      | .ctr => writeCtr who w v
      | .fl => writeFl who w v
      | .eth => writeEth who (Fin.ofNat 2 (p - 41)) w v
      | .ser => writeSer who (Fin.ofNat 16 (p - 48)) w v
      | .io => writeIo who (Fin.ofNat 10 (p - 64)) w v
      | .lnk => writeLnk who (Fin.ofNat 12 (p - 80)) w v
      | .ln => writeLn who (Fin.ofNat 48 (p - 96)) w v
      | .stw1 | .stw2 | .stw3 | .stw4 => writeStw who p w v fs
      | .st6 | .st7 => writeSt who p w v
      | .dbg => if who = .debugger then dbg w v else writeDbgOther who w v
      | .dev => plainWrite who p w v

end Sys2Proof.Machine
end

