-- ==== Sys2Proof/Machine/Registers.lean ====
section
/-!
DEFINITION. Access to the register window (02_register_pages_and_events.md, R35 to R47, R49 to R55, R509): the header of a
page, gating and reset, unlocking, latches, and one access of 32 or 64 bits by any initiator. The write of a block register
is in Machine/RegWrite.lean, what a register shows in Machine/RegView.lean.
-/

namespace Sys2Proof.Machine

/-! ### The header (R40 to R46) -/

/-- A page has a field that only an unlock opens, PG_GATE.clk_en of a privileged page among them (PG_CAP.lockable). -/
def lockablePage (p : Nat) (k : Kind) : Bool :=
  privilegedPage p || k.regs.any fun r => r.fields.any fun f => f.acc == .rwl

/-- PG_STAT.ready: the block is clocked, powered, out of reset and initialised; a region's page needs no initialisation of
its own (04). -/
def Device.pageReady (d : Device) (p : Nat) : Bool :=
  !(d.gated p) && !(d.inReset p) && (kindOf p == some .rgn || d.bit p fReady)

/-- A header register as it reads (02, the page header's tables). -/
def Device.headerWord (d : Device) (p w : Nat) : Word :=
  match kindOf p with
  | none => 0
  | some k =>
    match w with
    | 0 => wordOf (k.code * 2 ^ 24 + (p - k.first) % 256 * 2 ^ 8 + 1)
    | 1 => wordOf (bitN (privilegedPage p) 11 + bitN (lockablePage p k) 10 + bitN (gateFixed p) 9 + k.regCount)
    | 2 => if gateFixed p then 1 else d.reg p 2
    | 3 => overlay (d.reg p 3) [(⟨3, 4, 4⟩, bitN (!(d.domOn (pageDomain p))) 0), (⟨3, 3, 3⟩, bitN (!(d.clocked p)) 0),
        (fReady, bitN (d.pageReady p) 0)]
    | _ => d.reg p w

/-- An access to a block register ends in a bus error: the page index is not populated, or the page is privileged and gated or
without power (R35, R45). -/
def Device.regBusErr (d : Device) (p w : Nat) : Bool :=
  match kindOf p with
  | none => true
  | some k => privilegedPage p && d.gated p && 16 ≤ w && w < 16 + k.regCount

/-! ### Unlocking (R41, R42) -/

/-- A first key write begins a half-done unlock. -/
def beginUnlock (who : Who) (p key : Nat) : Op :=
  whenB (key == 0xA5C3) (both (setF p fHalf 1) (setF p fOwner who.id))

/-- The page may be unlocked by the initiator: in SEALED pages 0x003 and 0x004 open for the steward only (R45). -/
def Device.mayUnlock (d : Device) (p : Nat) (who : Who) : Bool := !((p == 3 || p == 4) && d.lcs == 2) || who == .steward

/-- A write of a key to PG_LOCK. -/
def lockWrite (who : Who) (p key : Nat) : Op :=
  both (cancelHalf who p) (withD fun d =>
    if d.bit p fOpen then whenB (d.fld p fOwner == who.id) (setF p fOpen 0)
    else if d.bit p fHalf then
      both (setF p fHalf 0)
        (if key = 0x5A3C then whenB (d.mayUnlock p who) (setF p fOpen 1) else beginUnlock who p key)
    else beginUnlock who p key)

/-! ### Gating and reset (R40, R43 to R46) -/

/-- What a block reset takes back: the page's block registers, and of what stands beside them what the chapters name (04, R172,
R217, R252, R275, R299, R315). A channel's mode, sweep and keys are not reached by the reset of a page of external memory or
crypto, since the steward alone changes them (R29, R320; notes/assumptions/57.md). -/
def blockReset (p : Nat) : Op :=
  match kindOf p with
  | some .rgn => keepRegs fun q w => q != p || !([R.RGN_CTXEV, R.RGN_FAULT, R.RGN_SPECEV].contains w)
  | some .ni => keepRegs fun q w => q != p || w < 16 || inSpine p w
  | some .vlt =>
    ops [keepRegs fun q w => q != p || !(w == R.VLT_ERREV || R.VLT_DMABASE ≤ w && w < 32), setF p F.VLT_LOGCTL.sel 0,
      setF p F.VLT_REMAP.sel 0,
      modV (Fin.ofNat 64 (p - 384)) fun v => { v with dma := Vector.replicate 4 {} },
      forAll (List.finRange 4) fun c => hostForgetAll (Who.dma (Fin.ofNat 64 (p - 384)) c).id]
  | some .eng =>
    let e : EngineId := Fin.ofNat 256 (p - 512)
    ops [resetPage p, dropResv e, clearG e, hostForgetAll (Who.engine e).id,
      modE e fun n => { ({} : Engine) with tcmBad := n.tcmBad, nmi := n.nmi, epc := n.epc, eaddr := n.eaddr, evbase := n.evbase
                                           ctxid := n.ctxid, fstat := n.fstat, live := n.live, stepMask := n.stepMask
                                           catchBrk := n.catchBrk, haltCause := n.haltCause, haltComp := n.haltComp
                                           halts := n.halts }]
  | some .lnk =>
    let q : PortId := Fin.ofNat 12 (p - 80)
    ops [portDown q, keepRegs fun r w => r != p || w < 16 || 31 ≤ w, forAll (portLanes q) applyEnable]
  | some .ln =>
    let l : LaneId := Fin.ofNat 48 (p - 96)
    ops [laneRetrain l, laneMacDown l, leaveReady l, whenB (p == 140) ethselLost, resetPage p, showOwner l]
  | some .ser => both (resetPage p) (modSer (Fin.ofNat 16 (p - 48)) fun _ => {})
  | some .eth => both (resetPage p) (modMac (Fin.ofNat 2 (p - 41)) fun _ => {})
  | some .ext =>
    both (keepRegs fun q w => q != p || w < 16 || 256 ≤ w || [R.EXT_STAT, R.EXT_SWEEP, R.EXT_PWR].contains w)
      (modX (Fin.ofNat 2 (p - 36)) fun x => { x with plog := Vector.replicate 16 none })
  | some .cry =>
    keepRegs fun q w => q != p || w < 16 || [R.CRY_MODE, R.CRY_STAT, R.CRY_RSTAT, R.CRY_KRSTALL, R.CRY_BLSTAT].contains w
  | some .ctr =>
    both (keepRegs fun q w => q != p || w < 16 || w == R.CTR_STAT) (modY fun y => { y with lostLog := Vector.replicate 16 none })
  | _ => resetPage p

/-- PG_GATE.blk_rst: the block is held in reset, or released; what it did while held is gone too. -/
def setBlkRst (p : Nat) (on : Bool) : Op :=
  whenD (fun d => d.inReset p != on)
    (ops [whenB on (both (blockReset p) (setF p fReady 0)), whenB (!on) (blockReset p), setB p fBlkRst on,
      match kindOf p with
      | some .ln => whenB (!on) (applyEnable (Fin.ofNat 48 (p - 96)))
      | _ => skip])

/-- PG_GATE.clk_en. Sources of the pages of external memory and crypto that fell due while their page was gated are raised when
it opens (14). -/
def setClkEn (p : Nat) (on : Bool) : Op :=
  ops [setB p fClkEn on,
    whenD (fun d => !(d.gated p)) (withD fun d =>
      forAll (d.inn.gateHeld.filter fun s => (srcPage s).1 == p) fun s =>
        both (modI fun n => { n with gateHeld := n.gateHeld.filter (· != s) }) (raise p (srcPage s).2))]

/-- A write of PG_GATE: nothing on the pages fixed by R43; clk_en of a privileged page under an open unlock only (R45). -/
def gateWrite (who : Who) (p : Nat) (v : Word) : Op :=
  if gateFixed p then skip
  else
    both (whenD (fun d => !(privilegedPage p) || d.unlockedFor p who) (setClkEn p (v.getLsbD 0)))
      (whenB (p != 1 && p != 2) (setBlkRst p (v.getLsbD 1)))

/-! ### EV_MASK and EV_PEND (R44, R49, R50) -/

/-- A write of EV_PEND: bits written 1 are cleared, but for those whose source sets them in this cycle. -/
def pendWrite (p : Nat) (v : Word) : Op :=
  whenD (fun d => !(d.gated p)) (withD fun d => clearBits p wPend (v &&& ~~~(d.reg p wRaw)).toNat)

/-- A write of EV_MASK: sources that are pending and no longer masked are delivered at once. -/
def maskWrite (p : Nat) (v : Word) : Op :=
  whenD (fun d => !(d.gated p)) (withD fun d =>
    both (setReg p wMask v)
      (forAll ((List.range (srcCount p)).filter fun b => d.regBit p wMask b && !(v.getLsbD b)) fun b =>
        whenD (fun d1 => d1.deliverable (pageSrc p b)) (deliverTo (pageSrc p b))))

/-! ### Reading one word -/

/-- Two registers share their latches: those of the time page are the registers of page 0x010 (R36). -/
def latchKey (p w : Nat) : Nat := regKey (if p = 12 then 16 else p) w

/-- A block register or table word as it reads live, with free bits of use `n` (R40, R44). -/
def Device.live (d : Device) (who : Who) (p w n : Nat) : Word :=
  match kindOf p with
  | none => 0
  | some k =>
    if d.gated p then 0
    else if d.inReset p then regDflt (regKey p w)
    else
      let open' : Nat := if d.adapting k p w then 0xFFFFFFFF else freeBits k w
      let free : Word := if onlyOn k p w then 0 else wordOf open' &&& keyMask (regKey p w)
      ((d.view who p w &&& keyMask (regKey p w)) &&& ~~~free) ||| (Config.freeWord n (regKey p w) &&& free)

/-- What the first read of a latched register by an initiator returns (R509). -/
def Device.latched (d : Device) (id : Nat) (p w : Nat) : Option Word :=
  (d.inn.latch.find? fun x => x.1 == id && x.2.1 == latchKey p w).map fun x => x.2.2

/-- An initiator's latch of a register is emptied. -/
def emptyLatch (id : Nat) (p w : Nat) : Op :=
  modI fun n => { n with latch := n.latch.filter fun x => !(x.1 == id && x.2.1 == latchKey p w) }

/-- An initiator's latch of a register is loaded. -/
def loadLatch (id : Nat) (p w : Nat) (v : Word) : Op :=
  both (emptyLatch id p w) (modI fun n => { n with latch := (id, latchKey p w, v) :: n.latch })

/-- What else the read of a register does: RC fields clear, SER_RX pops, DBG_ENGREG is denied while it does not act; a read by
the debugger changes nothing of the block (R8, R351, R456, R462). -/
def readEffect (who : Who) (p w : Nat) : Op :=
  match kindOf p with
  | none => skip
  | some k =>
    withD fun d =>
      if d.gated p || d.inReset p || onlyOn k p w then skip
      else
        let rc := (k.fieldsAt w).foldl (fun m f => if f.acc = .rc then m ||| f.mask else m) 0
        ops [whenB (rc != 0 && who != .debugger) (clearBits p w rc),
          whenB (k == .ser && w == R.SER_RX) (serRxPop who (Fin.ofNat 16 (p - 48))),
          whenB (k == .dbg && w == R.DBG_ENGREG && !(d.engregOpen)) denied]

/-- A 32-bit read of a word of a page by an initiator; `k` is given the value, or none on a bus error. `id` is the initiator ID whose
latches it uses. While the page is gated or held in reset its latches neither show nor change (R40, R44). -/
def readWordBy (id : Nat) (who : Who) (p w : Nat) (k : Option Word → Op) : Op :=
  withD fun d =>
    if d.regBusErr p w then k none
    else if w < 8 then k (some (d.headerWord p w))
    else if w < 16 then k (some 0)
    else
      withFree fun n =>
        if d.gated p || d.inReset p then k (some (d.live who p w n))
        else
          let v := (d.latched id p w).getD (d.live who p w n)
          let hi : List Nat := match kindOf p with
            | some kd => kd.latches w
            | none => []
          ops [emptyLatch id p w, forAll hi fun h => loadLatch id p h (d.live who p h n), readEffect who p w, k (some v)]

/-- A read by an initiator with its own latches. -/
def readWord (who : Who) (p w : Nat) (k : Option Word → Op) : Op := readWordBy who.id who p w k

/-! ### Writing one word -/

/-- A 32-bit write of a word of a page by an initiator. -/
def writeWord (dbg : Nat → Word → Op) (who : Who) (p w : Nat) (v : Word) (fs : List LineFound) : Op :=
  both (cancelHalf who p)
    (match w with
    | 2 => gateWrite who p v
    | 5 => maskWrite p v
    | 6 => pendWrite p v
    | 7 => lockWrite who p (v.toNat % 65536)
    | _ => whenB (16 ≤ w) (whenD (fun d => !(d.gated p) && !(d.inReset p))
        (blockWriteBy dbg who p w v fs)))

/-! ### Accesses (R35, R38, R47) -/

/-- An access is aligned, of 32 or 64 bits, and its page exists (R35, R38). -/
def goodAccess (off n : Nat) : Bool :=
  (n == 4 || n == 8) && off % n == 0 && off < 0x400000 && (kindOf (off / 4096)).isSome

/-- A read of `n` bytes at a byte offset of the register window; none is a bus error. A 64-bit read is two, the lower first. -/
def regReadBy (id : Nat) (who : Who) (off n : Nat) (k : Option (List Word) → Op) : Op :=
  let p := off / 4096
  let w := off % 4096 / 4
  if !(goodAccess off n) then k none
  else
    readWordBy id who p w fun a =>
      match a with
      | none => k none
      | some x =>
        if n = 4 then k (some [x])
        else readWordBy id who p (w + 1) fun b => k (b.map fun y => [x, y])

/-- A read by an initiator with its own latches. -/
def regRead (who : Who) (off n : Nat) (k : Option (List Word) → Op) : Op := regReadBy who.id who off n k

/-- A write of one or two words at a byte offset of the register window; `k` is told whether it was taken. -/
def regWriteBy (dbg : Nat → Word → Op) (who : Who) (off : Nat) (vs : List Word) (fs : List LineFound) (k : Bool → Op) : Op :=
  let p := off / 4096
  let w := off % 4096 / 4
  withD fun d =>
    if !(goodAccess off (4 * vs.length)) || d.regBusErr p w then k false
    else both (forAll vs.zipIdx fun x => writeWord dbg who p (w + x.2) x.1 fs) (k true)

/-- A write by an initiator other than the debugger. -/
def regWrite (who : Who) (off : Nat) (vs : List Word) (fs : List LineFound) (k : Bool → Op) : Op :=
  regWriteBy (fun _ _ => skip) who off vs fs k

/-- The form in which a bus error reaches the initiator of a register access (table Form of a bus error). Responses to fabrics,
DMA channels and remote devices carry theirs as packets. -/
def regError (who : Who) (off : Nat) (write : Bool) : Op :=
  match who with
  | .engine e =>
    withFree fun n =>
      if write then storeError e 0x0C (Config.freeWord n 0) else syncTrap e 0x0C (Config.freeWord n 0)
  | .host => barRefuse write off
  | .debugger => setF 5 F.DBG_STAT.bus_err 1
  | .steward => stwFault .busErr
  | _ => skip

/-! ### Reach (R33, R455) -/

/-- The registers that a debugger of a level below D2 reaches. -/
def debugReg (lvl p w : Nat) : Bool :=
  (p == 5 && w == R.DBG_STAT) ||
    (p == 2 && [R.STW_DBGCTL, R.STW_NONCE, R.STW_TOKDATA, R.STW_TOKCTL, R.STW_TOKSTAT].contains w) ||
    (1 ≤ lvl && (p == 5 || (p == 2 && [R.STW_ATTCTL, R.STW_ATTADDR_LO, R.STW_ATTADDR_LO + 1, R.STW_ATTSTAT].contains w)))

/-- The initiator reaches a register: fabrics, DMA channels and the loader reach none, the debugger by its level. -/
def Device.regReach (d : Device) (who : Who) (p w : Nat) : Bool :=
  match who with
  | .debugger => 2 ≤ d.dbgLevel || debugReg d.dbgLevel p w
  | .fabric _ | .dma _ _ | .loader => false
  | _ => true

/-- A register access of `n` words by an initiator that reaches them; else it is refused without reaching its target. -/
def ifReached (who : Who) (off n : Nat) (read : Bool) (o : Op) : Op :=
  withD fun d =>
    if (List.range n).all fun i => d.regReach who (off / 4096) (off % 4096 / 4 + i) then o
    else if who = .debugger then both denied (whenB read (emit (.device (off / 4096) (who.id :: List.replicate n 0))))
    else regError who off (!read)

/-- A read whose words are put out. -/
def readOut (who : Who) (off n : Nat) : Op :=
  ifReached who off (n / 4) true <| regRead who off n fun x =>
    match x with
    | some vs => emit (.device (off / 4096) (who.id :: vs.map (·.toNat)))
    | none => regError who off false

/-- A write to register `w` of a page by an initiator, as a command of its own: it cancels another's half-done unlock, and has
its effect. -/
def directWrite (who : Who) (p w : Nat) (o : Op) : Op :=
  ifReached who (4096 * p + 4 * w) 1 false
    (if (kindOf p).isSome then both (cancelHalf who p) o else regError who (4096 * p + 4 * w) true)

/-! ### The commands -/

/-- RC_READ (R8). -/
def execRcRead (who : Who) (p : Fin 1024) (w : Fin 1024) (s : State) : Result := go s (readOut who (4096 * p.val + 4 * w.val) 4)

/-- LO_READ_LATCH (R509). `wide`: a 64-bit read, of the pair. -/
def execLoReadLatch (who : Who) (p : Fin 1024) (w : Fin 1024) (wide : Bool) (s : State) : Result :=
  go s (readOut who (4096 * p.val + 4 * w.val) (if wide then 8 else 4))

/-- PG_LOCK_WRITE (R41, R42, R45). -/
def execPgLockWrite (who : Who) (p : Fin 1024) (key : BitVec 16) (s : State) : Result :=
  go s (directWrite who p.val 7 (lockWrite who p.val key.toNat))

/-- HALF_UNLOCK_TIMEOUT (R42). -/
def execHalfUnlockTimeout (p : Fin 1024) (s : State) : Result := go s (setF p.val fHalf 0)

/-- UNLOCK_EXPIRY (R41). -/
def execUnlockExpiry (p : Fin 1024) (s : State) : Result := go s (setF p.val fOpen 0)

/-- PG_GATE_WRITE (R40, R43 to R45). -/
def execPgGateWrite (who : Who) (p : Fin 1024) (v : Word) (s : State) : Result :=
  go s (directWrite who p.val 2 (gateWrite who p.val v))

/-- BLOCK_INIT_DONE (R40). The block is clocked, powered and out of reset, and has finished its initialisation. -/
def execBlockInitDone (p : Fin 1024) (s : State) : Result :=
  go s (whenD (fun d => (kindOf p.val).isSome && !(d.gated p.val) && !(d.inReset p.val)) (setF p.val fReady 1))

/-- EV_PEND_CLEAR (R44, R49). -/
def execEvPendClear (who : Who) (p : Fin 1024) (v : Word) (s : State) : Result :=
  go s (directWrite who p.val 6 (pendWrite p.val v))

/-- EV_MASK_WRITE (R44, R50, R53). -/
def execEvMaskWrite (who : Who) (p : Fin 1024) (v : Word) (s : State) : Result :=
  go s (directWrite who p.val 5 (maskWrite p.val v))

/-- WITHHELD_DELIVERY (R52). A destination is able again: what was withheld from it is delivered. -/
def execWithheldDelivery (s : State) : Result := go s releaseAllWithheld

/-- ROUTE_ENTRY_WRITE (R51, R53, R54). -/
def execRouteEntryWrite (who : Who) (src : Fin 660) (v : Word) (s : State) : Result :=
  go s (directWrite who (routePage src.val) (routeWord src.val) (routeWrite who src.val v))

/-- EVT_FORCE (R44, R53). A write of a source number to EVT_FORCE of an events page. -/
def execEvtForce (who : Who) (k : Fin 4) (src : BitVec 10) (s : State) : Result :=
  go s (directWrite who (8 + k.val) R.EVT_FORCE (forceSource src.toNat))

end Sys2Proof.Machine
end

