-- ==== Sys2Proof/Machine/KMem.lean ====
section
/-!
DEFINITION. The accesses of the sequencer engines (08, R196 to R209; 09, R226, R227, R229, R230, R233 to R236): where a virtual
address leads, the tightly coupled memories, the data cache, the store buffer, loads and stores, reservations, cache
maintenance. An access is one step, from its issue to its response, but for a load that misses in the data cache.
-/

namespace Sys2Proof.Machine

/-! ### Places -/

/-- A byte of a tightly coupled memory, among the memories of the part. -/
def tcmKey (e : EngineId) (va : Nat) : Nat := itcm e.val + va

/-- A device address lies in the register window. -/
def inRegs (a : Nat) : Bool := regBase ≤ a && a < regBase + 0x400000

/-- The trap cause of a data access that ends in a status (R177, R239). -/
def dataCause (st : Status) : Nat := if st = .poison then 0x0D else 0x0C

/-! ### Tightly coupled memories (R201) -/

/-- What the check of a word finds: counted and recorded; a word known to be uncorrectable is found so. `k` is told whether the
word is good. -/
def tcmCheck (e : EngineId) (va : Nat) (f : Found) (k : Bool → Op) : Op :=
  let mem := va / 0x10000
  let word := va % 0x10000 / 4
  withD fun d =>
    if (d.en e).tcmBad.contains (mem, word) || f == .uncorrectable then
      ops [modE e fun n => { n with tcmBad := if n.tcmBad.contains (mem, word) then n.tcmBad else (mem, word) :: n.tcmBad },
        setF (engPg e) F.ENG_MEMERR.uncorr 1, setF (engPg e) F.ENG_MEMERR.mem mem, setF (engPg e) F.ENG_MEMERR.word word,
        engCause e 2, k false]
    else
      match f with
      | .corrected _ => ops [incSat (engPg e) F.ENG_MEMERR.corr_count, engCause e 3, k true]
      | _ => k true

/-! ### The store buffer (R204 to R206) -/

/-- The bytes at an address as the engine's own stores in the buffer leave them (R234). -/
def bypass (sb : List PendStore) (a : Nat) (bs : List Byte) : List Byte :=
  bs.zipIdx.map fun x =>
    sb.foldl (fun b st =>
      match st with
      | .mem _ s data _ => if s ≤ a + x.2 ∧ a + x.2 < s + data.length then data.getD (a + x.2 - s) b else b
      | _ => b) x.1

/-- A write to a memory outside can leave the buffer: its target neither makes it wait nor is under test. -/
def Device.canWrite (d : Device) (e : EngineId) (a : Nat) : Bool :=
  !(d.memWaits true a) && d.memGate (engRgn e) e.val true a != .busyTest

/-- A store of the buffer can leave it now. -/
def Device.canStore (d : Device) (e : EngineId) : PendStore → Bool
  | .push p _ => 0 < (((d.rg (Fin.ofNat 64 (engRgn e))).down)[(fifoIndex e p).val]).engFree
  | .mem _ a _ _ => 2 ^ 54 ≤ a || d.canWrite e a
  | .bad a => d.canWrite e a

/-- A word goes into the down FIFO of a port (R208, R209). -/
def pushDown (e : EngineId) (p : Nat) (w : Word) : Op :=
  modR (Fin.ofNat 64 (engRgn e)) fun g =>
    let f := g.down[(fifoIndex e p).val]
    { g with down := g.down.set (fifoIndex e p).val { f with q := f.q ++ [w] } }

/-- A store to a tightly coupled memory: one of less than a word checks the word (R201). -/
def storeTcm (e : EngineId) (va key : Nat) (bs : List Byte) (f : Found) : Op :=
  let loc := key - itcm e.val
  let put : Op := ops [setBytes key bs, breakResv (key / 64)]
  if bs.length = 4 then
    both put (modE e fun n => { n with tcmBad := n.tcmBad.filter (· != (loc / 0x10000, loc % 0x10000 / 4)) })
  else tcmCheck e loc f fun ok => if ok then put else storeError e 0x0D (BitVec.ofNat 32 va)

/-- A store at a device address; an error is reported as R206 says. -/
def storeDevice (e : EngineId) (va a : Nat) (bs : List Byte) (f : LineFound) : Op :=
  let err (st : Status) : Op := both (engNote e 1 st a) (storeError e (dataCause st) (BitVec.ofNat 32 va))
  withD fun d =>
    if inRegs a then
      if bs.length ≠ 4 ∨ !(d.pathOk (engRgn e) a) then err .busErr
      else regWrite (.engine e) (a - regBase) [BitVec.ofNat 32 (Word.natOfBytes bs)] [] fun ok => whenB (!ok) (err .busErr)
    else if inWindow a then
      if !(d.pathOk (engRgn e) a) || !(d.domOn 76) || d.inn.closing.contains 76 then err .domainOff
      else hostPut (a - hostBase) bs fun st => whenB (st != .ok) (err st)
    else
      match d.memGate (engRgn e) e.val true a with
      | .ok => lineStore e.val a bs f fun st => whenB (st != .ok) (err st)
      | st => err st

/-- A line is written back as poisoned: its chunks, or the line in external memory, are known uncorrectable from now on (R202). -/
def storePoison (e : EngineId) (a : Nat) : Op :=
  withD fun d =>
    let st := d.memGate (engRgn e) e.val true a
    if st ≠ .ok then both (engNote e 1 st a) (storeError e 0x0C (BitVec.ofNat 32 a))
    else if inTier a then ops [forAll [a, a + 32] fun c => markBad (d.tierCell c / 32), breakResv (a / 64)]
    else both (poisonLine (extChan a) (extOff a / 64)) (breakResv (a / 64))

/-- One store leaves the buffer. -/
def doStore (e : EngineId) : PendStore → Op
  | .push p w => pushDown e p w
  | .mem va a bs f => if 2 ^ 54 ≤ a then storeTcm e va a bs f.c0 else storeDevice e va a bs f
  | .bad a => storePoison e a

/-- A store that has retired: it leaves at once where the buffer is empty and it can, else it waits in the buffer. -/
def putStore (e : EngineId) (st : PendStore) : Op :=
  withD fun d =>
    if (d.en e).sbuf.isEmpty && d.canStore e st then doStore e st else modE e fun n => { n with sbuf := n.sbuf ++ [st] }

/-- Stores leave the buffer in order, as far as they can; at most `n`. -/
def drainN (e : EngineId) : Nat → Op
  | 0 => skip
  | n + 1 =>
    withD fun d =>
      match (d.en e).sbuf with
      | [] => skip
      | st :: rest => if d.canStore e st then ops [modE e fun x => { x with sbuf := rest }, doStore e st, drainN e n] else skip

/-- The store buffer drains as far as it can. -/
def drain (e : EngineId) : Op := withD fun d => drainN e (d.en e).sbuf.length

/-- The buffer has a free entry: a store that finds it full holds retirement. -/
def Device.sbufRoom (d : Device) (e : EngineId) : Bool := (d.en e).sbuf.length < 8

/-- The buffer holds a store to a memory or register. -/
def Engine.storesWait (n : Engine) : Bool := n.sbuf.any fun st =>
  match st with
  | .push .. => false
  | _ => true

/-! ### Reads of device addresses -/

/-- A read of `n` bytes at a device address. It waits, with no effect, while its target makes it wait or is busy, a read of a
register or of host memory while stores wait in the buffer, and one of host memory while 8 reads are outstanding (R204). `k` is
given the status and the bytes; its network interface records an error, and counts a retry (R239). `kind` is the packet's. -/
def readDevice (e : EngineId) (kind a n : Nat) (f : LineFound) (done : Status → List Byte → Op) : Op :=
  let k (st : Status) (bs : List Byte) : Op := both (engNote e kind st a) (done st bs)
  withD fun d =>
    if inRegs a then
      if (d.en e).storesWait then skip
      else if n ≠ 4 then k .busErr []
      else if !(d.pathOk (engRgn e) a) then k .routeFault []
      else regRead (.engine e) (a - regBase) 4 fun x =>
        match x with
        | some ws => k .ok (ws.flatMap Word.bytes)
        | none => k .busErr []
    else if inWindow a then
      if (d.en e).storesWait then skip
      else if !(d.pathOk (engRgn e) a) then k .routeFault []
      else if !(d.domOn 76) || d.inn.closing.contains 76 then k .domainOff []
      else if !(d.readRoom e) && (linesOf (a - hostBase) n).any (fun p => (d.hostRead e.val p.1 p.2).isNone) then skip
      else hostFetch e.val (a - hostBase) n fun x =>
        match x with
        | some bs => k .ok bs
        | none => k .busErr []
    else if d.memWaits false a then skip
    else
      match d.memGate (engRgn e) e.val false a with
      | .busy | .busyTest => incReg (niPg (Fin.ofNat 64 (engRgn e))) R.NI_BUSYCNT
      | .ok => lineRead e.val a n f fun st bs => k st (bypass (d.en e).sbuf a bs)
      | st => k st []

/-! ### The data cache (R202, R204) -/

/-- The line of the data cache, by device address / 64. -/
def Engine.dline (n : Engine) (l : Nat) : Option CLine := (n.dc.find? fun x => x.1 == l).map (·.2)

/-- A line leaves the data cache; a dirty one goes to its target through the store buffer (R204). -/
def evict (e : EngineId) (l : Nat) (clean : Bool) : Op :=
  withD fun d =>
    match (d.en e).dline l with
    | none => skip
    | some c =>
      both (modE e fun n => { n with dc := n.dc.filter fun x => x.1 != l })
        (whenB (c.dirty && clean) (putStore e (.mem (64 * l % 2 ^ 32) (64 * l) c.data {})))

/-- The check of a word of a line that the data cache holds finds an uncorrectable error (R202): a clean line leaves, and is fetched again;
a dirty one leaves as poisoned, with an imprecise trap. The instruction does not retire (notes/assumptions/86.md). -/
def lineLost (e : EngineId) (l : Nat) (c : CLine) : Op :=
  whenD (fun d => d.sbufRoom e)
    (ops [modE e fun n => { n with dc := n.dc.filter fun x => x.1 != l },
      whenB c.dirty (both (putStore e (.bad (64 * l))) (storeError e 0x0D (BitVec.ofNat 32 (64 * l))))])

/-- A line enters the data cache, of 64 sets of 4 ways; the chapter does not say which line a full set loses. -/
def insertLine (e : EngineId) (l : Nat) (bs : List Byte) : Op :=
  withFree fun n => withD fun d =>
    let set := ((d.en e).dc.filter fun x => x.1 % 64 == l % 64).map (·.1)
    both (whenB (4 ≤ set.length) (evict e (set.getD (Config.freeNat n 0 % 4) 0) true))
      (modE e fun x => { x with dc := x.dc ++ [(l, { dirty := false, data := bs })] })

/-- Fill a line of the data cache; `k` is told how the fill ended. A poisoned line is not cached. -/
def fillLine (e : EngineId) (l : Nat) (f : LineFound) (k : Status → Op) : Op :=
  whenD (fun d => d.sbufRoom e)
    (readDevice e 0 (64 * l) 64 f fun st bs => if st = .ok then both (insertLine e l bs) (k .ok) else k st)

/-! ### Loads (R226, R227, R194) -/

/-- The word that a load leaves goes to its register. -/
def loadDone (e : EngineId) (op : LoadOp) (rd : GReg) (bs : List Byte) : Op :=
  let v := loadVal op (Word.natOfBytes bs)
  if op = .lwf then both (setFr e rd v) (nextPc e) else writeG e rd v

/-- SP_STAT of a port: free places of the down FIFO, words in the up FIFO (R209). -/
def Device.portStat (d : Device) (e : EngineId) (p : Nat) : Word :=
  let g := d.rg (Fin.ofNat 64 (engRgn e))
  wordOf (g.down[(fifoIndex e p).val].engFree * 2 ^ 16 + g.up[(fifoIndex e p).val].engWords)

/-- A pop of the up FIFO of a port. -/
def popUp (e : EngineId) (p : Nat) : Op :=
  modR (Fin.ofNat 64 (engRgn e)) fun g =>
    let f := g.up[(fifoIndex e p).val]
    { g with up := g.up.set (fifoIndex e p).val { f with q := f.q.drop 1, rd := (f.rd + 1) % 16 } }

/-- A load misses in the data cache: its line is asked for, and the engine runs ahead; it waits for a fill that is already on its way, and
for a miss place where all are taken (R194, R204). -/
def missOn (e : EngineId) (l : Nat) (va : Word) : Op :=
  withD fun d =>
    if (d.en e).fills.contains l then modE e fun n => { n with miss := some (l, va), fills := n.fills.erase l }
    else whenB (d.readRoom e) (modE e fun n => { n with miss := some (l, va), runAhead := some 0 })

/-- The effect of a load. `ahead`: a load that misses in the data cache begins run-ahead, and executes again once its line has
come; else (a debugger's step) it waits for the line. -/
def loadOp (ahead : Bool) (e : EngineId) (op : LoadOp) (rd rs1 : GReg) (off : BitVec 16) (f : LineFound) : Op :=
  withD fun d =>
    let n := d.en e
    let va := (d.g e rs1 + sext off)
    let a := va.toNat
    let sz := loadSize op
    let fin (st : Status) (bs : List Byte) : Op :=
      if st = .ok then loadDone e op rd bs else syncTrap e (dataCause st) va
    if a % sz ≠ 0 then syncTrap e 0x08 va
    else
      match n.place a with
      | .tcm => tcmCheck e a f.c0 fun ok => if ok then fin .ok (bypass n.sbuf (tcmKey e a) (d.bytes (tcmKey e a) sz)) else fin .poison []
      | .portData p =>
        let u := (d.rg (Fin.ofNat 64 (engRgn e))).up[(fifoIndex e p).val]
        if sz ≠ 4 then fin .busErr []
        else if u.engWords = 0 then skip
        else both (popUp e p) (fin .ok (Word.bytes (u.q.headD 0)))
      | .portStat p => if sz ≠ 4 then fin .busErr [] else fin .ok (Word.bytes (d.portStat e p))
      | .reserved => fin .busErr []
      | .nowhere => syncTrap e 0x0A va
      | .window x t =>
        if n.cached x t then
          let part (c : CLine) : List Byte := (c.data.drop (t % 64)).take sz
          match n.dline (t / 64) with
          | some c => if f.c0 = .uncorrectable then lineLost e (t / 64) c else fin .ok (part c)
          | none =>
            if ahead then missOn e (t / 64) va
            else fillLine e (t / 64) f fun st => withD fun d1 =>
              fin st (match (d1.en e).dline (t / 64) with
                | some c => part c
                | none => [])
        else readDevice e 0 t sz f fin

/-- The accesses of an instruction that a comparator may watch. -/
def memAccess (e : EngineId) (kind : Nat) (rs1 : GReg) (off : BitVec 16) (size : Nat) (d : Device) : List Access :=
  [{ kind := kind, addr := (d.g e rs1 + sext off).toNat, size := size }]

/-- LB (R226). -/
def execLb (e : EngineId) (rd rs1 : GReg) (off : BitVec 16) (f : LineFound) (s : State) : Result :=
  go s (kExec e (memAccess e 1 rs1 off 1) (loadOp true e .lb rd rs1 off f))

/-- LBU (R226). -/
def execLbu (e : EngineId) (rd rs1 : GReg) (off : BitVec 16) (f : LineFound) (s : State) : Result :=
  go s (kExec e (memAccess e 1 rs1 off 1) (loadOp true e .lbu rd rs1 off f))

/-- LH (R226). -/
def execLh (e : EngineId) (rd rs1 : GReg) (off : BitVec 16) (f : LineFound) (s : State) : Result :=
  go s (kExec e (memAccess e 1 rs1 off 2) (loadOp true e .lh rd rs1 off f))

/-- LHU (R226). -/
def execLhu (e : EngineId) (rd rs1 : GReg) (off : BitVec 16) (f : LineFound) (s : State) : Result :=
  go s (kExec e (memAccess e 1 rs1 off 2) (loadOp true e .lhu rd rs1 off f))

/-- LW (R226, R209, R227). -/
def execLw (e : EngineId) (rd rs1 : GReg) (off : BitVec 16) (f : LineFound) (s : State) : Result :=
  go s (kExec e (memAccess e 1 rs1 off 4) (loadOp true e .lw rd rs1 off f))

/-- LWF (R226). -/
def execLwf (e : EngineId) (fd rs1 : GReg) (off : BitVec 16) (f : LineFound) (s : State) : Result :=
  go s (kExec e (memAccess e 1 rs1 off 4) (loadOp true e .lwf fd rs1 off f))

/-! ### Stores (R226, R199, R202, R206, R209) -/

/-- The bytes of a line with some replaced. -/
def patch (line : List Byte) (o : Nat) (bs : List Byte) : List Byte := line.take o ++ bs ++ line.drop (o + bs.length)

/-- A store into a line of the data cache. -/
def cacheWrite (e : EngineId) (a : Nat) (bs : List Byte) : Op :=
  modE e fun n => { n with dc := n.dc.map fun x =>
    if x.1 = a / 64 then (x.1, { dirty := true, data := patch x.2.data (a % 64) bs }) else x }

/-- The effect of a store: the traps of its address, else it retires into the data cache, which allocates its line, or into the
store buffer. -/
def storeOp (e : EngineId) (op : StoreOp) (rs2 rs1 : GReg) (off : BitVec 16) (f : LineFound) : Op :=
  withD fun d =>
    let n := d.en e
    let va := (d.g e rs1 + sext off)
    let a := va.toNat
    let sz := storeSize op
    let v := if op = .swf then d.f e rs2 else d.g e rs2
    let bs := (Word.bytes v).take sz
    let put (st : PendStore) : Op := if d.sbufRoom e then both (nextPc e) (putStore e st) else skip
    if a % sz ≠ 0 then syncTrap e 0x09 va
    else
      match n.place a with
      | .tcm => put (.mem a (tcmKey e a) bs f)
      | .portData p => if sz ≠ 4 then syncTrap e 0x0C va else put (.push p v)
      | .portStat _ => if sz ≠ 4 then syncTrap e 0x0C va else nextPc e
      | .reserved => syncTrap e 0x0C va
      | .nowhere => syncTrap e 0x0B va
      | .window x t =>
        if wnWprot.get n.winA[x.val] = 1 then syncTrap e 0x0B va
        else if n.cached x t then
          (match n.dline (t / 64) with
            | some c => if f.c0 = .uncorrectable then lineLost e (t / 64) c else both (nextPc e) (cacheWrite e t bs)
            | none => fillLine e (t / 64) f fun st =>
              both (nextPc e) (if st = .ok then cacheWrite e t bs else storeError e (dataCause st) va))
        else put (.mem a t bs f)

/-- SB (R226). -/
def execSb (e : EngineId) (rs2 rs1 : GReg) (off : BitVec 16) (f : LineFound) (s : State) : Result :=
  go s (kExec e (memAccess e 2 rs1 off 1) (storeOp e .sb rs2 rs1 off f))

/-- SH (R226). -/
def execSh (e : EngineId) (rs2 rs1 : GReg) (off : BitVec 16) (f : LineFound) (s : State) : Result :=
  go s (kExec e (memAccess e 2 rs1 off 2) (storeOp e .sh rs2 rs1 off f))

/-- SW (R226, R209). -/
def execSw (e : EngineId) (rs2 rs1 : GReg) (off : BitVec 16) (f : LineFound) (s : State) : Result :=
  go s (kExec e (memAccess e 2 rs1 off 4) (storeOp e .sw rs2 rs1 off f))

/-- SWF (R226). -/
def execSwf (e : EngineId) (fs2 rs1 : GReg) (off : BitVec 16) (f : LineFound) (s : State) : Result :=
  go s (kExec e (memAccess e 2 rs1 off 4) (storeOp e .swf fs2 rs1 off f))

/-! ### Reservations (R207, R229) -/

/-- Where `lr.w` and `sc.w` are valid: data memory, the memory tier, external memory; as the byte's place among the memories. -/
def Engine.reservable (n : Engine) (e : EngineId) (va : Nat) : Option Nat :=
  match n.place va with
  | .tcm => if 0x10000 ≤ va then some (tcmKey e va) else none
  | .window _ a => if inTier a || inExt a then some a else none
  | _ => none

/-- The target that keeps the reservation of a granule: a vault, a channel, an engine's data memory. -/
def granuleTarget (g : Nat) : Nat :=
  let a := 64 * g
  if inTier a then a / 0x4000000 else if inExt a then 64 + (extChan a).val else 128 + (a - 2 ^ 54) / 2 ^ 18

/-- A reservation is set: the engine's own ends; a target that keeps 16 loses its oldest. -/
def setResv (e : EngineId) (g : Nat) : Op :=
  both (dropResv e)
    (modI fun n =>
      let same := n.resv.filter fun x => granuleTarget x.2 == granuleTarget g
      let kept := match same with
        | x :: _ => if 16 ≤ same.length then n.resv.erase x else n.resv
        | [] => n.resv
      { n with resv := kept ++ [(e.val, g)] })

/-- The line of an address in the data cache is written back if dirty, and invalidated (R229); where the store buffer is full it waits
(R204). -/
def flushFor (e : EngineId) (a : Nat) (k : Op) : Op :=
  if inTier a || inExt a then whenD (fun d => d.sbufRoom e || ((d.en e).dline (a / 64)).all (fun c => !c.dirty)) (both (evict e (a / 64) true) k)
  else k

/-- A read of a word for `lr.w`, past the data cache. -/
def resvRead (e : EngineId) (va a : Nat) (f : LineFound) (k : Status → List Byte → Op) : Op :=
  withD fun d =>
    if 2 ^ 54 ≤ a then
      tcmCheck e va f.c0 fun ok => k (if ok then .ok else .poison) (bypass (d.en e).sbuf a (d.bytes a 4))
    else readDevice e 5 a 4 f k

/-- The effect of `lr.w`. -/
def lrOp (e : EngineId) (rd rs1 : GReg) (f : LineFound) : Op :=
  withD fun d =>
    let va := d.g e rs1
    if va.toNat % 4 ≠ 0 then syncTrap e 0x08 va
    else
      match (d.en e).reservable e va.toNat with
      | none => syncTrap e 0x0A va
      | some a =>
        flushFor e a (resvRead e va.toNat a f fun st bs =>
          if st = .ok then both (setResv e (a / 64)) (writeG e rd (BitVec.ofNat 32 (Word.natOfBytes bs)))
          else syncTrap e (dataCause st) va)

/-- A window over an address refuses stores. -/
def Engine.storeProtected (n : Engine) (va : Nat) : Bool :=
  match n.place va with
  | .window x _ => wnWprot.get n.winA[x.val] == 1
  | _ => false

/-- The write of a successful `sc.w`; `k` is told how it ended. -/
def resvWrite (e : EngineId) (a : Nat) (v : Word) (f : LineFound) (k : Status → Op) : Op :=
  withD fun d =>
    if 2 ^ 54 ≤ a then both (storeTcm e (a - itcm e.val) a (Word.bytes v) f.c0) (k .ok)
    else
      match d.memGate (engRgn e) e.val true a with
      | .ok => lineStore e.val a (Word.bytes v) f fun st => both (engNote e 6 st a) (k st)
      | st => both (engNote e 6 st a) (k st)

/-- The effect of `sc.w`: 1 and the write where the engine holds the reservation, else 0 and no access. It waits while an older
store is in the buffer, and while its target makes it wait. -/
def scOp (e : EngineId) (rd rs1 rs2 : GReg) (f : LineFound) : Op :=
  withD fun d =>
    let n := d.en e
    let va := d.g e rs1
    if va.toNat % 4 ≠ 0 then syncTrap e 0x09 va
    else
      match n.reservable e va.toNat with
      | none => syncTrap e 0x0B va
      | some a =>
        if n.storeProtected va.toNat then syncTrap e 0x0B va
        else
          flushFor e a (withD fun d1 =>
            if !(d1.inn.resv.contains (e.val, a / 64)) then both (dropResv e) (writeG e rd 0)
            else if (d1.en e).storesWait || !(d1.canStore e (.mem 0 a [] {})) then skip
            else
              both (dropResv e) (resvWrite e a (d1.g e rs2) f fun st =>
                if st = .ok then writeG e rd 1 else syncTrap e (dataCause st) va))

/-- LR_W (R207, R229). -/
def execLrW (e : EngineId) (rd rs1 : GReg) (f : LineFound) (s : State) : Result :=
  go s (kStop e (memAccess e 1 rs1 0 4) (lrOp e rd rs1 f))

/-- SC_W (R207, R229). -/
def execScW (e : EngineId) (rd rs1 rs2 : GReg) (f : LineFound) (s : State) : Result :=
  go s (kStop e (memAccess e 2 rs1 0 4) (scOp e rd rs1 rs2 f))

/-! ### Fences and cache maintenance (R230, R235) -/

/-- The effect of `sync` and `isync`: the store buffer drains; they retire once it is empty. -/
def syncOp (e : EngineId) : Op := both (drain e) (whenD (fun d => (d.en e).sbuf.isEmpty) (nextPc e))

/-- The effect of `iinv`. -/
def iinvOp (e : EngineId) : Op :=
  both (drain e) (whenD (fun d => (d.en e).sbuf.isEmpty) (both (modE e fun n => { n with ic := [] }) (nextPc e)))

/-- Write back the line of the data cache that holds an address, which stays valid. -/
def cleanLine (e : EngineId) (l : Nat) : Op :=
  withD fun d =>
    match (d.en e).dline l with
    | some c =>
      whenB c.dirty
        (both (modE e fun n => { n with dc := n.dc.map fun x => if x.1 = l then (l, { x.2 with dirty := false }) else x })
          (putStore e (.mem (64 * l % 2 ^ 32) (64 * l) c.data {})))
    | none => skip

/-- The effect of a cache maintenance instruction: looked up like a store; nothing in local space or an uncached window. -/
def cacheOp (e : EngineId) (op : CacheOp) (rs1 : GReg) : Op :=
  withD fun d =>
    let n := d.en e
    let va := d.g e rs1
    match n.place va.toNat with
    | .nowhere => syncTrap e 0x0B va
    | .window x a =>
      if wnWprot.get n.winA[x.val] = 1 ∧ op ≠ .dinv then syncTrap e 0x0B va
      else if !(n.cached x a) then nextPc e
      else if !(d.sbufRoom e) then skip
      else
        both (nextPc e)
          (match op with
          | .dwb => cleanLine e (a / 64)
          | .dinv => evict e (a / 64) false
          | .dwbi => evict e (a / 64) true)
    | _ => nextPc e

/-- SYNC (R235). -/
def execSync (e : EngineId) (s : State) : Result := go s (kStop e (fun _ => []) (syncOp e))

/-- ISYNC (R230). -/
def execIsync (e : EngineId) (s : State) : Result := go s (kStop e (fun _ => []) (syncOp e))

/-- DWB (R230). -/
def execDwb (e : EngineId) (rs1 : GReg) (s : State) : Result := go s (kStop e (fun _ => []) (cacheOp e .dwb rs1))

/-- DINV (R230). -/
def execDinv (e : EngineId) (rs1 : GReg) (s : State) : Result := go s (kStop e (fun _ => []) (cacheOp e .dinv rs1))

/-- DWBI (R230). -/
def execDwbi (e : EngineId) (rs1 : GReg) (s : State) : Result := go s (kStop e (fun _ => []) (cacheOp e .dwbi rs1))

/-- IINV (R230). -/
def execIinv (e : EngineId) (s : State) : Result := go s (kStop e (fun _ => []) (iinvOp e))

end Sys2Proof.Machine
end

