-- ==== Sys2Proof/Machine/KStep.lean ====
section
/-!
DEFINITION. The engines beside their instructions: the end of a park, line fills, the fabric side of a down FIFO, the fetch of
an instruction and a debugger's step (08, R189, R194, R195, R208; 20, R461).
-/

namespace Sys2Proof.Machine

/-! ### Parking and fills -/

/-- ENGINE_PARK (R189). A write of park to ENG_CTL. -/
def execEnginePark (e : EngineId) (s : State) : Result := go s (pageWrite (engPg e) (parkWrite e))

/-- ENGINE_PARKED (R189). The reads of a parking engine have completed and its store buffer has drained; dirty lines are written back, and
it enters PARKED. -/
def execEngineParked (e : EngineId) (s : State) : Result :=
  go s <| whenD (fun d => d.engState e == esParking && d.rgnP (engRgn e) == 0)
    (both (drain e) (whenD (fun d => (d.en e).sbuf.isEmpty && d.engReads e == 0 && d.cacheReady e) (parkEnd e)))

/-- A line that a prefetch may have asked for: it lies in an enabled cacheable window whose spec is 1 (R194). -/
def Engine.mayHold (n : Engine) (l : Nat) : Bool :=
  (List.finRange 16).any fun x =>
    let a := n.winA[x.val]
    let sz := wnSize.get a
    wnEn.get a == 1 && wnSpec.get a == 1 && n.cached x (64 * l) && 64 * l / 2 ^ sz == (n.winB[x.val]).toNat * 65536 / 2 ^ sz

/-- The engine's reads return: its region is in P0, and its clock runs. -/
def Device.engReturns (d : Device) (e : EngineId) : Bool :=
  d.rgnP (engRgn e) == 0 && d.clocked (engPg e) && !(d.inReset (engPg e))

/-- The fill of a line that no load waits for enters the data cache, or is discarded without a trap. -/
def quietFill (e : EngineId) (l : Nat) (f : LineFound) : Op :=
  withD fun d =>
    if ((d.en e).dline l).isSome then modE e fun n => { n with fills := n.fills.erase l }
    else fillLine e l f fun _ => modE e fun n => { n with fills := n.fills.erase l }

/-- LINE_FILL_RETURN (R194, R195, R177, R189). The demand fill returns, run-ahead ends, and the engine resumes at the missing load;
uncorrectable data or an error is the load's trap, but not of an engine that parks. `pre` is the line of a fill whose load has ended, of
a prefetch that run-ahead has asked for, or of one that a load run ahead asks for while a miss place is free. -/
def execLineFillReturn (e : EngineId) (pre : Option (BitVec 30)) (f : LineFound) (s : State) : Result :=
  go s <| withD fun d =>
    let n := d.en e
    if !(d.engReturns e) then skip
    else
      match pre, n.miss with
      | some l, m =>
        if n.fills.contains l.toNat then quietFill e l.toNat f
        else
          whenB (n.runAhead.isSome && n.mayHold l.toNat && (n.dline l.toNat).isNone && m.all (fun x => x.1 != l.toNat) && d.readRoom e)
            (quietFill e l.toNat f)
      | none, some (l, va) =>
        whenB (d.engRuns e || d.engState e == esParking)
          (fillLine e l f fun st =>
            both (modE e fun n => { n with miss := none, runAhead := none })
              (whenB (st != .ok && d.engState e != esParking) (syncTrap e (dataCause st) va)))
      | none, none => skip

/-- SPD_POP (R208, R132, R210). The fabric pops the head word of down FIFO `k`; the word is put out. During a speculation it is
kept for the abort. Stores that waited for the place leave the engine's buffer. -/
def execSpdPop (r : RegionId) (k : Fin 32) (s : State) : Result :=
  go s <| withD fun d =>
    let g := d.rg r
    let f := g.down[k.val]
    if d.running r && d.enable r then
      match f.q with
      | w :: rest =>
        let held := if g.spec.isSome then w :: f.popped else f.popped
        let f' : Fifo := { f with q := rest, rd := (f.rd + 1) % 16, popped := held }
        ops [emit (.fabric r.val 3 [k.val, w.toNat]), modR r fun g => { g with down := g.down.set k.val f' },
          drain (Fin.ofNat 256 (4 * r.val + k.val / 8))]
      | [] => skip
    else skip

/-! ### The fetch of an instruction (R196, R199, R201, R202, R214) -/

/-- A line of the instruction cache. -/
def Engine.iline (n : Engine) (l : Nat) : Option (List Byte) := (n.ic.find? fun x => x.1 == l).map (·.2)

/-- A line enters the instruction cache, of 64 sets of 4 ways. -/
def insertCode (e : EngineId) (l : Nat) (bs : List Byte) : Op :=
  withFree fun n => modE e fun x =>
    let set := (x.ic.filter fun y => y.1 % 64 == l % 64).map (·.1)
    let gone := set.getD (Config.freeNat n 0 % 4) 0
    { x with ic := (if 4 ≤ set.length then x.ic.filter fun y => y.1 != gone else x.ic) ++ [(l, bs)] }

/-- The trap of a fetch that ends in a status. -/
def fetchTrap (e : EngineId) (st : Status) (pc : Word) : Op := syncTrap e (if st = .poison then 0x07 else 0x06) pc

/-- Fetch the instruction at the engine's address; `k` is given the word. A line of the instruction cache with a parity error leaves it
and is fetched again (R202). A fetch from data memory or a streaming port is a window fault (R236), one from the reserved part of
local space a bus error (R196; notes/assumptions/86.md). -/
def fetchWord (e : EngineId) (f : LineFound) (k : Word → Op) : Op :=
  withD fun d =>
    let n := d.en e
    let pc := n.pc
    let a := pc.toNat
    let word (bs : List Byte) : Word := BitVec.ofNat 32 (Word.natOfBytes bs)
    match n.place a with
    | .tcm =>
      if 0x10000 ≤ a then syncTrap e 0x05 pc
      else tcmCheck e a f.c0 fun ok =>
        if ok then k (word (d.bytes (tcmKey e a) 4)) else syncTrap e 0x07 pc
    | .reserved => syncTrap e 0x06 pc
    | .window x t =>
      if wnExec.get n.winA[x.val] = 0 then syncTrap e 0x05 pc
      else if n.cached x t then
        let part (bs : List Byte) : Word := word ((bs.drop (t % 64)).take 4)
        let refill (g : LineFound) : Op := readDevice e 0 (t / 64 * 64) 64 g fun st bs =>
          if st = .ok then both (insertCode e (t / 64) bs) (k (part bs)) else fetchTrap e st pc
        match n.iline (t / 64) with
        | some bs =>
          if f.c0 = .clean then k (part bs)
          else both (modE e fun m => { m with ic := m.ic.filter fun y => y.1 != t / 64 }) (refill { f with c0 := .clean })
        | none => refill f
      else readDevice e 0 t 4 f fun st bs => if st = .ok then k (word bs) else fetchTrap e st pc
    | _ => syncTrap e 0x05 pc

/-- The cause of a fetch fault (R232). -/
def fetchCode : FetchFault → Nat
  | .window => 0x05 | .bus => 0x06 | .data => 0x07

/-- A fetch at the engine's address can meet a fault: a window fault where it leads to no window, to one whose exec is 0, to data memory
or a port; a bus error in reserved local space, or through a window; uncorrectable data in instruction memory, or through a window
(R196, R199, R201, R214). -/
def Engine.fetchCan (n : Engine) (f : FetchFault) : Bool :=
  match n.place n.pc.toNat with
  | .tcm => if n.pc.toNat < 0x10000 then f == .data else f == .window
  | .reserved => f == .bus
  | .window x _ => if wnExec.get n.winA[x.val] = 1 then f != .window else f == .window
  | _ => f == .window

/-- INSTRUCTION_FETCH_FAULT (R199, R201, R214, R232). The fetch at the engine's address meets a window fault, a bus error
or uncorrectable data, and the marked instruction reaches WB; EPC and EADDR are its address. A TCM word is recorded. -/
def execInstructionFetchFault (e : EngineId) (f : FetchFault) (s : State) : Result :=
  go s <| withD fun d =>
    let pc := (d.en e).pc
    if d.engBoundary e ∧ (d.en e).fetchCan f then
      if f = .data ∧ pc.toNat < 0x10000 then tcmCheck e pc.toNat .uncorrectable fun _ => syncTrap e 0x07 pc
      else syncTrap e (fetchCode f) pc
    else skip

/-! ### One instruction (09) -/

/-- The effect of an instruction, its accesses finding `f`; a load waits for its line. -/
def kBody (e : EngineId) (f : LineFound) : K32 → Op
  | .alu op rd rs1 rs2 => aluOp e op rd rs1 rs2
  | .imm op rd rs1 v => immOp e op rd rs1 v
  | .shift op rd rs1 n => shiftOp e op rd rs1 n
  | .lui rd v => luiOp e rd v
  | .fp2 op rd rs1 rs2 => fp2Op e op rd rs1 rs2
  | .fp1 op rd rs1 => fp1Op e op rd rs1
  | .load op rd rs1 off => loadOp false e op rd rs1 off f
  | .store op rs2 rs1 off => storeOp e op rs2 rs1 off f
  | .lrw rd rs1 => lrOp e rd rs1 f
  | .scw rd rs1 rs2 => scOp e rd rs1 rs2 f
  | .branch op rs1 rs2 off => branchOp e op rs1 rs2 off
  | .jal off => jumpOp e true off
  | .j off => jumpOp e false off
  | .jalr rd rs1 v => jalrOp e rd rs1 v
  | .mfcr rd c => mfcrOp e rd c
  | .mtcr c rs1 => mtcrOp e c rs1
  | .mtcrm c rs1 gm => mtcrmOp e c rs1 gm
  | .cache op rs1 => cacheOp e op rs1
  | .sys0 .sync => syncOp e
  | .sys0 .isync => syncOp e
  | .sys0 .iinv => iinvOp e
  | .sys0 .sys => syncTrap e 0x03 0
  | .sys0 .brk => brkOp e
  | .sys0 .tret => tretOp e
  | .sys0 .idle => idleOp e

/-- What is taken at the boundary before an instruction: an imprecise store trap, an NMI, and an interrupt; where they are held,
only of a live line (R206, R211, R212, R233, R461). -/
def boundary (e : EngineId) (hold : Bool) : Op :=
  withD fun d =>
    let n := d.en e
    match n.storeErr with
    | some (c, a) => both (modE e fun n => { n with storeErr := none }) (enterTrap e c n.pc a true false)
    | none =>
      if n.nmi then enterNmi e
      else if hold then
        match d.liveLine e with
        | some i => enterTrap e (0x10 + i) n.pc 0 false false
        | none => skip
      else if esIe.get n.estat == 1 then
        match d.irqLine e with
        | some i => enterTrap e (0x10 + i) n.pc 0 false false
        | none => skip
      else skip

/-! ### A debugger's step (R461) -/

/-- A write of step to DBG_ENGCTL: a halted engine leaves MONITOR, retires one instruction and halts again; one that traps halts
at its handler. An instruction that waits does not retire, and the engine halts at it (notes/assumptions/58.md). -/
def engineStep (e : EngineId) (code data : LineFound) : Op :=
  whenD (fun d => d.engState e == esMonitor && d.rgnP (engRgn e) == 0 && !(d.en e).liveRuns)
    (ops [leaveMonitorWdt e, setF (engPg e) F.ENG_STAT.state esRunning,
      withD fun d => boundary e (d.en e).stepMask,
      fetchWord e code fun w =>
        match decodeKE32 w with
        | some i => kBody e data i
        | none => syncTrap e 0x01 w,
      whenD (fun d => d.engState e == esRunning) (enterMonitor e 2 0)])

/-- ENGINE_STEP (R461). The debugger writes DBG_ENGSEL.engine and step; `code` and `data` are what the fetch and the accesses
find. -/
def execEngineStep (e : EngineId) (code data : LineFound) (s : State) : Result :=
  go s (debuggerWrite (both (setF 5 F.DBG_ENGSEL.engine e.val) (engineStep e code data)))

end Sys2Proof.Machine
end

