-- ==== Sys2Proof/Machine/DebugPage.lean ====
section
/-!
DEFINITION. The debugger's writes of page 0x005 (20, R458 to R468), the write of a register by any initiator (R8, R35, R38), and
the completion of an access of the debug port (R453 to R457).
-/

namespace Sys2Proof.Machine

/-! ### The debugger's writes of the debug page -/

/-- DBG_ENGCTL. The engine's state before the write decides which of halt, resume and step it takes. -/
def engctlWrite (fs : List LineFound) (v : Word) : Op :=
  withD fun d =>
    let e := d.selEngine
    ops [modE e fun n => { n with stepMask := F.DBG_ENGCTL.step_mask.on v, catchBrk := F.DBG_ENGCTL.catch_brk.on v },
      if d.engState e = esMonitor then
        if F.DBG_ENGCTL.step.on v then engineStep e (fs.headD {}) (fs.tail.headD {})
        else whenB (F.DBG_ENGCTL.resume.on v) (engineResume e)
      else whenB (F.DBG_ENGCTL.halt.on v) (engineHalt e)]

/-- DBG_BRKCTL of the selected comparator. Writing en as 1 re-arms a link after; `hit` says what matched since enabled. -/
def brkctlWrite (v : Word) : Op :=
  withD fun d =>
    modCmp (d.fld 5 F.DBG_BRKSEL.sel) fun c =>
      let v' := keepUnless c.ctl (keepUnless c.ctl v cKind (· < 5)) cLink (· < 3)
      let w := writtenWord (Kind.dbg.fieldsAt R.DBG_BRKCTL) true c.ctl v'
      let armed := if cEn.on v then cArmed.set 0 w else w
      { c with ctl := if cEn.on v && !(c.is cEn) then cHit.set 0 armed else armed }

/-- DBG_SNAPCTL. -/
def snapctlWrite (v : Word) : Op :=
  let r : RegionId := Fin.ofNat 64 (F.DBG_SNAPCTL.region.get v)
  ops [setF 5 F.DBG_SNAPCTL.region r.val, setB 5 F.DBG_SNAPCTL.bram (F.DBG_SNAPCTL.bram.on v),
    whenB (F.DBG_SNAPCTL.halt.on v) (haltRegion r), whenB (F.DBG_SNAPCTL.resume.on v) (resumeRegion r),
    whenD (fun d => F.DBG_SNAPCTL.go.on v && 2 ≤ d.dbgLevel) (snapshotGo r (F.DBG_SNAPCTL.bram.on v))]

/-- A write of the debug page by the debugger. `fs` is what a step's fetch and access find. -/
def debuggerPage (fs : List LineFound) (w : Nat) (v : Word) : Op :=
  withD fun d =>
    let sel := d.fld 5 F.DBG_BRKSEL.sel
    let plain := plainWrite .debugger 5 w v
    if w = R.DBG_STAT ∨ w = R.DBG_EV then plain
    else debuggerWrite (
      if w = R.DBG_ENGSEL ∨ w = R.DBG_BRKSEL ∨ w = R.DBG_SNAPADDR then plain
      else if w = R.DBG_ENGCTL then engctlWrite fs v
      else if w = R.DBG_ENGREG then engregWrite v
      else if w = R.DBG_LIVE then modE d.selEngine fun n => { n with live := v.toNat % 65536 }
      else if w = R.DBG_BRKCTL then brkctlWrite v
      else if w = R.DBG_BRKLO then modCmp sel fun c => { c with lo := v }
      else if w = R.DBG_BRKHI then modCmp sel fun c => { c with hi := v }
      else if w = R.DBG_BRKTAG then modCmp sel fun c => { c with tag := v }
      else if w = R.DBG_VTOUT then whenB (F.DBG_VTOUT.valid.on v) vtOutConsume
      else if w = R.DBG_VTIN then vtInWrite (F.DBG_VTIN.byte.get v)
      else if w = R.DBG_SNAPCTL then snapctlWrite v
      else skip)

/-! ### REGISTER_WRITE -/

/-- A write of one or two registers at an offset of the register window, by any initiator; `fs` is what reads of memory that it
starts find. -/
def regStore (who : Who) (off : Nat) (vs : List Word) (fs : List LineFound) (k : Bool → Op) : Op :=
  regWriteBy (debuggerPage fs) who off vs fs k

/-- REGISTER_WRITE (R8, R35, R38, R40 to R47). -/
def execRegisterWrite (who : Who) (off : BitVec 22) (vs : List Word) (fs : List LineFound) (s : State) : Result :=
  go s (ifReached who off.toNat vs.length false
    (regStore who off.toNat vs fs fun ok => whenB (!ok) (regError who off.toNat true)))

/-! ### The end of a debug access (R453 to R457) -/

/-- How an access of the port ends. -/
inductive DkEnd
  /-- it has completed; a read with its data, and the poison of an uncorrectable chunk -/
  | done (data : Word) (poison : Bool)
  | busErr
  | denied
  | timeout
deriving DecidableEq, Repr

/-- The access has ended: its result, its address's advance, or the error hold. -/
def dkEnd (x : DkEnd) : Op :=
  let hold : Op := modDk fun k => { k with access := none, result := none, hold := true }
  match x with
  | .done w p =>
    both (modDk fun k => { k with
      access := none
      result := match k.access with
        | some a => if a.write.isNone && !a.dropped then some w else none
        | none => none
      lo := if k.inc then (k.lo + 4) % 2 ^ 32 else k.lo
      poison := k.poison || p })
      (whenB p (setF 5 F.DBG_STAT.poison 1))
  | .busErr => ops [hold, modDk fun k => { k with busErr := true }, setF 5 F.DBG_STAT.bus_err 1]
  | .denied => ops [hold, modDk fun k => { k with denied := true }, denied]
  | .timeout => both hold (modDk fun k => { k with timeout := true })

/-- The end of an access by its status; one that meets a busy target or a test goes on waiting (R239, R471). -/
def dkStatus (st : Status) (data : Word) : Op :=
  match st with
  | .ok => dkEnd (.done data false)
  | .poison => dkEnd (.done data true)
  | .timeout => dkEnd .timeout
  | .busy | .busyTest => skip
  | _ => dkEnd .busErr

/-- The status of a code. -/
def statusOf (c : Nat) : Status :=
  match c with
  | 0 => .ok | 2 => .poison | 3 => .domainOff | 4 => .routeFault | 5 => .loading | 6 => .timeout | 7 => .busyTest | 8 => .busy
  | 9 => .scFail | _ => .busErr

/-- The debugger reaches a device address at its level (R455). -/
def Device.debugReach (d : Device) (a : Nat) : Bool :=
  let off := a - regBase
  let own := match d.stw.dbgBuf with
    | some (b, n) => 1 ≤ d.dbgLevel && b ≤ a && a + 4 ≤ b + n
    | none => false
  if 2 ≤ d.dbgLevel then
    inTier a || inExt a || (regBase ≤ a && a < regBase + 0x400000) || (thermosBase ≤ a && a < thermosBase + 0x400000) ||
      (flashBase ≤ a && a < flashBase + 0x8000000)
  else own || (regBase ≤ a && a < regBase + 0x400000 && debugReg d.dbgLevel (off / 4096) (off % 4096 / 4))

/-- An access to a register page. -/
def dkRegAccess (off : Nat) (write : Option Word) (fs : List LineFound) : Op :=
  match write with
  | some v => regStore .debugger off [v] fs fun ok => dkEnd (if ok then .done 0 false else .busErr)
  | none =>
    regRead .debugger off 4 fun x =>
      match x with
      | some vs => dkEnd (.done (vs.headD 0) false)
      | none => dkEnd .busErr

/-- An access to a memory, by router 6. -/
def dkMemAccess (a : Nat) (write : Option Word) (fs : List LineFound) : Op :=
  match write with
  | some v => memWrite 6 0x102 a (Word.bytes v) fs fun st _ => dkStatus st 0
  | none =>
    withD fun d =>
      let poisoned := inTier a && d.memGate 6 0x102 false a == .ok
      memRead 6 0x102 a 4 fs fun st _ bs =>
        if st = .poison ∧ poisoned then
          withD fun d1 => dkStatus .poison (BitVec.ofNat 32 (Word.natOfBytes ((List.range 4).map fun i => d1.tierByte (a + i))))
        else if st = .poison then dkEnd (.done (BitVec.ofNat 32 (d.num a 4)) true)
        else dkStatus st (BitVec.ofNat 32 (Word.natOfBytes bs))

/-- A local access (R453, R455); in P3 the debug page only (R457). -/
def dkLocal (a : Nat) (write : Option Word) (fs : List LineFound) : Op :=
  withD fun d =>
    let w := a % 4096 / 4
    if !(d.debugReach a) then dkEnd .denied
    else if d.inP3 then
      if a / 4096 ≠ regBase / 4096 + 5 then dkEnd .denied
      else if w < 16 ∨ w = R.DBG_STAT ∨ w = R.DBG_EV then dkRegAccess (a - regBase) write fs
      else dkEnd (.done 0 false)
    else if regBase ≤ a ∧ a < regBase + 0x400000 then dkRegAccess (a - regBase) write fs
    else dkMemAccess a write fs

/-- DEBUG_ACCESS_DONE (R453 to R457, R47). The access of a DK_DATA frame is carried out at its target and ends; a global one ends
with its response. `fs` is what the target's checks find. -/
def execDebugAccessDone (fs : List LineFound) (s : State) : Result :=
  dkGo s <| withD fun d =>
    match d.inn.dk.access with
    | none => skip
    | some x =>
      if d.dkGlobal x.hi then
        if d.dbgLevel < 2 ∨ d.inn.phase ≠ .up then dkEnd .denied
        else
          match x.resp with
          | some (st, poison, data) => if poison then dkEnd (.done data true) else dkStatus (statusOf st) data
          | none => skip
      else dkLocal ((x.hi % 65536) * 2 ^ 32 + x.lo) x.write fs

end Sys2Proof.Machine
end

