-- ==== Sys2Proof/Machine/HostBars.lean ====
section
/-!
DEFINITION. The host's requests to BAR0 and BAR2 (11_host_port.md, R256, R257, R259): register accesses, and line requests in
the tile network with the answers to them.
-/

namespace Sys2Proof.Machine

/-- The endpoint takes requests: its domain is on, the link is up, PERST_N is released. -/
def Device.barOpen (d : Device) : Bool := d.portPower && d.bit 32 F.HP_LINK.up && !d.host.perst

/-- BAR0_ACCESS (R38, R256). A request at an offset of the register window: a read of `n` bytes, or a write of words.
`contiguous`: its byte enables are. What a write starts finds `fs`. -/
def execBar0Access (off : BitVec 22) (n : Nat) (contiguous : Bool) (write : Option (List Word)) (fs : List LineFound)
    (s : State) : Result :=
  go s <| whenD (fun d => d.barOpen) <|
    match write with
    | some vs =>
      if n ≠ 4 * vs.length ∨ !contiguous then barRefuse true off.toNat
      else regWrite .host off.toNat vs fs fun ok => whenB (!ok) (barRefuse true off.toNat)
    | none =>
      if !contiguous then barRefuse false off.toNat
      else regRead .host off.toNat n fun x =>
        match x with
        | some vs => emit (.hostCpl true false (vs.flatMap Word.bytes))
        | none => barRefuse false off.toNat

/-! ### BAR2 (R257) -/

/-- The range of BAR2 lies in the memory tier or in populated external memory. -/
def Device.bar2Ok (d : Device) (a n : Nat) : Bool :=
  (linesOf a n).all fun p => inTier p.1 || (inExt p.1 && extOff p.1 < d.extGib (extChan p.1) * 2 ^ 30)

/-- A line request of the host port, from router 3 in class 2. -/
def hostPacket (kind seq a be : Nat) (data : List Byte) : Op :=
  withD fun d =>
    match destOf a with
    | some (m, x) =>
      let p : Packet :=
        { kind := kind, cls := 2, tag := 0, src := 0x100, dev := d.devnum, addr := a / 64 * 64, be := be, word := 0, data := data
          pos := 3, rexit := 2, seq := seq, dirs := d.route' 3 m, exit := x }
      modNet fun ps => ps ++ [p]
    | none => skip

/-- The mask of `n` bytes from an address, within its line. -/
def lineMask (a n : Nat) : Nat := (2 ^ n - 1) * 2 ^ (a % 64)

/-- The bytes of a write that are enabled, as one line's mask and data. -/
def enabledMask (a : Nat) (bs : List (Option Byte)) : Nat := maskOf 64 fun i => a % 64 ≤ i && ((bs.getD (i - a % 64) none).isSome)
def enabledData (a : Nat) (bs : List (Option Byte)) : List Byte :=
  List.replicate (a % 64) 0 ++ bs.map fun b => b.getD 0

/-- BAR2_ACCESS (R257, R32, R33). A read of `n` bytes, or a posted write of bytes of which each is enabled or not. -/
def execBar2Access (a : BitVec 40) (n : Nat) (write : Option (List (Option Byte))) (s : State) : Result :=
  go s <| whenD (fun d => d.barOpen) <| withD fun d =>
    let addr := a.toNat
    match write with
    | some bs =>
      if !(d.bar2Ok addr bs.length) then barRefuse true addr
      else
        forAll (linesOf addr bs.length) fun p =>
          let part := (bs.drop (p.1 - addr)).take p.2
          whenB (enabledMask p.1 part != 0) (hostPacket 2 0 p.1 (enabledMask p.1 part) (enabledData p.1 part))
    | none =>
      if !(d.bar2Ok addr n) then barRefuse false addr
      else if n = 0 then emit (.hostCpl true false [])
      else
        let id := d.host.nextBar
        both (modHost fun h => { h with nextBar := id + 1, bars := h.bars ++ [{ id := id, addr := addr, n := n }] })
          (forAll (linesOf addr n) fun p => hostPacket 0 id p.1 (lineMask p.1 p.2) [])

/-- A BAR read with every line answered ends: its data, with EP where a chunk was uncorrectable, or Completer Abort. -/
def barDone (b : BarRead) : Op :=
  let bad := b.got.any fun x => x.2.1 != 0 && x.2.1 != Status.poison.code
  let piece (p : Nat × Nat) : List Byte :=
    match b.got.find? fun x => x.1 == p.1 / 64 with
    | some x => (x.2.2.2.drop (p.1 % 64)).take p.2
    | none => []
  both (modHost fun h => { h with bars := h.bars.filter fun x => x.id != b.id })
    (if bad then barRefuse false b.addr
    else
      both (emit (.hostCpl true (b.got.any fun x => x.2.2.1) ((linesOf b.addr b.n).flatMap piece)))
        (whenB (b.got.any fun x => x.2.2.1) (emit (.aer .poisoned))))

/-- The answer to a line request of a BAR read; BUSY and BUSY_TEST are retried (R239); an answer that comes too late is
discarded (R259). -/
def barAnswer (pk : Packet) : Op :=
  withD fun d =>
    match d.host.bars.find? fun b => b.id == pk.seq with
    | none => skip
    | some b =>
      if pk.status = Status.busy.code ∨ pk.status = Status.busyTest.code then hostPacket 0 pk.seq pk.addr pk.be []
      else
        let b' := { b with got := b.got ++ [(pk.addr / 64, pk.status, pk.poison, pk.data)] }
        both (modHost fun h => { h with bars := h.bars.map fun x => if x.id = b.id then b' else x })
          (whenB (b'.got.length == (linesOf b.addr b.n).length) (barDone b'))

/-- BAR_INTERNAL_TIMEOUT (R259). HP_CTL.itmo has passed for the BAR read of an identifier. -/
def execBarInternalTimeout (id : Nat) (s : State) : Result :=
  go s <| withD fun d =>
    match d.host.bars.find? fun b => b.id == id with
    | some b =>
      ops [modHost fun h => { h with bars := h.bars.filter fun x => x.id != id }, emit (.hostCpl false false []), logTlp,
        setN64 32 R.HP_ERRADDR_LO b.addr, hpErr 3]
    | none => skip

end Sys2Proof.Machine
end

