-- ==== Sys2Proof/Machine/NetServe.lean ====
section
/-!
DEFINITION. What a packet of the tile network does (10_tile_network.md, R237 to R250): forwarding by a router, the service of
a request at its target, the delivery of a response to its initiator; VAULT_ACCESS (07), the accesses of the external
memory channels (14).
-/

namespace Sys2Proof.Machine

/-! ### Writes of masked bytes -/

/-- The bytes of a line that a mask names. -/
def maskedBytes (be : Nat) (data : List Byte) : List (Nat × Byte) :=
  ((List.range 64).filter fun i => be.testBit i).map fun i => (i, data.getD i 0)

/-- Write the bytes of a line that a mask names, in the memory tier (R167, R168). -/
def tierMasked (who a be : Nat) (data : List Byte) (f : LineFound) (k : Status → Op) : Op :=
  let v : VaultId := Fin.ofNat 64 (a / 0x4000000)
  let off := a % 0x4000000
  let bits (c : Nat) : Nat := be / 2 ^ (32 * c) % 2 ^ 32
  let part (c : Nat) : Bool := bits c != 0 && bits c != 2 ^ 32 - 1
  ops [whenB (part 0) (chunkFound v off 2 who f.c0), whenB (part 1) (chunkFound v (off + 32) 2 who f.c1),
    withD fun d =>
      if [0, 1].any fun c => part c && d.chunkBad (a + 32 * c) then both (vltCause v 7) (k .busErr)
      else
        ops [forAll [0, 1] fun c => whenB (bits c == 2 ^ 32 - 1) (writeFresh (a + 32 * c) ((data.drop (32 * c)).take 32)),
          forAll (maskedBytes be data) fun b => tierWrite (a + b.1) [b.2], breakResv (a / 64), k .ok]]

/-- Write the bytes of a line that a mask names. -/
def maskedStore (who a be : Nat) (data : List Byte) (f : LineFound) (k : Status → Op) : Op :=
  if inTier a then tierMasked who a be data f k
  else
    withD fun d =>
      if be % 2 ^ 64 = 2 ^ 64 - 1 then
        both (extWriteFull (extChan a) (extOff a) who data f.ext f.bad) (k (d.extFullStatus (extChan a) (extOff a) f.ext))
      else both (extWritePart (extChan a) (extOff a) who (maskedBytes be data) f.ext f.bad)
        (k (d.extReadStatus (extChan a) (extOff a) f.ext))

/-! ### Service at a memory -/

/-- The packet leaves the network. -/
def takePacket (pk : Packet) : Op := modNet fun ps => ps.erase pk

/-- A READ, WRITE or PWRITE that its memory has accepted is served and answered, though the vault may be closing by now (R171). A read of an uncorrectable chunk returns poisoned; a debug
read returns it with status OK beside the mark (R177, R456). -/
def serveMemory (pk : Packet) (f : LineFound) : Op :=
  let a := pk.addr / 64 * 64
  let write := pk.kind == 1 || pk.kind == 2
  withD fun d =>
    if d.memWaits write a then skip
    else
      both (takePacket pk)
        (match d.memThere pk.src write a with
        | .ok =>
          if write then maskedStore pk.src a pk.be pk.data f fun st => reply pk st.code false []
          else
            withD fun d0 => lineRead pk.src a 64 f fun st bs =>
              if st = .poison then
                reply pk (if pk.dbg then 0 else st.code) true ((List.range 64).map fun i => d0.tierByte (a + i))
              else reply pk st.code false (if st = .ok then bs else [])
        | st => reply pk st.code false [])

/-- The oldest request of a kind that has left the network for exit `x` of router `n`, with none before it for its line. -/
def Device.nextAt (d : Device) (n x : Nat) (ok : Packet → Bool) : Option Packet :=
  let there := d.inn.net.filter fun p => p.out && p.pos == n && p.exit == x && p.kind < 3
  there.find? fun p => ok p && !((there.takeWhile (· != p)).any fun q => q.addr / 64 == p.addr / 64)

/-- A request of a kind at an exit is served. -/
def serveNext (n x : Nat) (ok : Packet → Bool) (f : LineFound) : Op :=
  withD fun d =>
    match d.nextAt n x ok with
    | some pk => serveMemory pk f
    | none => skip

/-- VAULT_ACCESS (R163, R167, R168, R175 to R177). The vault serves the oldest request of the network that waits for it. -/
def execVaultAccess (v : VaultId) (f : LineFound) (s : State) : Result := go s (serveNext v.val 1 (fun _ => true) f)

/-- The router of an external memory channel. -/
def chanRouter (c : ChanId) : Nat := if c = 0 then 24 else 31

/-- A write of a whole line. -/
def wholeLine (p : Packet) : Bool := p.kind != 0 && p.be % 2 ^ 64 == 2 ^ 64 - 1

/-- EXT_READ (R325, R328, R333 to R336). -/
def execExtRead (c : ChanId) (f : LineFound) (s : State) : Result :=
  go s (serveNext (chanRouter c) 2 (fun p => p.kind == 0) f)

/-- EXT_FULL_WRITE (R323, R324, R326, R327, R331). -/
def execExtFullWrite (c : ChanId) (f : LineFound) (s : State) : Result := go s (serveNext (chanRouter c) 2 wholeLine f)

/-- EXT_PARTIAL_WRITE (R326, R334, R335). -/
def execExtPartialWrite (c : ChanId) (f : LineFound) (s : State) : Result :=
  go s (serveNext (chanRouter c) 2 (fun p => p.kind != 0 && !(wholeLine p)) f)

/-! ### Service at the register pages (R289) -/

/-- The words of a write, or how many a read asks for, from a byte mask: 4 or 8 aligned bytes. -/
def maskWords (be : Nat) : Option (Nat × Nat) :=
  (List.range 16).findSome? fun i =>
    if be = 0xF * 2 ^ (4 * i) then some (4 * i, 4) else if be = 0xFF * 2 ^ (4 * i) then some (4 * i, 8) else none

/-- A request of a remote device to the register pages. One treated as a debug access only peeks (R456), with the latches of its port
(R509). -/
def serveRegister (pk : Packet) : Op :=
  let who : Who := if pk.dbg && pk.kind == 0 then .debugger else .remote (Fin.ofNat 12 (pk.src - 0x300))
  match maskWords (pk.be % 2 ^ 64) with
  | none => reply pk Status.busErr.code false []
  | some (o, n) =>
    let off := pk.addr / 64 * 64 - regBase + o
    if pk.kind = 0 then
      regReadBy pk.src who off n fun x =>
        match x with
        | some vs =>
          reply pk 0 false (List.replicate o 0 ++ vs.flatMap Word.bytes ++ List.replicate (64 - o - n) 0)
        | none => reply pk Status.busErr.code false []
    else
      both (modStw fun w => { w with asker := (pk.origin.map (·.1)).getD 0 })
        (regWrite who off ((List.range (n / 4)).map fun i => wordAt ((pk.data.drop o).take n) i) [] fun ok =>
        reply pk (if ok then 0 else Status.busErr.code) false [])

/-! ### Routers (R237, R241, R242, R247, R248, R250) -/

/-- The way that leads from the next router back to this one. -/
def oppositeDir (t : Nat) : Nat := (t + 2) % 4

/-- The domain behind an exit is closing or off (R247, R248). Link agents A and B serve two lane groups each. -/
def Device.exitOff (d : Device) (n x : Nat) : Bool :=
  let off (k : Nat) : Bool := !(d.domOn k) || d.inn.closing.contains k
  if x = 0 then off n
  else if x = 1 then off (64 + n / 8) || (d.vlt (Fin.ofNat 64 n)).closing
  else if n = 3 then off 76
  else if n = 24 ∨ n = 31 then off 77
  else if n = 59 then off 72 && off 73
  else if n = 60 then off 74 && off 75
  else false

/-- The domain behind an exit is off: a response for it is dropped; one that is only closing still takes its responses (R248). -/
def Device.exitDead (d : Device) (n x : Nat) : Bool :=
  d.exitOff n x && (x != 0 || !(d.domOn n)) && (x != 2 || n != 3 || !(d.domOn 76))

/-- A packet that a router discards: counted in its NI_RFCNT; a request is answered along its return path. -/
def discardPacket (n : Nat) (st : Status) (pk : Packet) : Op :=
  ops [takePacket pk, incReg (320 + n) R.NI_RFCNT, whenB (pk.kind != 7 && pk.kind != 8) (reply pk st.code false [])]

/-- The packet as it goes on. -/
def replacePacket (old new : Packet) : Op := modNet fun ps => ps.map fun p => if p = old then new else p

/-- An external memory channel has its 128 reads, or its 64 writes, in flight (R31). -/
def Device.chanFull (d : Device) (n : Nat) (write : Bool) : Bool :=
  (if write then 64 else 128) ≤ d.extOut (if n = 24 then 0 else 1) write

/-- A packet at its last router leaves by its exit, behind those that left before it (R163); a source of a channel that is full waits (R31). -/
def leaveRouter (n : Nat) (pk : Packet) : Op :=
  withD fun d =>
    let request := pk.kind != 7 && pk.kind != 8
    let out := modNet fun ps => ps.erase pk ++ [{ pk with out := true }]
    if request && pk.exit = 3 then discardPacket n .busErr pk
    else if d.portOff n (exitPort pk.exit) then discardPacket n .routeFault pk
    else if !request then (if d.exitDead n pk.exit then discardPacket n .domainOff pk else out)
    else if d.exitOff n pk.exit then both (takePacket pk) (reply pk Status.domainOff.code false [])
    else if pk.exit = 2 ∧ (n = 59 ∨ n = 60) then agentTake pk
    else if pk.exit = 2 ∧ n = 4 then both (takePacket pk) (serveRegister pk)
    else if pk.exit = 2 ∧ n ≠ 24 ∧ n ≠ 31 then both (takePacket pk) (reply pk Status.busErr.code false [])
    else if pk.exit = 2 ∧ d.chanFull n (pk.kind != 0) then skip
    else out

/-- ROUTER_FORWARD (R241, R242, R248, R250). Router `n` takes the oldest packet that stands at it, of the response network or
of the request network, and forwards it or delivers it at its exit. -/
def execRouterForward (n : RegionId) (response : Bool) (s : State) : Result :=
  go s <| withD fun d =>
    match d.inn.net.find? fun p => !p.out && p.pos == n.val && (p.kind == 7 || p.kind == 8) == response with
    | none => skip
    | some pk =>
      match pk.dirs with
      | [] => leaveRouter n.val pk
      | t :: ts =>
        if d.portOff n.val t then discardPacket n.val .routeFault pk
        else
          match hop n.val t with
          | none => discardPacket n.val .routeFault pk
          | some m =>
            let back := if response then pk.rdirs else oppositeDir t :: pk.rdirs
            replacePacket pk { pk with pos := m, dirs := ts, rdirs := back }

/-! ### Responses at their initiators (R239, R242, R244, R248, R249) -/

/-- The router at which a request of this packet was to end. -/
def Device.packetRouter (d : Device) (r : RegionId) (pk : Packet) : Nat :=
  if pk.dev ≠ d.devnum then (if d.fld (niPg r) F.NI_CTL.link_agent = 0 then 59 else 60)
  else if pk.req = 3 ∨ pk.req = 4 then pk.addr % 64
  else (destOf pk.addr).elim 0 (·.1)

/-- A response or EVENT for the fabric of region `r`. -/
def fabricTakes (r : RegionId) (pk : Packet) : Op :=
  withD fun d =>
    let src := 0x140 + r.val
    if pk.kind = 8 then both (takePacket pk) (niError r pk.status pk.req src (d.packetRouter r pk) pk.addr)
    else
      both (takePacket pk)
        (match (d.rg r).pend.find? fun x => x.req.tag.val == pk.tag && x.seq == pk.seq && !x.retry with
        | none => both (incReg (niPg r) R.NI_LATECNT) (niCause r 5)
        | some x =>
          if pk.status = Status.busy.code ∨ pk.status = Status.busyTest.code then
            modR r fun g => { g with pend := g.pend.map fun y => if y.seq = x.seq then { y with retry := true } else y }
          else
            ops [modR r fun g => { g with pend := g.pend.filter fun y => y.seq != x.seq },
              niError r pk.status x.req.kind.code src x.router x.req.addr,
              toFabric r pk.tag pk.status (if pk.status = 0 then pk.data else [])])

/-- A response or EVENT for the host port: BAR reads by tag 0, reads of the host window in proxy mode by tag 1. -/
def hostTakes (pk : Packet) : Op :=
  withD fun d =>
    both (takePacket pk)
      (if pk.kind = 8 then
        (if pk.dev = d.devnum then barRefuse true pk.addr else both (setN64 32 R.HP_ERRADDR_LO pk.addr) (hpErr 6))
      else if pk.tag = 0 then barAnswer pk
      else
        match d.hostOpen pk.seq with
        | some x =>
          let o := d.windowAddr x.addr % 64
          if pk.status = 0 ∧ !pk.poison then hostEnd x.tag (some ((pk.data.drop o).take x.n))
          else both (hostEnd x.tag none) (windowErr x.addr 6)
        | none => ops [incReg 32 R.HP_LATECNT, hpErr 5, emit (.aer .unexpectedCompletion)])

/-- A response for the debug port is kept until its access completes (R453). -/
def debugTakes (pk : Packet) : Op :=
  both (takePacket pk)
    (modDk fun k => { k with access := k.access.map fun a =>
      { a with resp := some (pk.status, pk.poison, wordAt pk.data (a.lo % 64 / 4)) } })

/-- RESPONSE_RECEIVE (R47, R242, R244, R248, R249, R259, R393). The oldest response or EVENT that has left the network at a
router reaches its initiator. -/
def execResponseReceive (n : RegionId) (s : State) : Result :=
  go s <| withD fun d =>
    match d.inn.net.find? fun p => p.out && p.pos == n.val && (p.kind == 7 || p.kind == 8) with
    | none => skip
    | some pk =>
      if 0x140 ≤ pk.src ∧ pk.src < 0x180 then fabricTakes (Fin.ofNat 64 (pk.src - 0x140)) pk
      else if pk.src = 0x100 then hostTakes pk
      else if pk.src = 0x102 then debugTakes pk
      else if 0x300 ≤ pk.src then both (takePacket pk) (agentReturn pk)
      else takePacket pk

end Sys2Proof.Machine
end

