-- ==== Sys2Proof/Machine/Dispatch.lean ====
section
/-!
DEFINITION. The meaning of each command, one arm per constructor.
-/

namespace Sys2Proof.Machine

def exec (i : Instr) (s : State) : Host.Outcome State Fault Refusal :=
  match i with
  | .registerWrite who off vs fs => Sys2Proof.Machine.execRegisterWrite who off vs fs s
  | .rcRead who p w => Sys2Proof.Machine.execRcRead who p w s
  | .loReadLatch who p w wide => Sys2Proof.Machine.execLoReadLatch who p w wide s
  | .pgLockWrite who p key => Sys2Proof.Machine.execPgLockWrite who p key s
  | .halfUnlockTimeout p => Sys2Proof.Machine.execHalfUnlockTimeout p s
  | .unlockExpiry p => Sys2Proof.Machine.execUnlockExpiry p s
  | .pgGateWrite who p v => Sys2Proof.Machine.execPgGateWrite who p v s
  | .blockInitDone p => Sys2Proof.Machine.execBlockInitDone p s
  | .evPendClear who p v => Sys2Proof.Machine.execEvPendClear who p v s
  | .evMaskWrite who p v => Sys2Proof.Machine.execEvMaskWrite who p v s
  | .withheldDelivery => Sys2Proof.Machine.execWithheldDelivery s
  | .routeEntryWrite who src v => Sys2Proof.Machine.execRouteEntryWrite who src v s
  | .evtForce who k src => Sys2Proof.Machine.execEvtForce who k src s
  | .riserContention r riser => Sys2Proof.Machine.execRiserContention r riser s
  | .riserCutRelease r => Sys2Proof.Machine.execRiserCutRelease r s
  | .resetTreeAssert tree => Sys2Proof.Machine.execResetTreeAssert tree s
  | .resetTreeRelease tree => Sys2Proof.Machine.execResetTreeRelease tree s
  | .ctxReq r slot => Sys2Proof.Machine.execCtxReq r slot s
  | .ctxselWrite r slot => Sys2Proof.Machine.execCtxselWrite r slot s
  | .switchCapture r => Sys2Proof.Machine.execSwitchCapture r s
  | .switchCheck r err => Sys2Proof.Machine.execSwitchCheck r err s
  | .switchTakeEffect r => Sys2Proof.Machine.execSwitchTakeEffect r s
  | .schedArm r slot => Sys2Proof.Machine.execSchedArm r slot s
  | .schedDisarm r slot => Sys2Proof.Machine.execSchedDisarm r slot s
  | .schedCapture r => Sys2Proof.Machine.execSchedCapture r s
  | .stopSwitchCapture => Sys2Proof.Machine.execStopSwitchCapture s
  | .hamperResize who r size => Sys2Proof.Machine.execHamperResize who r size s
  | .hamperGrowthDone r => Sys2Proof.Machine.execHamperGrowthDone r s
  | .fetchStart r entry slot => Sys2Proof.Machine.execFetchStart r entry slot s
  | .fetchHeaderCheck rd => Sys2Proof.Machine.execFetchHeaderCheck rd s
  | .fetchDone r done => Sys2Proof.Machine.execFetchDone r done s
  | .fetchReadUncorr r off => Sys2Proof.Machine.execFetchReadUncorr r off s
  | .scrubCodewordCheck r element codeword bits fetchWrote => Sys2Proof.Machine.execScrubCodewordCheck r element codeword bits fetchWrote s
  | .faultHoldRelease r => Sys2Proof.Machine.execFaultHoldRelease r s
  | .specOpen r pred => Sys2Proof.Machine.execSpecOpen r pred s
  | .specctlOpen who r pred => Sys2Proof.Machine.execSpecctlOpen who r pred s
  | .specOpeningEdge r => Sys2Proof.Machine.execSpecOpeningEdge r s
  | .specCommit r => Sys2Proof.Machine.execSpecCommit r s
  | .specctlCommit r => Sys2Proof.Machine.execSpecctlCommit r s
  | .specAbort r corr withCommit => Sys2Proof.Machine.execSpecAbort r corr withCommit s
  | .specctlAbort r corr => Sys2Proof.Machine.execSpecctlAbort r corr s
  | .specWindowFull r => Sys2Proof.Machine.execSpecWindowFull r s
  | .specStallTimeout r => Sys2Proof.Machine.execSpecStallTimeout r s
  | .load q cid data => Sys2Proof.Machine.execLoad q cid data s
  | .imageVerified => Sys2Proof.Machine.execImageVerified s
  | .sectionReceived => Sys2Proof.Machine.execSectionReceived s
  | .loadResetAssert r => Sys2Proof.Machine.execLoadResetAssert r s
  | .sectionWritten => Sys2Proof.Machine.execSectionWritten s
  | .regionRelease r => Sys2Proof.Machine.execRegionRelease r s
  | .imageEnd => Sys2Proof.Machine.execImageEnd s
  | .chainStream => Sys2Proof.Machine.execChainStream s
  | .chainForward => Sys2Proof.Machine.execChainForward s
  | .borderpolWrite r v => Sys2Proof.Machine.execBorderpolWrite r v s
  | .vpRequest r line write tag be data => Sys2Proof.Machine.execVpRequest r line write tag be data s
  | .vpResponse r tag f0 f1 => Sys2Proof.Machine.execVpResponse r tag f0 f1 s
  | .vaultAccess v f => Sys2Proof.Machine.execVaultAccess v f s
  | .vaultFillDone v => Sys2Proof.Machine.execVaultFillDone v s
  | .scrubReadDue v f0 f1 => Sys2Proof.Machine.execScrubReadDue v f0 f1 s
  | .logFree v sel => Sys2Proof.Machine.execLogFree v sel s
  | .remapWrite who v sel slot copy => Sys2Proof.Machine.execRemapWrite who v sel slot copy s
  | .remapEnd who v off => Sys2Proof.Machine.execRemapEnd who v off s
  | .dmaTailWrite v c tail => Sys2Proof.Machine.execDmaTailWrite v c tail s
  | .dmaRun v c run => Sys2Proof.Machine.execDmaRun v c run s
  | .dmaResume v c => Sys2Proof.Machine.execDmaResume v c s
  | .dmaDescriptorFetch v c fs => Sys2Proof.Machine.execDmaDescriptorFetch v c fs s
  | .dmaDescriptorDone v c src dst own => Sys2Proof.Machine.execDmaDescriptorDone v c src dst own s
  | .dmaHalt v c own => Sys2Proof.Machine.execDmaHalt v c own s
  | .enginePark e => Sys2Proof.Machine.execEnginePark e s
  | .engineParked e => Sys2Proof.Machine.execEngineParked e s
  | .engineRun e => Sys2Proof.Machine.execEngineRun e s
  | .lineFillReturn e pre f => Sys2Proof.Machine.execLineFillReturn e pre f s
  | .storeError e => Sys2Proof.Machine.execStoreError e s
  | .interruptTake e => Sys2Proof.Machine.execInterruptTake e s
  | .nmiTake e => Sys2Proof.Machine.execNmiTake e s
  | .irqSet e bits => Sys2Proof.Machine.execIrqSet e bits s
  | .irqClear e bits => Sys2Proof.Machine.execIrqClear e bits s
  | .wdtKick e key => Sys2Proof.Machine.execWdtKick e key s
  | .wdtEnable who e => Sys2Proof.Machine.execWdtEnable who e s
  | .wdtExpiry e => Sys2Proof.Machine.execWdtExpiry e s
  | .windowWrite e b v => Sys2Proof.Machine.execWindowWrite e b v s
  | .spdPop r k => Sys2Proof.Machine.execSpdPop r k s
  | .spuPush r k w => Sys2Proof.Machine.execSpuPush r k w s
  | .add e rd rs1 rs2 => Sys2Proof.Machine.execAdd e rd rs1 rs2 s
  | .sub e rd rs1 rs2 => Sys2Proof.Machine.execSub e rd rs1 rs2 s
  | .and e rd rs1 rs2 => Sys2Proof.Machine.execAnd e rd rs1 rs2 s
  | .or e rd rs1 rs2 => Sys2Proof.Machine.execOr e rd rs1 rs2 s
  | .xor e rd rs1 rs2 => Sys2Proof.Machine.execXor e rd rs1 rs2 s
  | .shl e rd rs1 rs2 => Sys2Proof.Machine.execShl e rd rs1 rs2 s
  | .shr e rd rs1 rs2 => Sys2Proof.Machine.execShr e rd rs1 rs2 s
  | .sar e rd rs1 rs2 => Sys2Proof.Machine.execSar e rd rs1 rs2 s
  | .lt e rd rs1 rs2 => Sys2Proof.Machine.execLt e rd rs1 rs2 s
  | .ltu e rd rs1 rs2 => Sys2Proof.Machine.execLtu e rd rs1 rs2 s
  | .mul e rd rs1 rs2 => Sys2Proof.Machine.execMul e rd rs1 rs2 s
  | .mulhs e rd rs1 rs2 => Sys2Proof.Machine.execMulhs e rd rs1 rs2 s
  | .mulhu e rd rs1 rs2 => Sys2Proof.Machine.execMulhu e rd rs1 rs2 s
  | .div e rd rs1 rs2 => Sys2Proof.Machine.execDiv e rd rs1 rs2 s
  | .divu e rd rs1 rs2 => Sys2Proof.Machine.execDivu e rd rs1 rs2 s
  | .rem e rd rs1 rs2 => Sys2Proof.Machine.execRem e rd rs1 rs2 s
  | .remu e rd rs1 rs2 => Sys2Proof.Machine.execRemu e rd rs1 rs2 s
  | .addi e rd rs1 v => Sys2Proof.Machine.execAddi e rd rs1 v s
  | .andi e rd rs1 v => Sys2Proof.Machine.execAndi e rd rs1 v s
  | .ori e rd rs1 v => Sys2Proof.Machine.execOri e rd rs1 v s
  | .xori e rd rs1 v => Sys2Proof.Machine.execXori e rd rs1 v s
  | .lti e rd rs1 v => Sys2Proof.Machine.execLti e rd rs1 v s
  | .ltiu e rd rs1 v => Sys2Proof.Machine.execLtiu e rd rs1 v s
  | .shli e rd rs1 n => Sys2Proof.Machine.execShli e rd rs1 n s
  | .shri e rd rs1 n => Sys2Proof.Machine.execShri e rd rs1 n s
  | .sari e rd rs1 n => Sys2Proof.Machine.execSari e rd rs1 n s
  | .lui e rd v => Sys2Proof.Machine.execLui e rd v s
  | .fadd e rd rs1 rs2 => Sys2Proof.Machine.execFadd e rd rs1 rs2 s
  | .fsub e rd rs1 rs2 => Sys2Proof.Machine.execFsub e rd rs1 rs2 s
  | .fmul e rd rs1 rs2 => Sys2Proof.Machine.execFmul e rd rs1 rs2 s
  | .fdiv e rd rs1 rs2 => Sys2Proof.Machine.execFdiv e rd rs1 rs2 s
  | .fsqrt e rd rs1 => Sys2Proof.Machine.execFsqrt e rd rs1 s
  | .fmin e rd rs1 rs2 => Sys2Proof.Machine.execFmin e rd rs1 rs2 s
  | .fmax e rd rs1 rs2 => Sys2Proof.Machine.execFmax e rd rs1 rs2 s
  | .fcsgn e rd rs1 rs2 => Sys2Proof.Machine.execFcsgn e rd rs1 rs2 s
  | .fnsgn e rd rs1 rs2 => Sys2Proof.Machine.execFnsgn e rd rs1 rs2 s
  | .fxsgn e rd rs1 rs2 => Sys2Proof.Machine.execFxsgn e rd rs1 rs2 s
  | .fceq e rd rs1 rs2 => Sys2Proof.Machine.execFceq e rd rs1 rs2 s
  | .fclt e rd rs1 rs2 => Sys2Proof.Machine.execFclt e rd rs1 rs2 s
  | .fcle e rd rs1 rs2 => Sys2Proof.Machine.execFcle e rd rs1 rs2 s
  | .fcun e rd rs1 rs2 => Sys2Proof.Machine.execFcun e rd rs1 rs2 s
  | .ftoi e rd rs1 => Sys2Proof.Machine.execFtoi e rd rs1 s
  | .ftou e rd rs1 => Sys2Proof.Machine.execFtou e rd rs1 s
  | .itof e rd rs1 => Sys2Proof.Machine.execItof e rd rs1 s
  | .utof e rd rs1 => Sys2Proof.Machine.execUtof e rd rs1 s
  | .fmvg e rd rs1 => Sys2Proof.Machine.execFmvg e rd rs1 s
  | .fmvf e rd rs1 => Sys2Proof.Machine.execFmvf e rd rs1 s
  | .fkind e rd rs1 => Sys2Proof.Machine.execFkind e rd rs1 s
  | .lb e rd rs1 off f => Sys2Proof.Machine.execLb e rd rs1 off f s
  | .lbu e rd rs1 off f => Sys2Proof.Machine.execLbu e rd rs1 off f s
  | .lh e rd rs1 off f => Sys2Proof.Machine.execLh e rd rs1 off f s
  | .lhu e rd rs1 off f => Sys2Proof.Machine.execLhu e rd rs1 off f s
  | .lw e rd rs1 off f => Sys2Proof.Machine.execLw e rd rs1 off f s
  | .lwf e fd rs1 off f => Sys2Proof.Machine.execLwf e fd rs1 off f s
  | .sb e rs2 rs1 off f => Sys2Proof.Machine.execSb e rs2 rs1 off f s
  | .sh e rs2 rs1 off f => Sys2Proof.Machine.execSh e rs2 rs1 off f s
  | .sw e rs2 rs1 off f => Sys2Proof.Machine.execSw e rs2 rs1 off f s
  | .swf e fs2 rs1 off f => Sys2Proof.Machine.execSwf e fs2 rs1 off f s
  | .lrW e rd rs1 f => Sys2Proof.Machine.execLrW e rd rs1 f s
  | .scW e rd rs1 rs2 f => Sys2Proof.Machine.execScW e rd rs1 rs2 f s
  | .beq e rs1 rs2 off => Sys2Proof.Machine.execBeq e rs1 rs2 off s
  | .bne e rs1 rs2 off => Sys2Proof.Machine.execBne e rs1 rs2 off s
  | .blt e rs1 rs2 off => Sys2Proof.Machine.execBlt e rs1 rs2 off s
  | .bge e rs1 rs2 off => Sys2Proof.Machine.execBge e rs1 rs2 off s
  | .bltu e rs1 rs2 off => Sys2Proof.Machine.execBltu e rs1 rs2 off s
  | .bgeu e rs1 rs2 off => Sys2Proof.Machine.execBgeu e rs1 rs2 off s
  | .jal e off => Sys2Proof.Machine.execJal e off s
  | .j e off => Sys2Proof.Machine.execJ e off s
  | .jalr e rd rs1 v => Sys2Proof.Machine.execJalr e rd rs1 v s
  | .mfcr e rd c => Sys2Proof.Machine.execMfcr e rd c s
  | .mtcr e c rs1 => Sys2Proof.Machine.execMtcr e c rs1 s
  | .mtcrm e c rs1 gm => Sys2Proof.Machine.execMtcrm e c rs1 gm s
  | .sync e => Sys2Proof.Machine.execSync e s
  | .isync e => Sys2Proof.Machine.execIsync e s
  | .dwb e rs1 => Sys2Proof.Machine.execDwb e rs1 s
  | .dinv e rs1 => Sys2Proof.Machine.execDinv e rs1 s
  | .dwbi e rs1 => Sys2Proof.Machine.execDwbi e rs1 s
  | .iinv e => Sys2Proof.Machine.execIinv e s
  | .sys e => Sys2Proof.Machine.execSys e s
  | .brk e => Sys2Proof.Machine.execBrk e s
  | .tret e => Sys2Proof.Machine.execTret e s
  | .idle e => Sys2Proof.Machine.execIdle e s
  | .nqRequest r q => Sys2Proof.Machine.execNqRequest r q s
  | .packetInject r => Sys2Proof.Machine.execPacketInject r s
  | .routerForward n response => Sys2Proof.Machine.execRouterForward n response s
  | .responseReceive n => Sys2Proof.Machine.execResponseReceive n s
  | .requestTimeout r tag => Sys2Proof.Machine.execRequestTimeout r tag s
  | .busyRetry r tag => Sys2Proof.Machine.execBusyRetry r tag s
  | .waymarkFlip r e => Sys2Proof.Machine.execWaymarkFlip r e s
  | .portDisable r dis => Sys2Proof.Machine.execPortDisable r dis s
  | .msgReceive r => Sys2Proof.Machine.execMsgReceive r s
  | .ntTake r => Sys2Proof.Machine.execNtTake r s
  | .ntResponse r id err data => Sys2Proof.Machine.execNtResponse r id err data s
  | .domainDrainDone k => Sys2Proof.Machine.execDomainDrainDone k s
  | .pcieLinkUp width rate code lanes => Sys2Proof.Machine.execPcieLinkUp width rate code lanes s
  | .configRequest w => Sys2Proof.Machine.execConfigRequest w s
  | .perst asserted => Sys2Proof.Machine.execPerst asserted s
  | .hotReset => Sys2Proof.Machine.execHotReset s
  | .linkDown => Sys2Proof.Machine.execLinkDown s
  | .functionLevelReset => Sys2Proof.Machine.execFunctionLevelReset s
  | .bar0Access off n contiguous write fs => Sys2Proof.Machine.execBar0Access off n contiguous write fs s
  | .bar2Access a n write => Sys2Proof.Machine.execBar2Access a n write s
  | .barInternalTimeout id => Sys2Proof.Machine.execBarInternalTimeout id s
  | .hostCompletion tag data => Sys2Proof.Machine.execHostCompletion tag data s
  | .hostCompletionTimeout tag => Sys2Proof.Machine.execHostCompletionTimeout tag s
  | .queueEnable => Sys2Proof.Machine.execQueueEnable s
  | .queueDisable => Sys2Proof.Machine.execQueueDisable s
  | .quiesced => Sys2Proof.Machine.execQuiesced s
  | .sqTailDoorbell q v => Sys2Proof.Machine.execSqTailDoorbell q v s
  | .cqHeadDoorbell q v => Sys2Proof.Machine.execCqHeadDoorbell q v s
  | .ringHeadDoorbell r v => Sys2Proof.Machine.execRingHeadDoorbell r v s
  | .commandFetch q entry => Sys2Proof.Machine.execCommandFetch q entry s
  | .completionPost q ok => Sys2Proof.Machine.execCompletionPost q ok s
  | .coalesceTimeout w => Sys2Proof.Machine.execCoalesceTimeout w s
  | .nop q cid => Sys2Proof.Machine.execNop q cid s
  | .createQueue q cid => Sys2Proof.Machine.execCreateQueue q cid s
  | .deleteQueue q cid => Sys2Proof.Machine.execDeleteQueue q cid s
  | .identify q cid => Sys2Proof.Machine.execIdentify q cid s
  | .fetch q cid => Sys2Proof.Machine.execFetch q cid s
  | .schedule q cid => Sys2Proof.Machine.execSchedule q cid s
  | .switch q cid => Sys2Proof.Machine.execSwitch q cid s
  | .write q cid data fs => Sys2Proof.Machine.execWrite q cid data fs s
  | .read q cid fs => Sys2Proof.Machine.execRead q cid fs s
  | .engine q cid => Sys2Proof.Machine.execEngine q cid s
  | .attest q cid => Sys2Proof.Machine.execAttest q cid s
  | .selftest q cid => Sys2Proof.Machine.execSelftest q cid s
  | .calRead q cid => Sys2Proof.Machine.execCalRead q cid s
  | .calWrite q cid data => Sys2Proof.Machine.execCalWrite q cid data s
  | .power q cid => Sys2Proof.Machine.execPower q cid s
  | .linkEnable p en => Sys2Proof.Machine.execLinkEnable p en s
  | .linkRetrain p => Sys2Proof.Machine.execLinkRetrain p s
  | .portAlign p found => Sys2Proof.Machine.execPortAlign p found s
  | .portParam p dev port encReq => Sys2Proof.Machine.execPortParam p dev port encReq s
  | .reqFrame p f a x => Sys2Proof.Machine.execReqFrame p f a x s
  | .rspFrame p f a x => Sys2Proof.Machine.execRspFrame p f a x s
  | .eventFrame p f a x => Sys2Proof.Machine.execEventFrame p f a x s
  | .linkFrame p a => Sys2Proof.Machine.execLinkFrame p a s
  | .frameTransit p f a x => Sys2Proof.Machine.execFrameTransit p f a x s
  | .replayTimeout p => Sys2Proof.Machine.execReplayTimeout p s
  | .e2eTimeout p etag => Sys2Proof.Machine.execE2eTimeout p etag s
  | .timeFrameSend p => Sys2Proof.Machine.execTimeFrameSend p s
  | .timeFrame p ans => Sys2Proof.Machine.execTimeFrame p ans s
  | .keyFrame p bs a x => Sys2Proof.Machine.execKeyFrame p bs a x s
  | .loadFrame p bs a x => Sys2Proof.Machine.execLoadFrame p bs a x s
  | .rekeyThreshold p => Sys2Proof.Machine.execRekeyThreshold p s
  | .rekeyTimeout p => Sys2Proof.Machine.execRekeyTimeout p s
  | .linkWaymarkFlip member e => Sys2Proof.Machine.execLinkWaymarkFlip member e s
  | .proxyDoorbell ix v => Sys2Proof.Machine.execProxyDoorbell ix v s
  | .pllLock l => Sys2Proof.Machine.execPllLock l s
  | .blockLock l => Sys2Proof.Machine.execBlockLock l s
  | .adaptDone l x => Sys2Proof.Machine.execAdaptDone l x s
  | .peerReady l us => Sys2Proof.Machine.execPeerReady l us s
  | .trainTimeout l => Sys2Proof.Machine.execTrainTimeout l s
  | .trainingRx l => Sys2Proof.Machine.execTrainingRx l s
  | .lockLost l => Sys2Proof.Machine.execLockLost l s
  | .relockTimeout l => Sys2Proof.Machine.execRelockTimeout l s
  | .pllUnlock l => Sys2Proof.Machine.execPllUnlock l s
  | .refLost g => Sys2Proof.Machine.execRefLost g s
  | .refReturn g => Sys2Proof.Machine.execRefReturn g s
  | .ebufRecenter l => Sys2Proof.Machine.execEbufRecenter l s
  | .txeqWrite l pre main post => Sys2Proof.Machine.execTxeqWrite l pre main post s
  | .eyeScan l width height => Sys2Proof.Machine.execEyeScan l width height s
  | .laneTestWrite l loop gen chk => Sys2Proof.Machine.execLaneTestWrite l loop gen chk s
  | .prbsInject l => Sys2Proof.Machine.execPrbsInject l s
  | .prbsClear l => Sys2Proof.Machine.execPrbsClear l s
  | .ethselWrite eth => Sys2Proof.Machine.execEthselWrite eth s
  | .extRead c f => Sys2Proof.Machine.execExtRead c f s
  | .extFullWrite c f => Sys2Proof.Machine.execExtFullWrite c f s
  | .extPartialWrite c f => Sys2Proof.Machine.execExtPartialWrite c f s
  | .rambleStart k => Sys2Proof.Machine.execRambleStart k s
  | .ramblePage bad => Sys2Proof.Machine.execRamblePage bad s
  | .rambleDone => Sys2Proof.Machine.execRambleDone s
  | .rambleForce k => Sys2Proof.Machine.execRambleForce k s
  | .cryModeWrite who m0 m1 => Sys2Proof.Machine.execCryModeWrite who m0 m1 s
  | .sweepPage c => Sys2Proof.Machine.execSweepPage c s
  | .sweepDone c => Sys2Proof.Machine.execSweepDone c s
  | .plogFree c sel => Sys2Proof.Machine.execPlogFree c sel s
  | .counterCacheFlush => Sys2Proof.Machine.execCounterCacheFlush s
  | .lostLogFree sel => Sys2Proof.Machine.execLostLogFree sel s
  | .channelTrained c mib m1 m2 m3 => Sys2Proof.Machine.execChannelTrained c mib m1 m2 m3 s
  | .vccioBad b measured => Sys2Proof.Machine.execVccioBad b measured s
  | .vccioGood b measured worst => Sys2Proof.Machine.execVccioGood b measured worst s
  | .delayWrite b tap => Sys2Proof.Machine.execDelayWrite b tap s
  | .delayReached b pin => Sys2Proof.Machine.execDelayReached b pin s
  | .serTxPush p w => Sys2Proof.Machine.execSerTxPush p w s
  | .serRxPop who p => Sys2Proof.Machine.execSerRxPop who p s
  | .uartRxChar p v framing parity brk => Sys2Proof.Machine.execUartRxChar p v framing parity brk s
  | .uartTxChar p ctsN => Sys2Proof.Machine.execUartTxChar p ctsN s
  | .spiWord p miso => Sys2Proof.Machine.execSpiWord p miso s
  | .mbTransaction m addr wlen rlen => Sys2Proof.Machine.execMbTransaction m addr wlen rlen s
  | .mbDone m result data => Sys2Proof.Machine.execMbDone m result data s
  | .mbTimeout m => Sys2Proof.Machine.execMbTimeout m s
  | .ethEnable m en rate => Sys2Proof.Machine.execEthEnable m en rate s
  | .ethRxFrame m bs fcsOk => Sys2Proof.Machine.execEthRxFrame m bs fcsOk s
  | .ethTxFrame m => Sys2Proof.Machine.execEthTxFrame m s
  | .gclChange m => Sys2Proof.Machine.execGclChange m s
  | .gclSwitch m => Sys2Proof.Machine.execGclSwitch m s
  | .gclEntry m => Sys2Proof.Machine.execGclEntry m s
  | .flashProgram who => Sys2Proof.Machine.execFlashProgram who s
  | .flashErase who => Sys2Proof.Machine.execFlashErase who s
  | .flashOpDone us failed => Sys2Proof.Machine.execFlashOpDone us failed s
  | .pllRelock => Sys2Proof.Machine.execPllRelock s
  | .rootPllLock => Sys2Proof.Machine.execRootPllLock s
  | .dividerWrite t n => Sys2Proof.Machine.execDividerWrite t n s
  | .clockSwitch g oscf => Sys2Proof.Machine.execClockSwitch g oscf s
  | .clockSwitchDone g => Sys2Proof.Machine.execClockSwitchDone g s
  | .monitorTrip kroot count => Sys2Proof.Machine.execMonitorTrip kroot count s
  | .forcedSwitch => Sys2Proof.Machine.execForcedSwitch s
  | .oscFTrip count => Sys2Proof.Machine.execOscFTrip count s
  | .oscFReady oscs => Sys2Proof.Machine.execOscFReady oscs s
  | .fatalClock => Sys2Proof.Machine.execFatalClock s
  | .oscFRestart => Sys2Proof.Machine.execOscFRestart s
  | .oscFTrim present code residual => Sys2Proof.Machine.execOscFTrim present code residual s
  | .failRecordClear => Sys2Proof.Machine.execFailRecordClear s
  | .devtimeSnapshot => Sys2Proof.Machine.execDevtimeSnapshot s
  | .timeAdjWrite v => Sys2Proof.Machine.execTimeAdjWrite v s
  | .timeStep absolute => Sys2Proof.Machine.execTimeStep absolute s
  | .timeHoldDone => Sys2Proof.Machine.execTimeHoldDone s
  | .powerGood us => Sys2Proof.Machine.execPowerGood us s
  | .sequenceEntry => Sys2Proof.Machine.execSequenceEntry s
  | .sequenceFault cause => Sys2Proof.Machine.execSequenceFault cause s
  | .pmbAlert status => Sys2Proof.Machine.execPmbAlert status s
  | .pmbusTransaction addr cmd wlen rlen => Sys2Proof.Machine.execPmbusTransaction addr cmd wlen rlen s
  | .pmbusDone result data => Sys2Proof.Machine.execPmbusDone result data s
  | .railExcursion ix mv => Sys2Proof.Machine.execRailExcursion ix mv s
  | .p4Entry => Sys2Proof.Machine.execP4Entry s
  | .domainControl v => Sys2Proof.Machine.execDomainControl v s
  | .domainRampDone k us => Sys2Proof.Machine.execDomainRampDone k us s
  | .regionPowerRequest r st => Sys2Proof.Machine.execRegionPowerRequest r st s
  | .napEntry r => Sys2Proof.Machine.execNapEntry r s
  | .rebuild r slot => Sys2Proof.Machine.execRebuild r slot s
  | .p3Request p3Stop => Sys2Proof.Machine.execP3Request p3Stop s
  | .p3Reached => Sys2Proof.Machine.execP3Reached s
  | .wake => Sys2Proof.Machine.execWake s
  | .recordSaveDone => Sys2Proof.Machine.execRecordSaveDone s
  | .halfCycleRms v ix mHz => Sys2Proof.Machine.execHalfCycleRms v ix mHz s
  | .holdupFit dc slope => Sys2Proof.Machine.execHoldupFit dc slope s
  | .supplyWarn => Sys2Proof.Machine.execSupplyWarn s
  | .interruptionTimeout => Sys2Proof.Machine.execInterruptionTimeout s
  | .warningClear => Sys2Proof.Machine.execWarningClear s
  | .forbidRelease => Sys2Proof.Machine.execForbidRelease s
  | .sentinelEnable en => Sys2Proof.Machine.execSentinelEnable en s
  | .porRelease ioPull noImg pcieEn => Sys2Proof.Machine.execPorRelease ioPull noImg pcieEn s
  | .startupStepDone e => Sys2Proof.Machine.execStartupStepDone e s
  | .refclkArrival => Sys2Proof.Machine.execRefclkArrival s
  | .ready => Sys2Proof.Machine.execReady s
  | .resetN => Sys2Proof.Machine.execResetN s
  | .lcRequest target fs => Sys2Proof.Machine.execLcRequest target fs s
  | .tokenData w => Sys2Proof.Machine.execTokenData w s
  | .tokenSubmit => Sys2Proof.Machine.execTokenSubmit s
  | .tokenChecked => Sys2Proof.Machine.execTokenChecked s
  | .tokenFlush => Sys2Proof.Machine.execTokenFlush s
  | .sessionEnd => Sys2Proof.Machine.execSessionEnd s
  | .sessionExpiry => Sys2Proof.Machine.execSessionExpiry s
  | .newNonce => Sys2Proof.Machine.execNewNonce s
  | .measselWrite ix => Sys2Proof.Machine.execMeasselWrite ix s
  | .extend slot fs => Sys2Proof.Machine.execExtend slot fs s
  | .attestRequest who dev fs => Sys2Proof.Machine.execAttestRequest who dev fs s
  | .attestDone fs => Sys2Proof.Machine.execAttestDone fs s
  | .rollbackCommit slot => Sys2Proof.Machine.execRollbackCommit slot s
  | .stwWdtKick key => Sys2Proof.Machine.execStwWdtKick key s
  | .preBite => Sys2Proof.Machine.execPreBite s
  | .watchdogBite => Sys2Proof.Machine.execWatchdogBite s
  | .scrubStoreCheck northOk southOk => Sys2Proof.Machine.execScrubStoreCheck northOk southOk s
  | .scrubReloadDone golden => Sys2Proof.Machine.execScrubReloadDone golden s
  | .seal who src dst => Sys2Proof.Machine.execSeal who src dst s
  | .unseal who src dst => Sys2Proof.Machine.execUnseal who src dst s
  | .derive who dst => Sys2Proof.Machine.execDerive who dst s
  | .stewardSlotUpdate who src => Sys2Proof.Machine.execStewardSlotUpdate who src s
  | .serviceDone us => Sys2Proof.Machine.execServiceDone us s
  | .debugFrame h w crc => Sys2Proof.Machine.execDebugFrame h w crc s
  | .resync => Sys2Proof.Machine.execResync s
  | .dkDataRead => Sys2Proof.Machine.execDkDataRead s
  | .dkDataWrite w => Sys2Proof.Machine.execDkDataWrite w s
  | .debugAccessDone fs => Sys2Proof.Machine.execDebugAccessDone fs s
  | .dkCancel => Sys2Proof.Machine.execDkCancel s
  | .errorHoldClear => Sys2Proof.Machine.execErrorHoldClear s
  | .debugWake => Sys2Proof.Machine.execDebugWake s
  | .engineHalt e => Sys2Proof.Machine.execEngineHalt e s
  | .engineResume e => Sys2Proof.Machine.execEngineResume e s
  | .engineStep e code data => Sys2Proof.Machine.execEngineStep e code data s
  | .engregAccess write => Sys2Proof.Machine.execEngregAccess write s
  | .liveInterrupt e => Sys2Proof.Machine.execLiveInterrupt e s
  | .regionHalt r => Sys2Proof.Machine.execRegionHalt r s
  | .regionResume r => Sys2Proof.Machine.execRegionResume r s
  | .snapshot r bram => Sys2Proof.Machine.execSnapshot r bram s
  | .snapshotDone writeFailed => Sys2Proof.Machine.execSnapshotDone writeFailed s
  | .vtOutWrite who b => Sys2Proof.Machine.execVtOutWrite who b s
  | .vtOutConsume => Sys2Proof.Machine.execVtOutConsume s
  | .vtInWrite b => Sys2Proof.Machine.execVtInWrite b s
  | .vtInRead who => Sys2Proof.Machine.execVtInRead who s
  | .vaultSliceTest v => Sys2Proof.Machine.execVaultSliceTest v s
  | .vaultSweep v next => Sys2Proof.Machine.execVaultSweep v next s
  | .regionTest r => Sys2Proof.Machine.execRegionTest r s
  | .quietEdge r => Sys2Proof.Machine.execQuietEdge r s
  | .engineTest e => Sys2Proof.Machine.execEngineTest e s
  | .thermosTest => Sys2Proof.Machine.execThermosTest s
  | .extMemoryTest c => Sys2Proof.Machine.execExtMemoryTest c s
  | .wholeVaultTest v => Sys2Proof.Machine.execWholeVaultTest v s
  | .laneTest l => Sys2Proof.Machine.execLaneTest l s
  | .ioRecalibration b => Sys2Proof.Machine.execIoRecalibration b s
  | .sentinelRecalibration => Sys2Proof.Machine.execSentinelRecalibration s
  | .retentionPauseEnd ix => Sys2Proof.Machine.execRetentionPauseEnd ix s
  | .testDone ix x => Sys2Proof.Machine.execTestDone ix x s
  | .expectedClear => Sys2Proof.Machine.execExpectedClear s
  | .scanEnter who => Sys2Proof.Machine.execScanEnter who s
  | .scanShift w => Sys2Proof.Machine.execScanShift w s
  | .borderCommitBufferDrain r lines => Sys2Proof.Machine.execBorderCommitBufferDrain r lines s
  | .writeLogFull r writes => Sys2Proof.Machine.execWriteLogFull r writes s
  | .illegalInstruction e w => Sys2Proof.Machine.execIllegalInstruction e w s
  | .instructionFetchFault e f => Sys2Proof.Machine.execInstructionFetchFault e f s
  | .tokenBucketRefill r => Sys2Proof.Machine.execTokenBucketRefill r s
  | .ethClientRxBeat m => Sys2Proof.Machine.execEthClientRxBeat m s
  | .ethClientTxBeat m data sop eop q ts => Sys2Proof.Machine.execEthClientTxBeat m data sop eop q ts s
  | .msixVectorMaskWrite vec masked => Sys2Proof.Machine.execMsixVectorMaskWrite vec masked s
  | .steeringModeChange w => Sys2Proof.Machine.execSteeringModeChange w s
  | .coldStart pwrSeq => Sys2Proof.Machine.execColdStart pwrSeq s
  | .fixedWindowRms v ix => Sys2Proof.Machine.execFixedWindowRms v ix s
  | .energySample x => Sys2Proof.Machine.execEnergySample x s
  | .junctionTemperatureWarning t => Sys2Proof.Machine.execJunctionTemperatureWarning t s
  | .refreshRateCodeRise c code => Sys2Proof.Machine.execRefreshRateCodeRise c code s

end Sys2Proof.Machine
end

