-- ==== Sys2Proof/Machine/Tick.lean ====
section
/-!
DEFINITION. One SYS_CLK cycle in which no command comes (notes/assumptions/4.md): EV_RAW bits of occurrences fall (R49),
the fabric trees run (R85), device time, the steward's timer and the device watchdog advance (R377, R398, R440, R445), the store buffers of the engines
drain (R206), and an enabled port that is DOWN begins training (R280).
-/

namespace Sys2Proof.Machine

/-- Every EV_RAW bit falls: a source whose condition is an occurrence holds its bit for one cycle. -/
def lowerRaw : Op := keepRegs fun _ w => w != wRaw

/-! ### The fabric trees (R85 to R89, R101) -/

/-- Signals to the personality that last one cycle fall: CTX_MISS, CTX_SWITCHED, and those of speculation (04, 05). -/
def Region.lower (g : Region) : Region := { g with ctxMiss := false, ctxSwitched := false, specRefused := false, specAborted := false }

/-- The region's copy of DEVTIME advances by a primary period (R101). -/
def Region.advance (g : Region) (per : Nat) : Region :=
  { g with devtime := (g.devtime + (g.devpart + per) / 48) % 2 ^ 64, devpart := (g.devpart + per) % 48 }

/-- Tree `t` gives an edge to the region: its primary tree, its secondary tree (R86). -/
def Device.isPri (d : Device) (t : Nat) (r : RegionId) : Bool := d.fld (rgnPg r) F.RGN_INFO.pri_tree == t
def Device.isSec (d : Device) (t : Nat) (r : RegionId) : Bool :=
  d.bit (rgnPg r) F.RGN_INFO.sec_en && d.fld (rgnPg r) F.RGN_INFO.sec_tree == t

/-- The personality's enable input, as the region's nets show it (R87). -/
def sampleEnable (r : RegionId) : Op :=
  withD fun d => modR r fun g => { g with persEnable := (d.fab r).v (d.fab r).cfg.enable }

/-- An edge of tree `t` at one running region, from what stood before it, `d`: with the regional enable high its fabric is clocked; pins,
border cells, context control and the checkpoint plane run on (R87). -/
def regionEdge (d : Device) (t : Nat) (r : RegionId) : Op :=
  let pri := d.isPri t r
  let sec := d.isSec t r
  ops [whenB (d.enable r) (both (clockFabric d r pri sec) (logStall r)), pinEdge d r pri sec,
    whenB pri (ops [primaryEdge r (d.fab r).lines (d.enable r), whenB (d.enable r) (presentNr r), modR r Region.lower])]

/-- An edge of tree `t`. Every region on it takes it at once. The copies of DEVTIME advance unless DEVTIME is held (R101, R380). -/
def treeEdge (t : Nat) : Op :=
  withD fun d =>
    let on := (List.finRange 64).filter fun r => d.running r && (d.isPri t r || d.isSec t r)
    let timed := if d.inn.hold = 0 ∧ ¬ d.inn.clkStopped.testBit 0 then (List.finRange 64).filter fun r => d.rgnP r.val == 0 && d.isPri t r else []
    ops [forAll timed fun r => modR r fun g => g.advance (d.treePeriod48 t),
      forAll on sampleEnable, withD fun d1 => forAll on (regionEdge d1 t), forAll on sampleEnable]

/-- An edge in order of time among others. -/
def insertEdge (x : Nat × Nat) : List (Nat × Nat) → List (Nat × Nat)
  | [] => [x]
  | y :: ys => if x.1 < y.1 then x :: y :: ys else y :: insertEdge x ys

/-- The edges of tree `t` within the cycle: time in 1/48 ns, and tree. A tree whose group is stopped has none (R371). -/
def Device.edgesOf (d : Device) (t : Fin 4) : List (Nat × Nat) :=
  let per := d.treePeriod48 t.val
  if per = 0 ∨ d.inn.clkStopped.testBit (t.val + 1) then []
  else (List.range ((d.inn.treeAcc[t.val] + d.sysCycle48) / per)).map fun i => ((i + 1) * per - d.inn.treeAcc[t.val], t.val)

/-- What of a period each tree has run by the end of the cycle. -/
def Device.nextAcc (d : Device) (t : Fin 4) : Nat :=
  let per := d.treePeriod48 t.val
  if per = 0 ∨ d.inn.clkStopped.testBit (t.val + 1) then d.inn.treeAcc[t.val] else (d.inn.treeAcc[t.val] + d.sysCycle48) % per

/-- A reset tree follows the element output that drives it: asserted while the output is 1 (R88; notes/assumptions/27.md). -/
def driveReset (t : Fin 2) : Op :=
  withD fun d =>
    match d.inn.rstSrc[t.val]? with
    | some (.element r n) =>
      let rr : RegionId := Fin.ofNat 64 r
      let v := d.running rr && (d.fab rr).v n
      let was := if t = 0 then d.inn.rstTree.1 else d.inn.rstTree.2
      whenB (v != was) (if v then assertTree t else releaseTree t)
    | _ => skip

/-- The fabric trees run for a SYS_CLK cycle: their edges come in order of time. -/
def tickTrees : Op :=
  withD fun d =>
    ops [modI fun n => { n with treeAcc := Vector.ofFn d.nextAcc },
      forAll (((List.finRange 4).flatMap d.edgesOf).foldr insertEdge []) fun x => ops [treeEdge x.2, driveReset 0, driveReset 1]]

/-- The steward's own timer (R440). -/
def tickSteward : Op := withD fun d => modI fun n => { n with mono := n.mono + d.sysCycle48 }

/-- ENG_CLK cycles of a SYS_CLK cycle: 4 on KROOT, 1 on OSC_F (R364). -/
def Device.engCycles (d : Device) : Nat := if d.sysCycle48 = 160 then 4 else 1

/-- A SYS_CLK cycle of an engine: the count of a watchdog that counts falls, and buffered stores that can leave do (R204, R215). -/
def tickEngine (e : EngineId) : Op :=
  both (whenD (fun d => d.wdtCounts e && !(d.inn.clkStopped.testBit 0)) (withD fun d => setN (engPg e) R.ENG_WDTCNT ((d.reg (engPg e) R.ENG_WDTCNT).toNat - d.engCycles)))
    (whenD (fun d => !((d.en e).sbuf.isEmpty)) (drain e))

/-- The test of the thermos goes on, unless a save suspends it: each block is under test for 30 µs (R479; notes/assumptions/87.md). -/
def tickThermos : Op :=
  withD fun d =>
    let go (x : TestRun) : TestRun :=
      let t := x.spent + d.sysCycle48
      if x.code ≠ 5 then x else if t < 1440000 then { x with spent := t } else { x with block := x.block + 1, spent := 0 }
    whenB d.thermosBlock.isSome (modI fun n => { n with tests := n.tests.map fun t => { t with run := t.run.map go } })

/-- A port in DOWN with LNK_CTL.en at 1 enters TRAIN, if none of its lanes is under test (12, the states of a port; R312). -/
def tickPort (p : PortId) : Op :=
  whenD (fun d => d.portOn p && d.lnkState p == psDown && d.bit (lnkPg p) F.LNK_CTL.en && !((portLanes p).any d.underTest))
    (both (setF (lnkPg p) F.LNK_STAT.state psTrain) (forAll (portLanes p) applyEnable))

/-- One cycle, of a device that is up, or sleeps in P3. -/
def tick : Op := inPhase [.up, .p3] (ops [lowerRaw, tickTrees, tickTime, tickSteward, tickStwWdt, tickThermos, forAll (List.finRange 256) tickEngine,
  forAll (List.finRange 12) tickPort])

end Sys2Proof.Machine
end

