-- ==== Sys2Proof/WellFormed.lean ====
section
/-!
DEFINITION. The commands whose operands are what the part's environment can present: lengths and widths that the operand's own
type leaves open. A meaning is total on every command; an ill-formed one names nothing that happens.
-/

namespace Sys2Proof

/-- The fields of a Guleg frame fit the header of R278: a numbered type, and each field within its width. -/
def Frame.wf (f : Frame) : Bool :=
  f.ftype < 16 && f.cls < 4 && f.etag < 4096 && f.hops < 8 && f.ports < 2 ^ 28 && f.dst < 16384 && f.src < 16384 && f.kind < 16 &&
    f.addr < 2 ^ 48 && f.status < 16 && f.init < 1024 && f.be < 2 ^ 64 && f.data.length % 64 == 0 && f.data.length ≤ 256

/-- The link sequence number of a frame received has twelve bits (R278). -/
def Received.wf : Received → Bool
  | .good l => l < 4096
  | _ => true

/-- So has an acknowledged one. -/
def ackWf : Option Ack → Bool
  | some a => a.seq < 4096
  | none => true

/-- A fabric's request fits the NQ signals (R251). -/
def FabReq.wf (q : FabReq) : Bool := q.dev < 16384 && q.addr < 2 ^ 48 && q.be < 2 ^ 64 && q.data.length ≤ 64

/-- A block RAM write is a word of 1, 2, 4 or 8 rows at an address of its shape (R70). -/
def BramWrite.wf (w : BramWrite) : Bool :=
  [1, 2, 4, 8].contains w.k && w.row % w.k == 0 && w.row + w.k ≤ 8192 && w.data < 2 ^ (9 * w.k)

/-- A write of the register window is of 32 or 64 bits (R38). -/
def wordsWf (vs : List Word) : Bool := vs.length == 1 || vs.length == 2

/-- The command's operands fit. -/
def Instr.wf : Instr → Bool
  | .registerWrite _ _ vs _ => wordsWf vs
  | .bar0Access _ n _ w _ => 0 < n && n ≤ 4096 && (w.getD []).length ≤ 1024
  | .bar2Access _ n w => n ≤ 4096 && (w.getD []).length ≤ 4096
  | .riserContention _ k => 32 ≤ k % 40 && k < 46080
  | .fetchReadUncorr _ off => off < 0x4000000
  | .fetchDone _ x => x.fixed.all fun c => c.1 < 0x4000000
  | .scrubCodewordCheck _ _ _ bits _ => bits.length ≤ 288 && decide bits.Nodup
  | .vpRequest _ _ _ _ be data => be < 2 ^ 64 && data.length ≤ 64
  | .nqRequest _ q => q.wf
  | .ntResponse _ _ _ data => data.length ≤ 64
  | .reqFrame _ f a x | .rspFrame _ f a x | .eventFrame _ f a x | .frameTransit _ f a x => f.wf && ackWf a && x.wf
  | .keyFrame _ bs a x | .loadFrame _ bs a x => bs.length ≤ 256 && ackWf a && x.wf
  | .linkFrame _ a => a.seq < 4096
  | .timeFrame _ (some (t2, t3)) => t2 < 2 ^ 68 && t3 < 2 ^ 68
  | .mbDone _ _ data | .pmbusDone _ data => data.length ≤ 4
  | .ethRxFrame _ bs _ => bs.length ≤ 16384
  | .ethClientTxBeat _ data _ _ _ _ => data.length ≤ 32
  | .writeLogFull _ ws => ws.length ≤ 64 && ws.all BramWrite.wf
  | _ => true

end Sys2Proof
end

