-- ==== Sys2Proof/Safety.lean ====
section
/-!
DEFINITION. What claims mean by a good state and a safe run: the invariant that every command keeps, the conditions under which a
command acts, and a step that goes on.
-/

namespace Sys2Proof.Machine

/-- The invariant of a state: the maps are canonical, every listed register has its reserved bits 0 (R7), and g0 of every engine
is 0 (R219). -/
def State.Inv (s : State) : Prop := s.dev.Inv

/-- The part is up: past POR release and neither asleep in P3 nor off nor held after a fatal fault. Commands but those of power,
clocks and the debug port act in this phase only. -/
def State.Up (s : State) : Prop := s.dev.inn.phase = .up

/-- The command completes: exec answers a next state, in which the same commands wait and the part is as `P` says. -/
def Completes (c : Instr) (s : State) (P : Device → Prop) : Prop := ∃ t, exec c s = .next t ∧ t.pending = s.pending ∧ P t.dev

/-- An engine retires its next instruction at this boundary, with no debug comparator enabled: it executes, no trap, NMI or interrupt
goes before the instruction, and no load waits for its line (R186, R194, R206, R233, R463). -/
def Retires (d : Device) (e : EngineId) : Prop :=
  d.engReady e = true ∧ (d.en e).noMatch = false ∧ ∀ k, k < 8 → (d.cmp k).is cEn = false

/-- The step goes on. -/
def Goes (s : State) : Prop := ∃ t, step s = .next t

/-- `n` steps go on from a state, whatever cycles pass in between. -/
def SafeFor : Nat → State → Prop
  | 0, _ => True
  | n + 1, s => ∃ t, step s = .next t ∧ SafeFor n t

/-- Every waiting command is well formed. -/
def State.WfPending (s : State) : Prop := ∀ c ∈ s.pending, c.wf = true

end Sys2Proof.Machine
end

