-- ==== Sys2Proof/Certificates/Slice0/Obligations.lean ====
section
/-!
DEFINITION. The statements about the block, from the numbered rules of the spec. `Completes c s P` (Sys2Proof/Safety.lean) says that the
command c answers a next state from s, and that the part is then as P says.
-/

namespace Sys2Proof.Machine

/-! ### What the statements share -/

/-- A part that differs from `s` by the write of one general register of an engine and the advance of its address; a write of g0 is
discarded. -/
def WroteG (s : State) (e : EngineId) (rd : GReg) (v : Word) (d : Device) : Prop :=
  d.g e rd = (if rd = 0 then 0 else v) ∧ (∀ x q, x ≠ e ∨ q ≠ rd → d.g x q = s.dev.g x q) ∧ d.regs = s.dev.regs ∧
    d.mem = s.dev.mem ∧
    d.inn = { s.dev.inn with eng := s.dev.inn.eng.set e.val { s.dev.en e with pc := (s.dev.en e).pc + 4 } }

/-- A part that differs from `s` in the control and floating-point registers of one engine only, which are now `n`. -/
def WroteE (s : State) (e : EngineId) (n : Engine) (d : Device) : Prop :=
  d.gpr = s.dev.gpr ∧ d.regs = s.dev.regs ∧ d.mem = s.dev.mem ∧ d.inn = { s.dev.inn with eng := s.dev.inn.eng.set e.val n }

/-- Every register of a page and of its neighbours but those listed is as in `s`, and so are all memories and general registers. -/
def OnlyRegs (s : State) (p : Nat) (ws : List Nat) (d : Device) : Prop :=
  (∀ q w, w < 1024 → (q ≠ p ∨ w ∉ ws) → d.reg q w = s.dev.reg q w) ∧ d.mem = s.dev.mem ∧ d.gpr = s.dev.gpr

/-- The bytes `bs` stand from address `k` on, and every other byte of memory is as in `s`. -/
def Stored (s : State) (k : Nat) (bs : List Byte) (d : Device) : Prop :=
  (∀ i, i < bs.length → d.byte (k + i) = bs.getD i 0) ∧ ∀ x, (x < k ∨ k + bs.length ≤ x) → d.byte x = s.dev.byte x

/-- An engine has entered the handler of a cause under R213: address, cause and EADDR saved, ie moved to pie, tf set; memories and
general registers are as in `s`. -/
def Trapped (s : State) (e : EngineId) (cause : Nat) (marks eaddr : Word) (d : Device) : Prop :=
  let n := s.dev.en e
  let m := d.en e
  m.pc = n.evbase + BitVec.ofNat 32 (64 * cause) ∧ m.epc = n.pc &&& 0xFFFFFFFC ∧ m.ecause = BitVec.ofNat 32 cause ||| marks ∧
    m.eaddr = eaddr ∧ esIe.get m.estat = 0 ∧ esPie.get m.estat = esIe.get n.estat ∧ esTf.get m.estat = 1 ∧
    esMask.get m.estat = esMask.get n.estat ∧ m.fr = n.fr ∧ d.gpr = s.dev.gpr ∧ d.mem = s.dev.mem

/-- A page takes writes: not gated, its domain on, its block out of reset. -/
def PageOpen (d : Device) (p : Nat) : Prop := d.gated p = false ∧ d.inReset p = false

/-- No line of the memory tier is remapped or under test, and no chunk is uncorrectable. -/
def PlainTier (d : Device) : Prop := d.inn.badChunks = [] ∧ ∀ y, y < 2 ^ 32 → d.tierCell y = y

/-- Every line of a range of the memory tier takes the steward's accesses. -/
def TierOpen (d : Device) (write : Bool) (a n : Nat) : Prop :=
  a + n ≤ 2 ^ 32 ∧ ∀ p ∈ linesOf a n, d.memWaits write p.1 = false ∧ d.memGate 5 0x101 write p.1 = .ok

end Sys2Proof.Machine

open Sys2Proof Sys2Proof.Machine

/-- A step with a command at the front of the queue is that command's effect, on the state with the rest of the queue. -/
def Obligations.StepRunsTheFront : Prop :=
  ∀ (c : Instr) (rest : List Instr) (s : State), s.pending = c :: rest → step s = exec c { s with pending := rest }

/-- The model's choice (notes/assumptions/4.md), after R49 and R377: a step with no command waiting is one SYS_CLK cycle. EV_RAW bits
fall; device time advances by the cycle's length scaled by the rate, where no hold runs and group 0 is not stopped; the count of an
engine's watchdog falls by the ENG_CLK cycles. With no region running, the store buffers of the engines empty, no enabled port DOWN and
the device watchdog off, nothing else of registers, memories and general registers changes. In other phases nothing happens. -/
def Obligations.IdleStepIsACycle : Prop :=
  ∀ (s : State), s.Inv → s.pending = [] →
    let dev := s.dev
    let t := dev.inn.devfrac + (dev.sysCycle48 * (1000000000 + (dev.reg 16 R.TIME_RATE).toInt)).toNat
    (dev.inn.phase ∈ [.up, .p3] → (∀ r, dev.running r = false) → (∀ e, (dev.en e).sbuf = []) → dev.inn.hold = 0 → dev.inn.clkStopped = 0 →
        dev.bit 1 F.STW_WDT.en = false →
        (∀ p, dev.lnkState p = psDown → dev.bit (lnkPg p) F.LNK_CTL.en = false) →
      ∃ u, step s = .next u ∧ u.pending = [] ∧ u.dev.mem = dev.mem ∧ u.dev.gpr = dev.gpr ∧
        (∀ p, u.dev.reg p 4 = 0) ∧ (∀ p w, w < 1024 → w ≠ 4 → (∀ e, p = engPg e → w ≠ R.ENG_WDTCNT) → u.dev.reg p w = dev.reg p w) ∧
        (∀ e, (u.dev.reg (engPg e) R.ENG_WDTCNT).toNat = (dev.reg (engPg e) R.ENG_WDTCNT).toNat -
          if dev.wdtCounts e = true then dev.engCycles else 0) ∧
        u.dev.inn.devtime = (dev.inn.devtime + t / nsUnit) % 2 ^ 64 ∧ u.dev.inn.devfrac = t % nsUnit ∧
        u.dev.inn.mono = dev.inn.mono + dev.sysCycle48) ∧
    (dev.inn.phase ∉ [.up, .p3] → step s = .next s)

/-- Every step keeps the invariant: the maps of registers and memory bytes stay canonical, every reserved bit of every register reads 0
(R7), and g0 of every engine reads 0. -/
def Obligations.EveryStepKeepsInv : Prop := ∀ (s t : State), s.Inv → step s = .next t → t.Inv

/-- The state after reset meets the invariant. -/
def Obligations.ResetMeetsInv : Prop := State.reset.Inv

/-- What reset leaves, of the values the spec gives (R50, R106, R170, R197, R219, R377, R445): no command waits; general and control
registers of the engines 0, but for a window's size of 16; EV_MASK ones on the sources of a vault's page; stagger 0; vault bytes 0;
DEVTIME 0; the watchdog off. -/
def Obligations.ResetValues : Prop :=
  let d := State.reset.dev
  State.reset.pending = [] ∧ (∀ e g, d.g e g = 0) ∧ (∀ a, a < 2 ^ 32 → d.byte a = 0) ∧ d.inn.devtime = 0 ∧ d.inn.devfrac = 0 ∧
    (∀ e, (d.en e).estat = 0 ∧ (d.en e).ecause = 0 ∧ (d.en e).epc = 0 ∧ (d.en e).eaddr = 0 ∧ (d.en e).evbase = 0 ∧ (d.en e).ctxid = 0 ∧
      (d.en e).fstat = 0 ∧ ∀ x : Fin 16, (d.en e).winA[x.val] = BitVec.ofNat 32 (16 * 2 ^ 11) ∧ (d.en e).winB[x.val] = 0) ∧
    d.bit 0 F.DEV_SWCTL.stagger = false ∧ d.reg 384 5 = 1 ∧ d.bit 1 F.STW_WDT.en = false

/-- From R221, R223, R230: every word of a KE32 instruction decodes to that instruction, with every operand at every value; words of
different instructions differ. -/
def Obligations.KE32WordsReadBack : Prop :=
  (∀ i : K32, i.encodable = true → decodeKE32 (encodeKE32 i) = some i) ∧
    ∀ i j : K32, i.encodable = true → j.encodable = true → encodeKE32 i = encodeKE32 j → i = j

/-- Words written out from the formats of R221 and R230 decode to the instructions they stand for; one with a reserved field set does
not. -/
def Obligations.KE32WordsOfTheTables : Prop :=
  decodeKE32 0x00221800 = some (.alu .add 1 2 3) ∧ decodeKE32 0x20220007 = some (.imm .addi 1 2 7) ∧
    decodeKE32 0x38220005 = some (.shift .shli 1 2 5) ∧ decodeKE32 0x3CA01234 = some (.lui 5 0x1234) ∧
    decodeKE32 0x04221800 = some (.fp2 .fadd 1 2 3) ∧ decodeKE32 0x50640008 = some (.load .lw 3 4 8) ∧
    decodeKE32 0x68640008 = some (.store .sw 3 4 8) ∧ decodeKE32 0x70221801 = some (.scw 1 2 3) ∧
    decodeKE32 0x80220004 = some (.branch .beq 1 2 4) ∧ decodeKE32 0xA0000010 = some (.jal 16) ∧
    decodeKE32 0xC0400006 = some (.mfcr 2 .fstat) ∧ decodeKE32 0xC0009000 = some (.sys0 .sys) ∧ decodeKE32 0x3CA11234 = none

/-- From R450: a frame whose sync is not 0x6, whose zero nibble has a bit at 1, or whose check fails has no effect; a write whose CRC-8
fails is answered ERROR, has no effect and sets wcrc and the error hold; a read of DK_LAST returns the last word again and issues no
access. -/
def Obligations.MalformedFramesHaveNoEffect : Prop :=
  ∀ (s : State), s.Inv → s.dev.inn.phase ∈ [.up, .p3, .fault] → ∀ (h : BitVec 16) (w : Word) (crc : BitVec 8),
    let n := h.toNat
    let check := (n % 16) ^^^ (n / 16 % 16) ^^^ (n / 256 % 16)
    let k := s.dev.inn.dk
    let only (d : Device) (k' : Dk) (o : List Out) : Prop :=
      d.regs = s.dev.regs ∧ d.mem = s.dev.mem ∧ d.gpr = s.dev.gpr ∧ d.inn = { s.dev.inn with dk := k', out := o ++ s.dev.inn.out }
    (n % 16 ≠ 6 ∨ n / 256 % 16 ≠ 0 ∨ n / 4096 ≠ check → Completes (.debugFrame h w crc) s fun d => d = s.dev) ∧
    (n % 16 = 6 → n / 256 % 16 = 0 → n / 4096 = check →
      (n / 16 % 2 = 1 → crc.toNat ≠ crc8 w → Completes (.debugFrame h w crc) s fun d =>
        only d { k with wcrc := true, hold := true } [.debug [9]]) ∧
      (n / 16 % 16 = 14 → Completes (.debugFrame h w crc) s fun d => only d k [.debug [3, k.last.toNat, crc8 k.last]]))

/-- From R462, at D1 or higher: DBG_ENGREG reads and writes the selected register of the halted engine; it acts only in MONITOR with no
live handler; otherwise it reads 0, ignores the write and sets denied, as do writes to windows and to read-only control registers; a
write of the halt address ignores bits 1:0. -/
def Obligations.HaltedEngineRegisters : Prop :=
  ∀ (s : State), s.Inv → s.Up → 1 ≤ s.dev.dbgLevel →
    let dev := s.dev
    let e := dev.selEngine
    let n := dev.fld 5 F.DBG_ENGSEL.num
    let cls := dev.fld 5 F.DBG_ENGSEL.class
    let en := dev.en e
    let acts : Prop := dev.engState e = esMonitor ∧ en.liveRuns = false
    let reads (v : Word) : Prop := Completes (.engregAccess none) s fun d =>
      d.inn = { dev.inn with out := .debug [v.toNat] :: dev.inn.out } ∧ d.regs = dev.regs ∧ d.mem = dev.mem ∧ d.gpr = dev.gpr
    let writes (w : Word) (m : Engine) : Prop := Completes (.engregAccess (some w)) s (WroteE s e m)
    let refused (w : Word) : Prop := Completes (.engregAccess (some w)) s fun d =>
      d.bit 5 F.DBG_STAT.denied = true ∧ d.inn = dev.inn ∧ OnlyRegs s 5 [F.DBG_STAT.denied.off] d
    (¬ acts → (∀ w, refused w) ∧ Completes (.engregAccess none) s fun d => d.bit 5 F.DBG_STAT.denied = true ∧
      d.inn = { dev.inn with out := .debug [0] :: dev.inn.out } ∧ OnlyRegs s 5 [F.DBG_STAT.denied.off] d) ∧
    (acts →
      (∀ x : Fin 32, n = x.val →
        (cls = 0 → reads (dev.g e x) ∧ ∀ w, Completes (.engregAccess (some w)) s fun d =>
          d.g e x = (if x = 0 then 0 else w) ∧ (∀ y q, y ≠ e ∨ q ≠ x → d.g y q = dev.g y q) ∧ d.regs = dev.regs ∧ d.mem = dev.mem ∧
            d.inn = dev.inn) ∧
        (cls = 1 → reads en.fr[x.val] ∧ ∀ w, writes w { en with fr := en.fr.set x.val w })) ∧
      (cls = 2 →
        (n = 0 → reads en.estat ∧ ∀ w, writes w { en with estat := w &&& 0xFFFF0007 }) ∧
        (n = 1 → reads en.ecause ∧ ∀ w, refused w) ∧
        (n = 2 → reads en.epc ∧ ∀ w, writes w { en with epc := w &&& 0xFFFFFFFC }) ∧
        (n = 3 → reads en.eaddr ∧ ∀ w, refused w) ∧
        (n = 4 → reads en.evbase ∧ ∀ w, writes w { en with evbase := w &&& 0xFFFFF000 }) ∧
        (n = 5 → reads en.ctxid ∧ ∀ w, writes w { en with ctxid := w &&& 0x0000FFFF }) ∧
        (n = 6 → reads en.fstat ∧ ∀ w, writes w { en with fstat := fstatWrite en.fstat w }) ∧
        (∀ x : Fin 16, n = 16 + 2 * x.val → reads en.winA[x.val] ∧ ∀ w, refused w) ∧
        (∀ x : Fin 16, n = 17 + 2 * x.val → reads en.winB[x.val] ∧ ∀ w, refused w)) ∧
      (cls = 3 → reads en.pc ∧ ∀ w, writes w { en with pc := w &&& 0xFFFFFFFC }))

/-- The integer register operations of R221 on an engine that retires: the destination takes the operation's value, g0 discards it, and
nothing else changes but the engine's address. -/
def Sys2Proof.IntegerRegisterOpsRules : Prop :=
  ∀ (s : State) (e : EngineId) (rd rs1 rs2 : GReg), s.Inv → s.Up → Retires s.dev e →
    let a := s.dev.g e rs1
    let b := s.dev.g e rs2
    Completes (.add e rd rs1 rs2) s (WroteG s e rd (a + b)) ∧
    Completes (.sub e rd rs1 rs2) s (WroteG s e rd (a - b)) ∧
    Completes (.and e rd rs1 rs2) s (WroteG s e rd (a &&& b)) ∧
    Completes (.or e rd rs1 rs2) s (WroteG s e rd (a ||| b)) ∧
    Completes (.xor e rd rs1 rs2) s (WroteG s e rd (a ^^^ b)) ∧
    Completes (.shl e rd rs1 rs2) s (WroteG s e rd (a <<< (b.toNat % 32))) ∧
    Completes (.shr e rd rs1 rs2) s (WroteG s e rd (a >>> (b.toNat % 32))) ∧
    Completes (.sar e rd rs1 rs2) s (WroteG s e rd (a.sshiftRight (b.toNat % 32))) ∧
    Completes (.lt e rd rs1 rs2) s (WroteG s e rd (if a.toInt < b.toInt then 1 else 0)) ∧
    Completes (.ltu e rd rs1 rs2) s (WroteG s e rd (if a.toNat < b.toNat then 1 else 0)) ∧
    Completes (.mul e rd rs1 rs2) s (WroteG s e rd (a * b)) ∧
    Completes (.mulhs e rd rs1 rs2) s (WroteG s e rd (BitVec.ofInt 32 (a.toInt * b.toInt / 2 ^ 32))) ∧
    Completes (.mulhu e rd rs1 rs2) s (WroteG s e rd (BitVec.ofNat 32 (a.toNat * b.toNat / 2 ^ 32)))

/-- From R222: the divisions and remainders complete on every pair of operands, and where the true quotient cannot be represented they
saturate, and the remainders give 0. -/
def Sys2Proof.DivisionsSaturateRules : Prop :=
  ∀ (s : State) (e : EngineId) (rd rs1 rs2 : GReg), s.Inv → s.Up → Retires s.dev e →
    let a := s.dev.g e rs1
    let b := s.dev.g e rs2
    let minus1 : Word := 0xFFFFFFFF
    let least : Word := 0x80000000
    (∃ q, Completes (.div e rd rs1 rs2) s (WroteG s e rd q) ∧
      (b = 0 → 0 ≤ a.toInt → q = 0x7FFFFFFF) ∧ (b = 0 → a.toInt < 0 → q = 0x80000000) ∧
      (a = least → b = minus1 → q = 0x7FFFFFFF) ∧
      (b ≠ 0 → ¬ (a = least ∧ b = minus1) → q.toInt = a.toInt.tdiv b.toInt)) ∧
    (∃ q, Completes (.divu e rd rs1 rs2) s (WroteG s e rd q) ∧
      (b = 0 → q = 0xFFFFFFFF) ∧ (b ≠ 0 → q.toNat = a.toNat / b.toNat)) ∧
    (∃ q, Completes (.rem e rd rs1 rs2) s (WroteG s e rd q) ∧
      (b = 0 → q = 0) ∧ (a = least → b = minus1 → q = 0) ∧
      (b ≠ 0 → ¬ (a = least ∧ b = minus1) → q.toInt = a.toInt.tmod b.toInt)) ∧
    (∃ q, Completes (.remu e rd rs1 rs2) s (WroteG s e rd q) ∧
      (b = 0 → q = 0) ∧ (b ≠ 0 → q.toNat = a.toNat % b.toNat))

/-- From R223: the immediate operations, shifts by an immediate and lui, with the extension that each gives its immediate. -/
def Sys2Proof.ImmediateOpsRules : Prop :=
  ∀ (s : State) (e : EngineId) (rd rs1 : GReg) (v : BitVec 16) (n : Fin 32), s.Inv → s.Up → Retires s.dev e →
    let a := s.dev.g e rs1
    let sx : Word := v.signExtend 32
    let zx : Word := v.zeroExtend 32
    Completes (.addi e rd rs1 v) s (WroteG s e rd (a + sx)) ∧
    Completes (.andi e rd rs1 v) s (WroteG s e rd (a &&& zx)) ∧
    Completes (.ori e rd rs1 v) s (WroteG s e rd (a ||| zx)) ∧
    Completes (.xori e rd rs1 v) s (WroteG s e rd (a ^^^ zx)) ∧
    Completes (.lti e rd rs1 v) s (WroteG s e rd (if a.toInt < v.toInt then 1 else 0)) ∧
    Completes (.ltiu e rd rs1 v) s (WroteG s e rd (if a.toNat < sx.toNat then 1 else 0)) ∧
    Completes (.shli e rd rs1 n) s (WroteG s e rd (a <<< n.val)) ∧
    Completes (.shri e rd rs1 n) s (WroteG s e rd (a >>> n.val)) ∧
    Completes (.sari e rd rs1 n) s (WroteG s e rd (a.sshiftRight n.val)) ∧
    Completes (.lui e rd v) s (WroteG s e rd (BitVec.ofNat 32 (v.toNat * 65536)))

/-- Integer instructions of an engine: results, the divisions, immediates and shifts; their frame. -/
def Obligations.IntegerInstructions : Prop :=
  IntegerRegisterOpsRules ∧ DivisionsSaturateRules ∧ ImmediateOpsRules

/-- From R224, R225: every floating-point operation completes on every pair of operands, where none of the flags that its result raises
has its trap enabled. It ORs those flags into FSTAT.flags and writes its destination, a floating-point register or, for comparisons and
conversions to integers, a general one. The value and flags of a rounded result are those of Flags.lean. -/
def Sys2Proof.FloatOpsRules : Prop :=
  ∀ (s : State) (e : EngineId) (rd rs1 rs2 : GReg), s.Inv → s.Up → Retires s.dev e →
    let n := s.dev.en e
    let rm := fsRm.get n.fstat
    let done (r : Word × Nat) : Engine := { n with fstat := fsFlags.set (fsFlags.get n.fstat ||| r.2) n.fstat, pc := n.pc + 4 }
    let quiet (r : Word × Nat) : Prop := r.2 &&& fsTrapEn.get n.fstat = 0
    let toF (c : Instr) (r : Word × Nat) : Prop :=
      ∃ t, exec c s = .next t ∧ t.pending = s.pending ∧ t.dev.f e rd = r.1 ∧ WroteE s e { done r with fr := n.fr.set rd.val r.1 } t.dev
    let toG (c : Instr) (r : Word × Nat) : Prop :=
      ∃ t, exec c s = .next t ∧ t.pending = s.pending ∧ t.dev.g e rd = (if rd = 0 then 0 else r.1) ∧
        (∀ x q, x ≠ e ∨ q ≠ rd → t.dev.g x q = s.dev.g x q) ∧ t.dev.regs = s.dev.regs ∧ t.dev.mem = s.dev.mem ∧
        t.dev.inn = { s.dev.inn with eng := s.dev.inn.eng.set e.val (done r) }
    let x := s.dev.f e rs1
    let y := s.dev.f e rs2
    let a := s.dev.g e rs1
    (quiet (fp2Val .fadd rm x y) → toF (.fadd e rd rs1 rs2) (fp2Val .fadd rm x y)) ∧
    (quiet (fp2Val .fsub rm x y) → toF (.fsub e rd rs1 rs2) (fp2Val .fsub rm x y)) ∧
    (quiet (fp2Val .fmul rm x y) → toF (.fmul e rd rs1 rs2) (fp2Val .fmul rm x y)) ∧
    (quiet (fp2Val .fdiv rm x y) → toF (.fdiv e rd rs1 rs2) (fp2Val .fdiv rm x y)) ∧
    (quiet (fp1Val .fsqrt rm x) → toF (.fsqrt e rd rs1) (fp1Val .fsqrt rm x)) ∧
    (quiet (fp2Val .fmin rm x y) → toF (.fmin e rd rs1 rs2) (fp2Val .fmin rm x y)) ∧
    (quiet (fp2Val .fmax rm x y) → toF (.fmax e rd rs1 rs2) (fp2Val .fmax rm x y)) ∧
    toF (.fcsgn e rd rs1 rs2) (withSign x y.msb, 0) ∧
    toF (.fnsgn e rd rs1 rs2) (withSign x !y.msb, 0) ∧
    toF (.fxsgn e rd rs1 rs2) (withSign x (x.msb != y.msb), 0) ∧
    (quiet (fp2Val .fceq rm x y) → toG (.fceq e rd rs1 rs2) (fp2Val .fceq rm x y)) ∧
    (quiet (fp2Val .fclt rm x y) → toG (.fclt e rd rs1 rs2) (fp2Val .fclt rm x y)) ∧
    (quiet (fp2Val .fcle rm x y) → toG (.fcle e rd rs1 rs2) (fp2Val .fcle rm x y)) ∧
    (quiet (fp2Val .fcun rm x y) → toG (.fcun e rd rs1 rs2) (fp2Val .fcun rm x y)) ∧
    (quiet (fp1Val .ftoi rm x) → toG (.ftoi e rd rs1) (fp1Val .ftoi rm x)) ∧
    (quiet (fp1Val .ftou rm x) → toG (.ftou e rd rs1) (fp1Val .ftou rm x)) ∧
    (quiet (fp1Val .itof rm a) → toF (.itof e rd rs1) (fp1Val .itof rm a)) ∧
    (quiet (fp1Val .utof rm a) → toF (.utof e rd rs1) (fp1Val .utof rm a)) ∧
    toG (.fmvg e rd rs1) (x, 0) ∧
    toF (.fmvf e rd rs1) (a, 0) ∧
    (quiet (fp1Val .fkind rm x) → toG (.fkind e rd rs1) (fp1Val .fkind rm x))

/-- From R225: a flag that an addition raises while its trap is enabled is set, the destination is not written, and the engine enters
the floating-point trap 0x0E of R232 at EVBASE + 64 × cause, with EPC at the instruction; nothing of memory changes. -/
def Sys2Proof.FloatTrapRules : Prop :=
  ∀ (s : State) (e : EngineId) (rd rs1 rs2 : GReg), s.Inv → s.Up → Retires s.dev e →
    let n := s.dev.en e
    let r := fp2Val .fadd (fsRm.get n.fstat) (s.dev.f e rs1) (s.dev.f e rs2)
    r.2 &&& fsTrapEn.get n.fstat ≠ 0 → esTf.get n.estat = 0 →
    Completes (.fadd e rd rs1 rs2) s fun d =>
      (d.en e).fr = n.fr ∧ fsFlags.get (d.en e).fstat = fsFlags.get n.fstat ||| r.2 ∧ d.gpr = s.dev.gpr ∧ d.mem = s.dev.mem ∧
        (d.en e).ecause = 0x0E ∧ (d.en e).epc = n.pc &&& 0xFFFFFFFC ∧ (d.en e).pc = n.evbase + 0x380

/-- Floating-point instructions of an engine: results, flags, and the trap of an enabled flag. -/
def Obligations.FloatInstructions : Prop :=
  FloatOpsRules ∧ FloatTrapRules

/-- From R228: the conditional branches, jal, j, and jalr to an aligned target. jalr reads rs1 before it writes rd. The branch predictor
learns each (`Engine.learn`, whose counter rule is the model's, log entry 86). -/
def Obligations.BranchesAndJumps : Prop :=
  ∀ (s : State) (e : EngineId) (rd rs1 rs2 : GReg) (off : BitVec 16) (far : BitVec 26), s.Inv → s.Up → Retires s.dev e →
    let n := s.dev.en e
    let a := s.dev.g e rs1
    let b := s.dev.g e rs2
    let near := n.pc + 4 * off.signExtend 32
    let at' (taken : Bool) (target pc : Word) : Engine := { n.learn taken target with pc := pc }
    let goes (c : Prop) [Decidable c] : Device → Prop := WroteE s e (at' (decide c) near (if c then near else n.pc + 4))
    let linked (r : GReg) (pc : Word) (d : Device) : Prop :=
      d.g e r = (if r = 0 then 0 else n.pc + 4) ∧ (∀ x q, x ≠ e ∨ q ≠ r → d.g x q = s.dev.g x q) ∧ d.regs = s.dev.regs ∧
        d.mem = s.dev.mem ∧ d.inn = { s.dev.inn with eng := s.dev.inn.eng.set e.val (at' true pc pc) }
    Completes (.beq e rs1 rs2 off) s (goes (a = b)) ∧
    Completes (.bne e rs1 rs2 off) s (goes (a ≠ b)) ∧
    Completes (.blt e rs1 rs2 off) s (goes (a.toInt < b.toInt)) ∧
    Completes (.bge e rs1 rs2 off) s (goes (b.toInt ≤ a.toInt)) ∧
    Completes (.bltu e rs1 rs2 off) s (goes (a.toNat < b.toNat)) ∧
    Completes (.bgeu e rs1 rs2 off) s (goes (b.toNat ≤ a.toNat)) ∧
    Completes (.jal e far) s (linked 31 (n.pc + 4 * far.signExtend 32)) ∧
    Completes (.j e far) s (WroteE s e (at' true (n.pc + 4 * far.signExtend 32) (n.pc + 4 * far.signExtend 32))) ∧
    ((a + off.signExtend 32).toNat % 4 = 0 → Completes (.jalr e rd rs1 off) s (linked rd (a + off.signExtend 32)))

/-- From R219, R230: mfcr reads any control register; mtcr and mtcrm write the ones that are not read-only, mtcrm under its mask; the
fields that read as zero stay so. A write of a read-only one is an illegal instruction. -/
def Obligations.ControlRegisters : Prop :=
  ∀ (s : State) (e : EngineId) (rd rs1 gm : GReg) (c : CReg), s.Inv → s.Up → Retires s.dev e →
    let n := s.dev.en e
    let a := s.dev.g e rs1
    let m := s.dev.g e gm
    let writes (v : Word) : Device → Prop := WroteE s e { n.setCr c v with pc := n.pc + 4 }
    Completes (.mfcr e rd c) s (WroteG s e rd (n.cr c)) ∧
    (c.readOnly = false → Completes (.mtcr e c rs1) s (writes a)) ∧
    (c.readOnly = false → Completes (.mtcrm e c rs1 gm) s (writes ((n.cr c &&& ~~~m) ||| (a &&& m)))) ∧
    (c.readOnly = true → esTf.get n.estat = 0 →
      Completes (.mtcr e c rs1) s (Trapped s e 0x01 0 (encodeKE32 (.mtcr c rs1))) ∧
      Completes (.mtcrm e c rs1 gm) s (Trapped s e 0x01 0 (encodeKE32 (.mtcrm c rs1 gm))))

/-- From R226, R201: an aligned load of a good word of a tightly coupled memory, no store being buffered: bytes and halfwords are
sign-extended or zero-extended, lwf writes a floating-point register. -/
def Obligations.LoadsFromTightlyCoupledMemory : Prop :=
  ∀ (s : State) (e : EngineId) (rd rs1 : GReg) (off : BitVec 16) (f : LineFound), s.Inv → s.Up → Retires s.dev e →
    let n := s.dev.en e
    let a := (s.dev.g e rs1 + off.signExtend 32).toNat
    let m (k : Nat) : Nat := s.dev.num (itcm e.val + a) k
    a < 0x20000 → n.sbuf = [] → n.tcmBad = [] → f.c0 = .clean →
    Completes (.lb e rd rs1 off f) s (WroteG s e rd ((BitVec.ofNat 8 (m 1)).signExtend 32)) ∧
    Completes (.lbu e rd rs1 off f) s (WroteG s e rd (BitVec.ofNat 32 (m 1))) ∧
    (a % 2 = 0 → Completes (.lh e rd rs1 off f) s (WroteG s e rd ((BitVec.ofNat 16 (m 2)).signExtend 32))) ∧
    (a % 2 = 0 → Completes (.lhu e rd rs1 off f) s (WroteG s e rd (BitVec.ofNat 32 (m 2)))) ∧
    (a % 4 = 0 → Completes (.lw e rd rs1 off f) s (WroteG s e rd (BitVec.ofNat 32 (m 4)))) ∧
    (a % 4 = 0 → Completes (.lwf e rd rs1 off f) s
      (WroteE s e { n with fr := n.fr.set rd.val (BitVec.ofNat 32 (m 4)), pc := n.pc + 4 }))

/-- From R197 to R199, R202, R204, R209, R226: loads and stores outside the tightly coupled memories: in no window, in a window that
refuses stores, in the data cache, past it in the memory tier, into the store buffer; a word popped from an up FIFO, one pushed. -/
def Obligations.WindowsAndPorts : Prop :=
  ∀ (s : State) (e : EngineId) (r rs1 : GReg) (off : BitVec 16) (f : LineFound), s.Inv → s.Up → Retires s.dev e →
    let dev := s.dev
    let n := dev.en e
    let va := dev.g e rs1 + off.signExtend 32
    let a := va.toNat
    let rgn := dev.rg (Fin.ofNat 64 (engRgn e))
    let ld : LoadOp → Instr
      | .lb => .lb e r rs1 off f | .lbu => .lbu e r rs1 off f | .lh => .lh e r rs1 off f | .lhu => .lhu e r rs1 off f
      | .lw => .lw e r rs1 off f | .lwf => .lwf e r rs1 off f
    let st : StoreOp → Instr
      | .sb => .sb e r rs1 off f | .sh => .sh e r rs1 off f | .sw => .sw e r rs1 off f | .swf => .swf e r rs1 off f
    let loaded (op : LoadOp) (bs : List Byte) : Device → Prop :=
      if op = .lwf then WroteE s e { n with fr := n.fr.set r.val (loadVal op (Word.natOfBytes bs)), pc := n.pc + 4 }
      else WroteG s e r (loadVal op (Word.natOfBytes bs))
    let bytes (op : StoreOp) : List Byte := (Word.bytes (if op = .swf then dev.f e r else dev.g e r)).take (storeSize op)
    let open' (write : Bool) (t : Nat) : Prop :=
      inTier t = true ∧ PlainTier dev ∧ dev.memWaits write t = false ∧ dev.memGate (engRgn e) e.val write t = .ok ∧ f.c0 = .clean ∧ f.c1 = .clean
    (∀ op, a % loadSize op = 0 →
      (n.place a = .nowhere → esTf.get n.estat = 0 → Completes (ld op) s (Trapped s e 0x0A 0 va)) ∧
      (∀ x t, n.place a = .window x t →
        (n.cached x t = true →
          (∀ c, n.dline (t / 64) = some c → f.c0 ≠ .uncorrectable → Completes (ld op) s (loaded op ((c.data.drop (t % 64)).take (loadSize op)))) ∧
          (n.dline (t / 64) = none → t / 64 ∉ n.fills → dev.readRoom e = true →
            Completes (ld op) s (WroteE s e { n with miss := some (t / 64, va), runAhead := some 0 }))) ∧
        (n.cached x t = false → n.sbuf = [] → open' false t → Completes (ld op) s (loaded op (dev.bytes t (loadSize op)))))) ∧
    (∀ op, a % storeSize op = 0 →
      (n.place a = .nowhere → esTf.get n.estat = 0 → Completes (st op) s (Trapped s e 0x0B 0 va)) ∧
      (∀ x t, n.place a = .window x t →
        (wnWprot.get n.winA[x.val] = 1 → esTf.get n.estat = 0 → Completes (st op) s (Trapped s e 0x0B 0 va)) ∧
        (wnWprot.get n.winA[x.val] = 0 →
          (∀ c, n.cached x t = true → n.dline (t / 64) = some c → f.c0 ≠ .uncorrectable → Completes (st op) s (WroteE s e { n with
            pc := n.pc + 4
            dc := n.dc.map fun y => if y.1 = t / 64 then (y.1, { dirty := true, data := patch y.2.data (t % 64) (bytes op) }) else y })) ∧
          (n.cached x t = false → n.sbuf ≠ [] → n.sbuf.length < 8 → Completes (st op) s
            (WroteE s e { n with pc := n.pc + 4, sbuf := n.sbuf ++ [.mem a t (bytes op) f] })) ∧
          (n.cached x t = false → n.sbuf = [] → open' true t → Completes (st op) s fun d =>
            Stored s t (bytes op) d ∧ d.gpr = dev.gpr ∧ d.regs = dev.regs ∧ (d.en e).pc = n.pc + 4)))) ∧
    (∀ p, n.place a = .portData p →
      let up := rgn.up[(fifoIndex e p).val]
      let down := rgn.down[(fifoIndex e p).val]
      (up.engWords ≠ 0 → Completes (.lw e r rs1 off f) s fun d => d.g e r = (if r = 0 then 0 else up.q.headD 0) ∧ (d.en e).pc = n.pc + 4 ∧
        ((d.rg (Fin.ofNat 64 (engRgn e))).up[(fifoIndex e p).val]).q = up.q.drop 1 ∧ d.regs = dev.regs ∧ d.mem = dev.mem) ∧
      (n.sbuf = [] → 0 < down.engFree → Completes (.sw e r rs1 off f) s fun d => (d.en e).pc = n.pc + 4 ∧
        ((d.rg (Fin.ofNat 64 (engRgn e))).down[(fifoIndex e p).val]).q = down.q ++ [dev.g e r] ∧ d.gpr = dev.gpr ∧ d.regs = dev.regs ∧
          d.mem = dev.mem))

/-- From R226, R201: an aligned store to a tightly coupled memory of an engine whose store buffer is empty writes the low bytes of its
register, least significant first, at rs1 + offset, and no other byte of memory; general registers and the register window are
unchanged. -/
def Obligations.StoresToTightlyCoupledMemory : Prop :=
  ∀ (s : State) (e : EngineId) (rs2 rs1 : GReg) (off : BitVec 16) (f : LineFound), s.Inv → s.Up → Retires s.dev e →
    let n := s.dev.en e
    let a := (s.dev.g e rs1 + off.signExtend 32).toNat
    let stores (k : Nat) (v : Word) (d : Device) : Prop :=
      Stored s (itcm e.val + a) ((Word.bytes v).take k) d ∧ d.gpr = s.dev.gpr ∧ d.regs = s.dev.regs ∧ (d.en e).pc = n.pc + 4
    a < 0x20000 → n.sbuf = [] → n.tcmBad = [] → f.c0 = .clean →
    Completes (.sb e rs2 rs1 off f) s (stores 1 (s.dev.g e rs2)) ∧
    (a % 2 = 0 → Completes (.sh e rs2 rs1 off f) s (stores 2 (s.dev.g e rs2))) ∧
    (a % 4 = 0 → Completes (.sw e rs2 rs1 off f) s (stores 4 (s.dev.g e rs2))) ∧
    (a % 4 = 0 → Completes (.swf e rs2 rs1 off f) s (stores 4 (s.dev.f e rs2)))

/-- From R226, R232: a misaligned halfword or word access traps before any lookup, as a load (0x08) or a store (0x09), with its address
in EADDR; no register is written and no byte of memory changes. -/
def Sys2Proof.MisalignedAccessTrapsRules : Prop :=
  ∀ (s : State) (e : EngineId) (r rs1 : GReg) (off : BitVec 16) (f : LineFound), s.Inv → s.Up → Retires s.dev e →
    let va := s.dev.g e rs1 + off.signExtend 32
    esTf.get (s.dev.en e).estat = 0 →
    (va.toNat % 2 = 1 → Completes (.lh e r rs1 off f) s (Trapped s e 0x08 0 va) ∧
      Completes (.lhu e r rs1 off f) s (Trapped s e 0x08 0 va) ∧ Completes (.sh e r rs1 off f) s (Trapped s e 0x09 0 va)) ∧
    (va.toNat % 4 ≠ 0 → Completes (.lw e r rs1 off f) s (Trapped s e 0x08 0 va) ∧
      Completes (.lwf e r rs1 off f) s (Trapped s e 0x08 0 va) ∧ Completes (.sw e r rs1 off f) s (Trapped s e 0x09 0 va) ∧
      Completes (.swf e r rs1 off f) s (Trapped s e 0x09 0 va))

/-- From R221, R232, R199, R201: a word that is no instruction traps with the word in EADDR; a fetch at whose address a window fault, a
bus error or uncorrectable data can be met (`Engine.fetchCan`), and meets it, traps with its address in EADDR. -/
def Sys2Proof.FetchAndIllegalTrapsRules : Prop :=
  ∀ (s : State) (e : EngineId) (w : Word), s.Inv → s.Up → esTf.get (s.dev.en e).estat = 0 →
    let n := s.dev.en e
    let faults (f : FetchFault) (cause : Nat) : Prop :=
      n.fetchCan f = true → Completes (.instructionFetchFault e f) s (Trapped s e cause 0 n.pc)
    (Retires s.dev e → decodeKE32 w = none → Completes (.illegalInstruction e w) s (Trapped s e 0x01 0 w)) ∧
    (s.dev.engBoundary e = true → faults .window 0x05 ∧ faults .bus 0x06 ∧ faults .data 0x07)

/-- From R213: a synchronous trap taken while tf is 1 halts the engine, with ENG_TRAP.double set; no handler is entered. -/
def Sys2Proof.DoubleTrapHaltsRules : Prop :=
  ∀ (s : State) (e : EngineId), s.Inv → s.Up → Retires s.dev e → esTf.get (s.dev.en e).estat = 1 →
    Completes (.sys e) s fun d => d.engState e = esHalted ∧ d.fld (engPg e) F.ENG_TRAP.double = 1 ∧ (d.en e).pc = (s.dev.en e).pc ∧
      (d.en e).epc = (s.dev.en e).epc ∧ d.gpr = s.dev.gpr ∧ d.mem = s.dev.mem

/-- Traps of an engine: misaligned accesses, fetches, illegal words, and a double trap. -/
def Obligations.EngineTraps : Prop :=
  MisalignedAccessTrapsRules ∧ FetchAndIllegalTrapsRules ∧ DoubleTrapHaltsRules

/-- From R207, R229 on data memory: lr.w reads the word and reserves its granule; sc.w with the reservation held writes the word, gives
1 and ends the reservation; without it, it gives 0 and accesses no memory. -/
def Obligations.LoadReservedStoreConditional : Prop :=
  ∀ (s : State) (e : EngineId) (rd rs1 rs2 : GReg) (f : LineFound), s.Inv → s.Up → Retires s.dev e →
    let n := s.dev.en e
    let a := (s.dev.g e rs1).toNat
    let k := itcm e.val + a
    0x10000 ≤ a → a < 0x20000 → a % 4 = 0 → n.sbuf = [] → n.tcmBad = [] → f.c0 = .clean →
    Completes (.lrW e rd rs1 f) s (fun d => d.g e rd = (if rd = 0 then 0 else BitVec.ofNat 32 (s.dev.num k 4)) ∧
      (e.val, k / 64) ∈ d.inn.resv ∧ d.mem = s.dev.mem ∧ d.regs = s.dev.regs) ∧
    ((e.val, k / 64) ∈ s.dev.inn.resv → Completes (.scW e rd rs1 rs2 f) s fun d =>
      d.g e rd = (if rd = 0 then 0 else 1) ∧ Stored s k (Word.bytes (s.dev.g e rs2)) d ∧ ∀ x ∈ d.inn.resv, x.1 ≠ e.val) ∧
    ((e.val, k / 64) ∉ s.dev.inn.resv → Completes (.scW e rd rs1 rs2 f) s fun d =>
      d.g e rd = 0 ∧ d.mem = s.dev.mem ∧ ∀ x ∈ d.inn.resv, x.1 ≠ e.val)

/-- From R230, R231, R232, R235: sync, isync and iinv of an engine with nothing buffered; idle with an enabled line pending; sys; brk
where no debugger catches it, and where one does; tret outside a live handler. -/
def Obligations.SystemInstructions : Prop :=
  ∀ (s : State) (e : EngineId), s.Inv → s.Up → Retires s.dev e →
    let n := s.dev.en e
    let next (m : Engine) : Engine := { m with pc := n.pc + 4 }
    (n.sbuf = [] → Completes (.sync e) s (WroteE s e (next n))) ∧
    (n.sbuf = [] → Completes (.isync e) s (WroteE s e (next n))) ∧
    (n.sbuf = [] → Completes (.iinv e) s (WroteE s e (next { n with ic := [] }))) ∧
    (s.dev.irqDue e ≠ 0 → s.dev.irqDue e < 65536 → Completes (.idle e) s (WroteE s e (next n))) ∧
    (esTf.get n.estat = 0 → Completes (.sys e) s (Trapped s e 0x03 0 0)) ∧
    (esTf.get n.estat = 0 → n.catchBrk = false → Completes (.brk e) s (Trapped s e 0x02 0 0)) ∧
    (n.catchBrk = true → n.liveRuns = false → Completes (.brk e) s fun d =>
      d.engState e = esMonitor ∧ (d.en e).haltCause = 3 ∧ (d.en e).pc = n.pc ∧ d.gpr = s.dev.gpr ∧ d.mem = s.dev.mem) ∧
    (n.liveRuns = false → Completes (.tret e) s fun d =>
      (d.en e).pc = n.epc ∧ esIe.get (d.en e).estat = esPie.get n.estat ∧ esTf.get (d.en e).estat = 0 ∧
        esMask.get (d.en e).estat = esMask.get n.estat ∧ d.gpr = s.dev.gpr ∧ d.mem = s.dev.mem ∧ d.regs = s.dev.regs)

/-- From R204, R230: dwb writes a dirty line back and keeps it, dinv drops the line, dwbi does both; a write back joins the stores that
wait. On a clean line dwb changes nothing; where no line of the cache holds the address, through a window that is not cached, and in
local space, each only goes on. dwb and dwbi trap through a write-protected window, and all do where no window leads. -/
def Obligations.DataCacheMaintenance : Prop :=
  ∀ (s : State) (e : EngineId) (rs1 : GReg), s.Inv → s.Up → Retires s.dev e →
    let n := s.dev.en e
    let va := s.dev.g e rs1
    let on : Engine := { n with pc := n.pc + 4 }
    let each (P : Device → Prop) : Prop := Completes (.dwb e rs1) s P ∧ Completes (.dinv e rs1) s P ∧ Completes (.dwbi e rs1) s P
    (∀ (x : Fin 16) (a : Nat), n.place va.toNat = .window x a →
      let l := a / 64
      let without := n.dc.filter fun y => y.1 != l
      (wnWprot.get n.winA[x.val] = 0 →
        (n.cached x a = true → n.sbuf.length < 8 →
          (∀ c, n.dline l = some c →
            (c.dirty = true → n.sbuf ≠ [] →
              let behind : List PendStore := n.sbuf ++ [.mem (64 * l % 2 ^ 32) (64 * l) c.data {}]
              Completes (.dwb e rs1) s (WroteE s e { n with
                dc := n.dc.map fun y => if y.1 = l then (l, { y.2 with dirty := false }) else y, sbuf := behind, pc := n.pc + 4 }) ∧
              Completes (.dwbi e rs1) s (WroteE s e { n with dc := without, sbuf := behind, pc := n.pc + 4 })) ∧
            (c.dirty = false →
              Completes (.dwb e rs1) s (WroteE s e on) ∧ Completes (.dwbi e rs1) s (WroteE s e { n with dc := without, pc := n.pc + 4 })) ∧
            Completes (.dinv e rs1) s (WroteE s e { n with dc := without, pc := n.pc + 4 })) ∧
          (n.dline l = none → each (WroteE s e on))) ∧
        (n.cached x a = false → each (WroteE s e on))) ∧
      (wnWprot.get n.winA[x.val] = 1 → esTf.get n.estat = 0 →
        Completes (.dwb e rs1) s (Trapped s e 0x0B 0 va) ∧ Completes (.dwbi e rs1) s (Trapped s e 0x0B 0 va))) ∧
    (∀ k, n.place va.toNat ∈ [.tcm, .reserved, .portData k, .portStat k] → each (WroteE s e on)) ∧
    (n.place va.toNat = .nowhere → esTf.get n.estat = 0 → each (Trapped s e 0x0B 0 va))

/-- From R186, R189, R190: run starts a parked engine at ENG_BOOT.pc; park moves a running one to PARKING; once its stores have drained,
its reads have ended and its cache holds nothing, it is PARKED with its general and floating-point registers, ESTAT, ECAUSE, EPC, EADDR
and FSTAT 0. -/
def Sys2Proof.EngineRunAndParkRules : Prop :=
  ∀ (s : State) (e : EngineId), s.Inv → s.Up → PageOpen s.dev (engPg e) → s.dev.rgnP (engRgn e) = 0 →
    (s.dev.engState e = esParked → s.dev.fenced (engPg e) = false → Completes (.engineRun e) s fun d =>
      d.engState e = esRunning ∧ (d.en e).pc = s.dev.reg (engPg e) R.ENG_BOOT ∧ d.gpr = s.dev.gpr ∧ d.mem = s.dev.mem) ∧
    (s.dev.engState e = esRunning → Completes (.enginePark e) s fun d =>
      d.engState e = esParking ∧ d.gpr = s.dev.gpr ∧ d.mem = s.dev.mem) ∧
    (s.dev.engState e = esParking → (s.dev.en e).sbuf = [] → (s.dev.en e).dc = [] → s.dev.engReads e = 0 → Completes (.engineParked e) s fun d =>
      d.engState e = esParked ∧ (∀ r, d.g e r = 0) ∧ (∀ r, d.f e r = 0) ∧ (d.en e).estat = 0 ∧ (d.en e).ecause = 0 ∧
        (d.en e).epc = 0 ∧ (d.en e).eaddr = 0 ∧ (d.en e).fstat = 0 ∧ d.mem = s.dev.mem ∧ ∀ x r, x ≠ e → d.g x r = s.dev.g x r)

/-- From R206, R211, R212, R213: the imprecise trap of a store error, an interrupt, an NMI. -/
def Sys2Proof.EngineInterruptsRules : Prop :=
  ∀ (s : State) (e : EngineId), s.Inv → s.Up → s.dev.engRuns e = true →
    (∀ c a, c < 256 → (s.dev.en e).storeErr = some (c, a) → Completes (.storeError e) s fun d =>
      Trapped s e c 0x40000000 a d ∧ (d.en e).storeErr = none) ∧
    (∀ i, s.dev.engState e = esRunning → (s.dev.en e).nmi = false → esIe.get (s.dev.en e).estat = 1 → s.dev.irqLine e = some i →
      Completes (.interruptTake e) s (Trapped s e (0x10 + i) 0 0)) ∧
    (s.dev.engState e = esRunning → (s.dev.en e).nmi = true → Completes (.nmiTake e) s fun d =>
      Trapped s e 0x20 (if esTf.get (s.dev.en e).estat = 1 then 0x80000000 else 0) 0 d ∧ (d.en e).nmi = false)

/-- Engines start, park and end parking; store-error traps, interrupts and NMIs. -/
def Obligations.EngineRunning : Prop :=
  EngineRunAndParkRules ∧ EngineInterruptsRules

/-- From R211, R215, R200: pending bits set and cleared; the watchdog kicked with its key and enabled under an unlock, and its three
actions at count 0; the windows of a parked engine. -/
def Obligations.EngineRegisters : Prop :=
  ∀ (s : State) (e : EngineId) (who : Who) (bits : BitVec 16) (v : Word), s.Inv → s.Up → PageOpen s.dev (engPg e) →
    let p := engPg e
    let pend (d : Device) (i : Nat) : Bool := d.regBit p R.ENG_IRQ i
    let reload : Nat := 2 ^ s.dev.fld p F.ENG_WDT.exp
    let x : Fin 16 := Fin.ofNat 16 (s.dev.fld p F.ENG_WINSEL.sel)
    Completes (.irqSet e bits) s (fun d => ∀ i, i < 16 → pend d i = (pend s.dev i || bits.getLsbD i)) ∧
    Completes (.irqClear e bits) s (fun d => ∀ i, i < 16 → pend d i = (pend s.dev i && !(bits.getLsbD i))) ∧
    Completes (.wdtKick e 0x6B1D) s (fun d => (d.reg p R.ENG_WDTCNT).toNat = reload) ∧
    (s.dev.unlockedFor p who = true → s.dev.bit p F.ENG_WDT.en = false → Completes (.wdtEnable who e) s fun d =>
      d.bit p F.ENG_WDT.en = true ∧ (d.reg p R.ENG_WDTCNT).toNat = reload) ∧
    (s.dev.wdtCounts e = true → s.dev.reg p R.ENG_WDTCNT = 0 →
      (s.dev.fld p F.ENG_WDT.action = 0 → Completes (.wdtExpiry e) s fun d => (d.reg p R.ENG_WDTCNT).toNat = reload) ∧
      (s.dev.fld p F.ENG_WDT.action = 1 → Completes (.wdtExpiry e) s fun d => (d.en e).nmi = true) ∧
      (s.dev.fld p F.ENG_WDT.action = 2 → Completes (.wdtExpiry e) s fun d => d.engState e = esParking)) ∧
    (s.dev.engState e = esParked → Completes (.windowWrite e true v) s fun d => (d.en e).winB[x.val] = v) ∧
    (s.dev.engState e ≠ esParked → Completes (.windowWrite e true v) s fun d =>
      (d.en e).winB = (s.dev.en e).winB ∧ d.bit p F.ENG_STAT.win_refused = true)

/-- From R208, R132, R195: the fabric pops the oldest word of a down FIFO and pushes at the tail of an up FIFO; the return of the line
that a load waits for ends the wait and run-ahead. -/
def Obligations.StreamingPortsAndFills : Prop :=
  ∀ (s : State) (r : RegionId) (k : Fin 32) (w : Word) (rest : List Word), s.Inv → s.Up → s.dev.enable r = true →
    (s.dev.running r = true → (s.dev.rg r).spec = none → ((s.dev.rg r).down[k.val]).q = w :: rest →
      (s.dev.en (Fin.ofNat 256 (4 * r.val + k.val / 8))).sbuf = [] →
      Completes (.spdPop r k) s fun d => ((d.rg r).down[k.val]).q = rest ∧ d.mem = s.dev.mem ∧ d.regs = s.dev.regs) ∧
    ((s.dev.rg r).loadReset = false → ((s.dev.rg r).up[k.val]).q.length < 16 → Completes (.spuPush r k w) s fun d =>
      ((d.rg r).up[k.val]).q = ((s.dev.rg r).up[k.val]).q ++ [w] ∧ d.mem = s.dev.mem ∧ d.regs = s.dev.regs) ∧
    (∀ (e : EngineId) (l : Nat) (va : Word) (f : LineFound), (s.dev.en e).miss = some (l, va) → s.dev.engRuns e = true →
      s.dev.engReturns e = true →
      (s.dev.en e).sbuf = [] → (s.dev.en e).dc = [] → inTier (64 * l) = true → s.dev.memWaits false (64 * l) = false →
      s.dev.memGate (engRgn e) e.val false (64 * l) = .ok → f.c0 = .clean → f.c1 = .clean → s.dev.inn.badChunks = [] →
      Completes (.lineFillReturn e none f) s fun d =>
        (d.en e).miss = none ∧ (d.en e).runAhead = none ∧ (d.en e).dline l = some { dirty := false, data := (List.range 64).map fun i => s.dev.tierByte (64 * l + i) })

/-- From R8, R35: a write of an ungated register that a page's own actions do not follow from, taken from ENG_BOOT (RW) and ENG_EV (W1C
causes, RW enables); a gated page takes nothing. -/
def Sys2Proof.RegisterWritesRules : Prop :=
  ∀ (s : State) (e : EngineId) (who : Who) (v : Word) (fs : List LineFound), s.Inv → s.Up →
    let p := engPg e
    let at' (w : Nat) : BitVec 22 := BitVec.ofNat 22 (4096 * p + 4 * w)
    (∀ w, s.dev.regReach who p w = true) → s.dev.bit p fHalf = false →
    (PageOpen s.dev p → Completes (.registerWrite who (at' R.ENG_BOOT) [v] fs) s fun d =>
      d.reg p R.ENG_BOOT = v &&& keyMask (regKey p R.ENG_BOOT) ∧ OnlyRegs s p [R.ENG_BOOT] d) ∧
    (PageOpen s.dev p → Completes (.registerWrite who (at' R.ENG_EV) [v] fs) s fun d =>
      (∀ i, i < 16 → d.regBit p R.ENG_EV i = (s.dev.regBit p R.ENG_EV i && !(v.getLsbD i))) ∧ OnlyRegs s p [R.ENG_EV] d) ∧
    (s.dev.gated p = true → Completes (.registerWrite who (at' R.ENG_BOOT) [v] fs) s fun d =>
      d.regs = s.dev.regs ∧ d.mem = s.dev.mem ∧ d.gpr = s.dev.gpr)

/-- From R8, R509: the read of a register with RC fields, taken from LN_EBUF, puts its value out and clears them, but for a debugger's
read; the read of TIME_LO puts its value out and latches TIME_HI for the reader. -/
def Sys2Proof.RegisterReadsRules : Prop :=
  ∀ (s : State) (who : Who) (l : LaneId), s.Inv → s.Up → (∀ p w, s.dev.regReach who p w = true) →
    let p := lnPg l
    (PageOpen s.dev p → s.dev.latched who.id p R.LN_EBUF = none →
      Completes (.rcRead who (Fin.ofNat 1024 p) (Fin.ofNat 1024 R.LN_EBUF)) s fun d =>
        d.inn.out.head? = some (.device p [who.id, (Config.freeWord s.dev.inn.free (regKey p R.LN_EBUF) &&& 0x3F3F3F#32).toNat]) ∧
        (who ≠ .debugger → d.reg p R.LN_EBUF = s.dev.reg p R.LN_EBUF &&& 0x3F) ∧
        (who = .debugger → d.reg p R.LN_EBUF = s.dev.reg p R.LN_EBUF) ∧ OnlyRegs s p [R.LN_EBUF] d) ∧
    (s.dev.inReset 16 = false → s.dev.gated 16 = false → s.dev.latched who.id 16 R.TIME_LO = none →
      Completes (.loReadLatch who 16 (Fin.ofNat 1024 R.TIME_LO) false) s fun d =>
        d.inn.out.head? = some (.device 16 [who.id, s.dev.inn.devtime % 2 ^ 32]) ∧
        d.latched who.id 16 R.TIME_HI = some (BitVec.ofNat 32 (s.dev.inn.devtime / 2 ^ 32)) ∧ d.regs = s.dev.regs)

/-- Writes and reads of registers by their access types. -/
def Obligations.RegisterAccesses : Prop :=
  RegisterWritesRules ∧ RegisterReadsRules

/-- From R41, R42: the first key begins a half-done unlock, the second opens the page for its writer, another value cancels; a write to
an open page by its owner closes it and by another initiator does nothing; both time limits end what they limit. -/
def Sys2Proof.PageUnlockRules : Prop :=
  ∀ (s : State) (who : Who) (p : Fin 1024) (key : BitVec 16), s.Inv → s.Up → (kindOf p.val).isSome = true →
    (∀ w, s.dev.regReach who p.val w = true) →
    let openB (d : Device) : Bool := d.bit p.val fOpen
    let half (d : Device) : Bool := d.bit p.val fHalf
    let mine : Prop := s.dev.fld p.val fOwner = who.id
    (openB s.dev = false → half s.dev = false → Completes (.pgLockWrite who p 0xA5C3) s fun d =>
      half d = true ∧ openB d = false ∧ d.fld p.val fOwner = who.id) ∧
    (openB s.dev = false → half s.dev = true → mine → s.dev.mayUnlock p.val who = true →
      Completes (.pgLockWrite who p 0x5A3C) s fun d => openB d = true ∧ half d = false ∧ d.unlockedFor p.val who = true) ∧
    (openB s.dev = false → half s.dev = true → key ≠ 0x5A3C → key ≠ 0xA5C3 → Completes (.pgLockWrite who p key) s fun d =>
      openB d = false ∧ half d = false) ∧
    (openB s.dev = true → half s.dev = false → mine → Completes (.pgLockWrite who p key) s fun d =>
      openB d = false ∧ half d = false) ∧
    (openB s.dev = true → half s.dev = false → ¬ mine → Completes (.pgLockWrite who p key) s fun d =>
      openB d = true ∧ half d = false ∧ d.fld p.val fOwner = s.dev.fld p.val fOwner) ∧
    Completes (.halfUnlockTimeout p) s (fun d => half d = false ∧ OnlyRegs s p.val [7] d) ∧
    Completes (.unlockExpiry p) s (fun d => openB d = false ∧ OnlyRegs s p.val [7] d)

/-- From R40: PG_GATE of a vault's page takes clk_en and blk_rst, and blk_rst takes its log of causes to its reset value; the ready bit
rises when the block has finished its initialisation. -/
def Sys2Proof.GatesAndResetRules : Prop :=
  ∀ (s : State) (who : Who) (v : VaultId) (x : Word), s.Inv → s.Up →
    let p := vltPg v
    let n : Fin 1024 := Fin.ofNat 1024 p
    (∀ w, s.dev.regReach who p w = true) →
    Completes (.pgGateWrite who n x) s (fun d =>
      d.bit p fClkEn = x.getLsbD 0 ∧ d.bit p fBlkRst = x.getLsbD 1 ∧
        (x.getLsbD 1 = true → s.dev.inReset p = false → d.reg p R.VLT_ERREV = regDflt (regKey p R.VLT_ERREV)) ∧
        d.mem = s.dev.mem ∧ d.gpr = s.dev.gpr) ∧
    (PageOpen s.dev p → Completes (.blockInitDone n) s fun d => d.pageReady p = true ∧ OnlyRegs s p [3] d)

/-- The unlock of a page, its gate and its reset. -/
def Obligations.PageHeaders : Prop :=
  PageUnlockRules ∧ GatesAndResetRules

/-- From R49, R50, R52: a pending bit is cleared by a write of 1 unless its source holds it; the clear of a mask bit whose source is
pending delivers the event, or withholds it where the destination cannot take it; a destination able again takes what was withheld.
Taken from an engine's source. -/
def Sys2Proof.EventDeliveryRules : Prop :=
  ∀ (s : State) (who : Who) (e : EngineId) (x : Word), s.Inv → s.Up →
    let p := engPg e
    let n : Fin 1024 := Fin.ofNat 1024 p
    let src := 192 + e.val
    let ep := routePage src
    (∀ w, s.dev.regReach who p w = true) → s.dev.gated p = false →
    Completes (.evPendClear who n x) s (fun d =>
      d.regBit p wPend 0 = (s.dev.regBit p wPend 0 && (!(x.getLsbD 0) || s.dev.regBit p wRaw 0)) ∧
        d.regBit p wMask 0 = s.dev.regBit p wMask 0 ∧ d.mem = s.dev.mem) ∧
    Completes (.evMaskWrite who n x) s (fun d => d.regBit p wMask 0 = x.getLsbD 0 ∧ d.mem = s.dev.mem ∧ d.gpr = s.dev.gpr) ∧
    (s.dev.regBit p wPend 0 = true → s.dev.regBit p wMask 0 = true → x.getLsbD 0 = false →
        s.dev.bit ep F.EVT_CTL.deliver_en = true →
      (s.dev.canTake src = true → Completes (.evMaskWrite who n x) s fun d =>
        d.fld ep F.EVT_LAST.source = src ∧ (d.reg ep R.EVT_DELIV).toNat = ((s.dev.reg ep R.EVT_DELIV).toNat + 1) % 2 ^ 32) ∧
      (s.dev.canTake src = false → Completes (.evMaskWrite who n x) s fun d =>
        src ∈ d.inn.withheld ∧ d.bit ep F.EVT_STAT.withheld = true ∧ d.reg ep R.EVT_DELIV = s.dev.reg ep R.EVT_DELIV)) ∧
    (s.dev.inn.withheld = [src] → s.dev.canTake src = true →
      (s.dev.deliverable src = true → Completes .withheldDelivery s fun d =>
        src ∉ d.inn.withheld ∧ (d.reg ep R.EVT_DELIV).toNat = ((s.dev.reg ep R.EVT_DELIV).toNat + 1) % 2 ^ 32) ∧
      (s.dev.deliverable src = false → Completes .withheldDelivery s fun d =>
        src ∉ d.inn.withheld ∧ d.regs = s.dev.regs ∧ d.mem = s.dev.mem))

/-- From R51, R53, R54, R44: a route entry takes the value written, and refuses a non-maskable destination for a source that is no
region's fault source; EVT_FORCE raises an occurrence of a source, whatever the gate of its page. -/
def Sys2Proof.RoutesAndForcedEventsRules : Prop :=
  ∀ (s : State) (who : Who) (src : Fin 660) (k : Fin 4) (x : Word), s.Inv → s.Up → (∀ p w, s.dev.regReach who p w = true) →
    let ep := routePage src.val
    let w := routeWord src.val
    srcNmiFixed src.val = false → s.dev.bit ep fHalf = false →
    (x.toNat / 2 ^ 30 ≠ 3 ∨ (src.val < 192 ∧ src.val % 3 = 2) → Completes (.routeEntryWrite who src x) s fun d =>
      d.reg ep w = x &&& keyMask (regKey ep w) ∧ OnlyRegs s ep [w] d) ∧
    (x.toNat / 2 ^ 30 = 3 → ¬ (src.val < 192 ∧ src.val % 3 = 2) → Completes (.routeEntryWrite who src x) s fun d =>
      d.reg ep w = s.dev.reg ep w ∧ d.bit ep F.EVT_STAT.route_refused = true) ∧
    Completes (.evtForce who k (BitVec.ofNat 10 src.val)) s (fun d =>
      d.regBit (srcPage src.val).1 wPend (srcPage src.val).2 = true ∧ d.mem = s.dev.mem ∧ d.gpr = s.dev.gpr)

/-- Events: pending, mask, delivery, withheld deliveries, routes, forced events. -/
def Obligations.EventsAndRoutes : Prop :=
  EventDeliveryRules ∧ RoutesAndForcedEventsRules

/-- From R82, R83, R84: contention on a shared riser of a running region cuts it and latches the fault; the release of the cuts clears
it, and a riser whose contention persists in the active context is cut again. R58, R116, R117: a codeword of the scrub with one bit or
two adjacent bits wrong is corrected and counted; one with two others wrong makes the RESIDENT slot that it belongs to UNUSABLE; the
release of the fault hold clears it. -/
def Sys2Proof.RegionFaultStatesRules : Prop :=
  ∀ (s : State) (r : RegionId) (x : Nat) (el : Fin 36864) (c : Fin 4) (i j : Fin 288), s.Inv → s.Up → PageOpen s.dev (rgnPg r) →
    let p := rgnPg r
    let g := s.dev.rg r
    let a := s.dev.active r
    let fault (d : Device) (k : Nat) : Bool := d.regBit p R.RGN_FAULT k
    let counted (d : Device) : Prop :=
      (d.reg p R.RGN_CORRCNT).toNat = ((s.dev.reg p R.RGN_CORRCNT).toNat + 1) % 2 ^ 32 ∧ fault d 0 = true ∧ d.mem = s.dev.mem
    let adjacent : Prop := i.val + 1 = j.val ∨ j.val + 1 = i.val
    (32 ≤ x % 40 → x < 46080 → x ∉ g.cuts → s.dev.running r = true → Completes (.riserContention r x) s fun d =>
      (d.rg r).cuts = x :: g.cuts ∧ d.bit p F.RGN_RISERCUT.cut_active = true ∧ d.fld p F.RGN_RISERCUT.riser = x ∧
        fault d 3 = true ∧ d.mem = s.dev.mem) ∧
    (g.contendIn a = [] → Completes (.riserCutRelease r) s fun d =>
      (d.rg r).cuts = [] ∧ d.bit p F.RGN_RISERCUT.cut_active = false ∧ d.fld p F.RGN_RISERCUT.count = 0 ∧ fault d 3 = false) ∧
    (s.dev.running r = true → g.contend = [(a, x)] → Completes (.riserCutRelease r) s fun d =>
      (d.rg r).cuts = [x] ∧ d.bit p F.RGN_RISERCUT.cut_active = true ∧ d.fld p F.RGN_RISERCUT.count = 1 ∧ fault d 3 = true) ∧
    (g.test = false →
      Completes (.scrubCodewordCheck r el c [i] true) s counted ∧
      (adjacent → Completes (.scrubCodewordCheck r el c [i, j] true) s counted) ∧
      (i ≠ j → ¬ adjacent → s.dev.depth r = 4 → s.dev.slot r (Fin.ofNat 8 c.val) = slResident →
        Completes (.scrubCodewordCheck r el c [i, j] true) s fun d =>
          d.slot r (Fin.ofNat 8 c.val) = slUnusable ∧ d.fld p F.RGN_FAULTLOC.slot = c.val ∧ d.fld p F.RGN_FAULTLOC.element = el.val ∧
            fault d 1 = true ∧ d.mem = s.dev.mem)) ∧
    Completes (.scrubCodewordCheck r el c [] true) s (fun d => d = s.dev) ∧
    Completes (.faultHoldRelease r) s (fun d => d.bit p F.RGN_HOLD.fault_hold = false ∧ OnlyRegs s p [R.RGN_HOLD] d)

/-- From R62, R64, R68, R70, R72, R74, R88: an element's outputs from its truth table, full and split; sum and carry; a flip-flop on an
edge; the rows that a write of a block RAM takes, and no other row; what read-first reads while the other port writes; port A's data
where both ports write the same rows; a saturating lane of an arithmetic block. The order of a table's bits is the model's choice (log
entry 74). -/
def Sys2Proof.FabricElementsRules : Prop :=
  ∀ (s : State) (r : RegionId) (x : FabEnv) (el n : Nat),
    let c := x.cfg.el el
    let k := tableInputs x.depth
    let input (i : Nat) : Bool := x.val n (c.ins.getD i (.const false))
    let out (second : Bool) : Bool := x.val (n + 1) (.out el second)
    (x.depth ∈ [2, 4, 8] → k = (if x.depth = 2 then 6 else if x.depth = 4 then 5 else 4) ∧
      (c.split = false ∨ x.depth = 8 → out false = (x.table el).testBit (natOfBits k input)) ∧
      (c.split = true → x.depth ≠ 8 → out false = (x.table el).testBit (natOfBits (k - 1) input) ∧
        out true = (x.table el).testBit (natOfBits (k - 1) input + 2 ^ (k - 1)))) ∧
    (x.cout el = (if x.v (.out el false) = true then x.cin 1025 el else x.v c.x) ∧ x.sum el = (x.v (.out el false) != x.cin 1025 el)) ∧
    (∀ (attached : Nat → Bool) (init : Sparse Bool) (pri sec : Bool) (i : Nat), ffExists x.depth i = true →
      let f := x.cfg.ffCfg i
      let e := x.cfg.el (i / 2)
      let next := x.ffNext attached init pri sec i
      let clocked : Bool := if f.secondary then sec else pri
      (attached i = true → next = bitGet init i) ∧
      (attached i = false →
        (clocked = false → next = bitGet x.g.ff i) ∧
        (clocked = true →
          (x.v e.sr = true → next = f.setBySr) ∧
          (x.v e.sr = false → x.v e.ce = false → next = bitGet x.g.ff i) ∧
          (x.v e.sr = false → x.v e.ce = true → f.data = .sum → next = x.sum (i / 2))))) ∧
    (∀ w : BramWrite, w.k ≤ 8 → w.row + w.k ≤ 8192 →
      let d := (retire r w).run s.dev
      (∀ j, j < w.k → d.bramRow r w.bram.val (w.row + j) = w.data / 2 ^ (9 * j) % 512) ∧
        (∀ (b : Fin 96) i, i < 8192 → (b ≠ w.bram ∨ i < w.row ∨ w.row + w.k ≤ i) → d.bramRow r b.val i = s.dev.bramRow r b.val i) ∧
        d.regs = s.dev.regs ∧ d.gpr = s.dev.gpr ∧ d.inn = s.dev.inn) ∧
    (∀ (log : List BramWrite) (b : Fin 96) (second : Bool) (act : PortAct),
      (x.cfg.bram b.val).k ∈ [1, 2, 4] → (x.cfg.bram b.val).ecc = false → act.on = true → act.write = none →
        s.dev.portOut x r log b second act = (s.dev.seenWord r log b.val (x.cfg.bram b.val).k act.addr, false)) ∧
    (∀ (p q : PortAct) (v w : BramWrite), p.write = some v → q.write = some w → v.bram = w.bram → v.row = w.row → v.k = w.k →
      edgeWrites p q = [v]) ∧
    (∀ (acc : Nat) (q : Int), signedOf 16 (laneAdd true acc q) = max (-32768) (min 32767 (signedOf 16 acc + q)))

/-- Contention on a riser and its cut, codewords of the scrub, the fault hold; the elements of the fabric (table bit order: log entry
74). -/
def Obligations.RegionFaults : Prop :=
  RegionFaultStatesRules ∧ FabricElementsRules

/-- From R88, R89: an asserted reset tree forces the flip-flops that the active context attaches to it to their initial values, and no
others; its release leaves every flip-flop as it stands. -/
def Obligations.ResetTrees : Prop :=
  ∀ (s : State) (r : RegionId), s.Inv → s.Up → s.dev.running r = true →
    let g := s.dev.rg r
    let a := s.dev.active r
    let init := initBits (s.dev.ctxCells r a)
    (sparseWf (fun _ => false) g.ff = true → s.dev.inn.rstTree = (false, false) → Completes (.resetTreeAssert 0) s fun d =>
      d.inn.rstTree = (true, false) ∧ d.regs = s.dev.regs ∧ d.mem = s.dev.mem ∧
        ∀ k, bitGet (d.rg r).ff k = if (s.dev.cfg r a).onTree 0 k then bitGet init k else bitGet g.ff k) ∧
    (s.dev.inn.rstTree = (true, true) → Completes (.resetTreeRelease 1) s fun d =>
      d.inn = { s.dev.inn with rstTree := (true, false) } ∧ d.regs = s.dev.regs ∧ d.mem = s.dev.mem)

/-- From R95, R99, R102: the requests for a switch where nothing else is asked of the region. A port or a register request is captured
with its class, a port request that finds the held place taken is lost with cause 4; arming a scheduled switch takes its slot and target
as one snapshot, disarming drops it. -/
def Sys2Proof.SwitchRequestsRules : Prop :=
  ∀ (s : State) (r : RegionId) (slot : SlotId), s.Inv → s.Up → PageOpen s.dev (rgnPg r) → s.dev.running r = true →
    let p := rgnPg r
    let g := s.dev.rg r
    g.spec = none → g.aborting = none →
    (g.held = none → s.dev.bit p F.RGN_CTXCFG.port_en = true → Completes (.ctxReq r slot) s fun d =>
      (d.rg r).held = some (s.dev.captured r { cls := .port, slot := slot }) ∧ d.regs = s.dev.regs ∧ d.mem = s.dev.mem) ∧
    (g.held ≠ none → s.dev.bit p F.RGN_CTXCFG.port_en = true → Completes (.ctxReq r slot) s fun d =>
      (d.rg r).held = g.held ∧ d.fld p F.RGN_SWMISS.cause = 4 ∧ d.fld p F.RGN_SWMISS.src = 1 ∧
        d.fld p F.RGN_SWMISS.slot = slot.val ∧ d.regBit p R.RGN_CTXEV 5 = true ∧ d.mem = s.dev.mem) ∧
    Completes (.ctxselWrite r slot) s (fun d => d.fld p F.RGN_CTXSEL.next_slot = slot.val ∧ d.bit p F.RGN_CTXSEL.pend = true ∧
      (d.rg r).regReq = some slot ∧ OnlyRegs s p [R.RGN_CTXSEL] d) ∧
    (g.held = none → g.regReq = some slot → Completes (.switchCapture r) s fun d =>
      (d.rg r).held = some (s.dev.captured r { cls := .reg, slot := slot }) ∧ (d.rg r).regReq = none ∧
        d.bit p F.RGN_CTXSEL.pend = false ∧ OnlyRegs s p [R.RGN_CTXSEL] d) ∧
    Completes (.schedArm r slot) s (fun d =>
      (d.rg r).armed = some (slot, s.dev.reg64 p R.RGN_SCHED_LO) ∧ d.bit p F.RGN_SCHED_CTL.arm = true ∧
        d.fld p F.RGN_SCHED_CTL.slot = slot.val ∧ OnlyRegs s p [R.RGN_SCHED_CTL] d) ∧
    Completes (.schedDisarm r slot) s (fun d =>
      (d.rg r).armed = none ∧ d.bit p F.RGN_SCHED_CTL.arm = false ∧ OnlyRegs s p [R.RGN_SCHED_CTL] d)

/-- From R26, R27, R101, R103: an armed switch is captured when the edge two periods on is not before its target, and is late where one
period on is not; at the stop lead every region in P0 is captured into its stop slot, or held where it has none. -/
def Sys2Proof.TimedSwitchesRules : Prop :=
  ∀ (s : State) (r : RegionId) (slot : SlotId) (t : Nat), s.Inv → s.Up → s.dev.inReset (rgnPg r) = false →
    let p := rgnPg r
    let g := s.dev.rg r
    g.spec = none → g.held = none →
    (s.dev.running r = true → g.armed = some (slot, t) → 48 * t ≤ 48 * g.devtime + 2 * s.dev.period48 r →
      Completes (.schedCapture r) s fun d =>
        (d.rg r).held = some (s.dev.captured r { cls := .sched, slot := slot, target := some t }) ∧ (d.rg r).armed = none ∧
          d.bit p F.RGN_SCHED_CTL.arm = false ∧
          (48 * t ≤ 48 * g.devtime + s.dev.period48 r → d.bit p F.RGN_SCHED_CTL.late = true ∧ d.regBit p R.RGN_CTXEV 4 = true)) ∧
    (s.dev.inn.stopAt = some t → t ≤ s.dev.now → s.dev.rgnP r.val = 0 → g.test = false →
      Completes .stopSwitchCapture s fun d => d.inn.stopAt = none ∧ d.mem = s.dev.mem ∧
        (s.dev.running r = true → s.dev.bit p F.RGN_CTXCFG.stop_en = true →
          (d.rg r).held = some (s.dev.captured r { cls := .stop, slot := Fin.ofNat 8 (s.dev.fld p F.RGN_CTXCFG.stop_slot) })) ∧
        (s.dev.bit p F.RGN_CTXCFG.stop_en = false → d.bit p F.RGN_HOLD.stop_hold = true))

/-- Context switches: requests, schedules, the timed switch, the stop switch. -/
def Obligations.SwitchesAreRequested : Prop :=
  SwitchRequestsRules ∧ TimedSwitchesRules

/-- From R94, R96, R97, R105: at edge -1 a held switch whose slot can be taken is granted and committed, is deferred to the next CFG_CLK
cycle where the governor grants 16 others, and misses where its slot cannot be taken; at edge 0 the committed switch takes effect on the
slots and counters. -/
def Obligations.SwitchEdges : Prop :=
  ∀ (s : State) (r : RegionId) (q : SwReq), s.Inv → s.Up → s.dev.inReset (rgnPg r) = false →
    let p := rgnPg r
    let g := s.dev.rg r
    let a := s.dev.active r
    q.opening = none → q.abort = none →
    (g.held = some q → g.committed = none → s.dev.missCause r q = none →
      (s.dev.governorGrants r q = true → Completes (.switchCheck r none) s fun d =>
        (d.rg r).held = none ∧ (d.rg r).committed = some q ∧ s.dev.cycleOf q ∈ d.inn.grants ∧ d.regs = s.dev.regs) ∧
      (s.dev.governorGrants r q = false → Completes (.switchCheck r none) s fun d =>
        (d.rg r).held = some (s.dev.deferral r q) ∧ (d.rg r).committed = none ∧ d.regs = s.dev.regs)) ∧
    (∀ c, g.held = some q → g.committed = none → s.dev.missCause r q = some c → q.cls ≠ .stop → q.cls ≠ .safe →
      Completes (.switchCheck r none) s fun d =>
        (d.rg r).held = none ∧ (d.rg r).committed = none ∧ d.fld p F.RGN_SWMISS.cause = c ∧
          d.fld p F.RGN_SWMISS.slot = q.slot.val ∧ d.regBit p R.RGN_CTXEV 1 = true ∧ d.active r = a ∧ d.mem = s.dev.mem) ∧
    (g.committed = some q → a ≠ q.slot → (∀ k, k < 8 → (s.dev.cmp k).is cEn = false) →
      Completes (.switchTakeEffect r) s fun d =>
        d.active r = q.slot ∧ (d.rg r).committed = none ∧ d.slot r q.slot = slActive ∧
          d.slot r a = (if g.activeBad then slUnusable else slResident) ∧ d.fld p F.RGN_CTXSTAT.prev_slot = a.val ∧
          (d.reg p R.RGN_SWCNT).toNat = ((s.dev.reg p R.RGN_SWCNT).toNat + 1) % 2 ^ 32 ∧ d.regBit p R.RGN_CTXEV 0 = true ∧
          d.mem = s.dev.mem)

/-- From R107, R109 to R113: the hamper's size, its growth with every added header zero, and a fetch from its start to its end, its
refusal and its failures. -/
def Obligations.HamperAndFetch : Prop :=
  ∀ (s : State) (r : RegionId) (who : Who) (size : Fin 16) (entry : Fin 256) (slot : SlotId) (done : FetchEnd) (f : LineFound) (off : Nat),
      s.Inv → s.Up → PageOpen s.dev (rgnPg r) →
    let p := rgnPg r
    let g := s.dev.rg r
    let dep := s.dev.depth r
    let old := s.dev.fld p F.RGN_HAMPER.size
    let failed (f : Fetch) (c : Nat) (d : Device) : Prop :=
      (d.rg r).fetch = none ∧ d.slot r f.slot = slEmpty ∧ d.fld p F.RGN_FETCHSTAT.result = c ∧
        d.bit p F.RGN_FETCHSTAT.busy = false ∧ d.regBit p R.RGN_CTXEV 3 = true
    (s.dev.unlockedFor p who = true → size.val ≤ 12 → g.fetch = none → g.grow = none →
      Completes (.hamperResize who r size) s fun d =>
        (size.val ≤ old → d.fld p F.RGN_HAMPER.size = size.val ∧ (d.rg r).grow = none) ∧
        (old < size.val → d.fld p F.RGN_HAMPER.size = old ∧ (d.rg r).grow = some size.val) ∧ d.mem = s.dev.mem) ∧
    (dep ∈ [2, 4, 8] → g.grow = some size.val → Completes (.hamperGrowthDone r) s fun d =>
      d.fld p F.RGN_HAMPER.size = size.val ∧ (d.rg r).grow = none ∧
        ∀ i k, i < hamperEntries size.val dep - hamperEntries old dep → k < 64 →
          d.tierByte (hamperEntry r.val dep (hamperEntries old dep + i) + k) = 0) ∧
    (s.dev.fetchRefusal r slot = none → Completes (.fetchStart r entry slot) s fun d =>
      (d.rg r).fetch = some { entry := entry.val, slot := slot } ∧ d.slot r slot = slFetching ∧
        d.bit p F.RGN_FETCHSTAT.busy = true ∧ d.mem = s.dev.mem) ∧
    (∀ c, s.dev.fetchRefusal r slot = some c → Completes (.fetchStart r entry slot) s fun d =>
      (d.rg r).fetch = g.fetch ∧ d.slot r slot = s.dev.slot r slot ∧ d.fld p F.RGN_FETCHSTAT.result = c ∧
        d.regBit p R.RGN_CTXEV 3 = true ∧ d.mem = s.dev.mem) ∧
    (∀ x, g.fetch = some x → s.dev.inn.badChunks = [] →
      (f.c0 = .clean → f.c1 = .clean →
        (s.dev.entryOk r x.entry = true → Completes (.fetchHeaderCheck ⟨r, f⟩) s fun d =>
          (d.rg r).fetch = some { x with headerOk := true } ∧ d.regs = s.dev.regs) ∧
        (s.dev.entryOk r x.entry = false → Completes (.fetchHeaderCheck ⟨r, f⟩) s (failed x 5))) ∧
      (x.entry < s.dev.fld p F.RGN_HAMPER.entries → f.c0 = .uncorrectable → Completes (.fetchHeaderCheck ⟨r, f⟩) s (failed x 6)) ∧
      (x.headerOk = true → Completes (.fetchDone r done) s fun d =>
        (d.rg r).fetch = none ∧ d.slot r x.slot = slResident ∧ d.fld p F.RGN_FETCHSTAT.result = 1 ∧
          d.reg p R.RGN_FETCHTIME = done.cycles ∧ d.regBit p R.RGN_CTXEV 2 = true) ∧
      Completes (.fetchReadUncorr r off) s (failed x 6))

/-- From R122 to R124, R126: a request of the personality to open a speculation is captured, or refused where one is open; a register
request waits two primary edges, and is captured on the second; at its edge 0 the checkpoint of the active context is taken, with an
empty log and nothing held. -/
def Sys2Proof.SpeculationOpensRules : Prop :=
  ∀ (s : State) (r : RegionId) (who : Who) (pred : SlotId) (lines : Nat), s.Inv → s.Up → PageOpen s.dev (rgnPg r) →
      s.dev.running r = true →
    let p := rgnPg r
    let g := s.dev.rg r
    let opens (cls : SwClass) (slot : SlotId) (src : Nat) : SwReq := s.dev.captured r { cls := cls, slot := slot, opening := some src }
    (s.dev.bit p F.RGN_SPECCTL.port_en = true →
      (g.spec = none → g.held = none → Completes (.specOpen r pred) s fun d =>
        (d.rg r).held = some (opens .port pred 1) ∧ d.regs = s.dev.regs) ∧
      (g.spec ≠ none → Completes (.specOpen r pred) s fun d =>
        (d.rg r).held = g.held ∧ d.fld p F.RGN_SPECSTAT.refuse_cause = 1 ∧ d.regBit p R.RGN_SPECEV 4 = true)) ∧
    (pred.val < s.dev.depth r → Completes (.specctlOpen who r pred) s fun d =>
      (d.rg r).specReg = some (.opn (specSrc who), 2) ∧ d.fld p F.RGN_SPECCTL.pred_slot = pred.val ∧ d.mem = s.dev.mem) ∧
    (∀ src, g.spec = none → g.held = none → g.aborting = none → g.regReq = none →
      (g.specReg = some (.opn src, 2) → Completes (.borderCommitBufferDrain r lines) s fun d =>
        (d.rg r).specReg = some (.opn src, 1) ∧ (d.rg r).held = none) ∧
      (g.specReg = some (.opn src, 1) → Completes (.borderCommitBufferDrain r lines) s fun d =>
        (d.rg r).held = some (opens .reg (Fin.ofNat 8 (s.dev.fld p F.RGN_SPECCTL.pred_slot)) src) ∧ (d.rg r).specReg = none)) ∧
    (∀ q src, g.committed = some q → q.opening = some src → src < 4 → q.slot = s.dev.active r →
      Completes (.specOpeningEdge r) s fun d =>
        ∃ sp, (d.rg r).spec = some sp ∧ sp.pred = q.slot ∧ sp.prior = q.slot ∧ sp.log = [] ∧ sp.held = [] ∧ sp.ckpt.ff = g.ff ∧
          (d.rg r).committed = none ∧ d.fld p F.RGN_SPECPRED.src = src ∧ d.fld p F.RGN_SPECWIN.cycles = 0 ∧
          d.regBit p R.RGN_SPECEV 0 = true ∧ d.mem = s.dev.mem)

/-- From R122, R135, R136: a commit retires the log into the block RAMs and closes the speculation; an abort discards it and captures a
switch to the corrected slot. By the personality, and by register on the second primary edge from the write; a stall at its limit aborts
to the slot active before. -/
def Sys2Proof.SpeculationResolvesRules : Prop :=
  ∀ (s : State) (r : RegionId) (corr : SlotId) (sp : Spec) (lines : Nat), s.Inv → s.Up → PageOpen s.dev (rgnPg r) →
      s.dev.running r = true → (s.dev.rg r).spec = some sp →
    let p := rgnPg r
    let g := s.dev.rg r
    let port := s.dev.bit p F.RGN_SPECCTL.port_en
    let retired (w : BramWrite) (d : Device) : Prop :=
      let first := bramBase r.val + 9216 * w.bram.val + 9 * w.row / 8
      let last := bramBase r.val + 9216 * w.bram.val + 9 * (w.row + w.k - 1) / 8 + 1
      (∀ j, j < w.k → d.bramRow r w.bram.val (w.row + j) = w.data / 2 ^ (9 * j) % 512) ∧
        ∀ x, (x < first ∨ last < x) → d.byte x = s.dev.byte x
    let committed (d : Device) : Prop :=
      (d.rg r).spec = none ∧ (∀ w, sp.log = [w] → 0 < w.k → retired w d) ∧ (sp.log = [] → d.mem = s.dev.mem) ∧
        (d.reg p R.RGN_SPECCOMMITS).toNat = ((s.dev.reg p R.RGN_SPECCOMMITS).toNat + 1) % 2 ^ 32 ∧
        d.fld p F.RGN_SPECLAST.outcome = 1 ∧ d.bit p F.RGN_SPECSTAT.stalled = false ∧ d.regBit p R.RGN_SPECEV 1 = true
    let aborted (slot : SlotId) (c : Nat) (d : Device) : Prop :=
      (d.rg r).spec = none ∧ (∃ x, (d.rg r).aborting = some x ∧ x.ckpt = sp.ckpt) ∧
        (d.rg r).held = some (s.dev.captured r { cls := .abort, slot := slot, abort := some c }) ∧
        d.bit p F.RGN_SPECSTAT.stalled = false ∧ d.mem = s.dev.mem
    (port = true → g.specReg ≠ some (.abort, 1) → Completes (.specCommit r) s committed) ∧
    Completes (.specctlCommit r) s (fun d => (d.rg r).specReg = some (.commit, 2) ∧ d.regs = s.dev.regs ∧ d.mem = s.dev.mem) ∧
    (port = true → Completes (.specAbort r corr false) s (aborted corr 0)) ∧
    (corr.val < s.dev.depth r → Completes (.specctlAbort r corr) s fun d =>
      (d.rg r).specReg = some (.abort, 2) ∧ d.fld p F.RGN_SPECCTL.corr_slot = corr.val ∧ d.mem = s.dev.mem) ∧
    (s.dev.bit p F.RGN_SPECSTAT.stalled = false →
      (g.specReg = some (.commit, 1) → Completes (.borderCommitBufferDrain r lines) s committed) ∧
      (g.specReg = some (.abort, 1) → Completes (.borderCommitBufferDrain r lines) s
        (aborted (Fin.ofNat 8 (s.dev.fld p F.RGN_SPECCTL.corr_slot)) 1))) ∧
    (s.dev.bit p F.RGN_SPECSTAT.stalled = true → s.dev.fld p F.RGN_SPECWIN.stall_limit ≠ 0 →
      Completes (.specStallTimeout r) s (aborted sp.prior 4))

/-- From R77, R128, R130, R133: a full window and a full write log stall the region; the border commit buffer delivers its oldest
committed entry that differs on the buffered lines, and an empty one lets the lines that the active context drives pass. -/
def Sys2Proof.SpeculationBuffersRules : Prop :=
  ∀ (s : State) (r : RegionId) (writes : List BramWrite) (lines : Nat), s.Inv → s.Up → PageOpen s.dev (rgnPg r) →
      s.dev.running r = true →
    let p := rgnPg r
    let g := s.dev.rg r
    let a := s.dev.active r
    let c := s.dev.cfg r a
    let driven (k : Nat) : Bool := (c.border k).isSome && lines.testBit k
    (∀ sp, g.spec = some sp →
      (Completes (.specWindowFull r) s fun d => d.fld p F.RGN_SPECWIN.cycles = 128 ∧ d.bit p F.RGN_SPECSTAT.win_full = true ∧
        d.bit p F.RGN_SPECSTAT.stalled = true ∧ d.regBit p R.RGN_SPECEV 3 = true) ∧
      (s.dev.enable r = true → Completes (.writeLogFull r writes) s fun d => ∃ x, (d.rg r).spec = some x ∧ d.mem = s.dev.mem ∧
        x.log = sp.log ++ writes ∧ (64 - x.log.length < g.slots[a.val].bramWe → s.dev.bit p F.RGN_SPECSTAT.log_full = false →
          d.bit p F.RGN_SPECSTAT.log_full = true ∧ d.bit p F.RGN_SPECSTAT.stalled = true))) ∧
    (g.spec = none → g.aborting = none → g.frozen = false → g.specReg = none →
      (g.border = [] → Completes (.borderCommitBufferDrain r lines) s fun d =>
        (∀ k, k < 2048 → (d.rg r).delivered.testBit k = driven k) ∧ (d.rg r).border = [] ∧ d.regs = s.dev.regs) ∧
      (∀ e rest, g.border = e :: rest → e.committed = true → e.lines ≠ g.delivered &&& c.bufferedMask →
        Completes (.borderCommitBufferDrain r lines) s fun d =>
          (∀ k, k < 2048 → (d.rg r).delivered.testBit k = if c.isBuffered k then e.lines.testBit k else driven k) ∧
            (d.rg r).border = rest ++ [{ committed := true, lines := lines &&& c.drivenMask &&& c.bufferedMask }] ∧ d.regs = s.dev.regs))

/-- Speculative contexts: opening, commit and abort, buffers and logs. -/
def Obligations.Speculation : Prop :=
  SpeculationOpensRules ∧ SpeculationResolvesRules ∧ SpeculationBuffersRules

/-- From R147, R148, R269: a LOAD command's part opens an image and ends the command; a verified image extends its manifest into its
measurement slot, one whose check fails is rejected with the cause; a section that passes begins to be written, one whose hash differs
fails with cause 9. -/
def Obligations.ImagesAreChecked : Prop :=
  ∀ (s : State) (q : QueueId) (cid : BitVec 16) (bs : List Byte), s.Inv → s.Up →
    let l := s.dev.ldr
    let b := l.bytes
    let x := sectionOf b l.idx
    let all := secRegions b x
    let rs := s.dev.targets x all
    let k := (Fin.ofNat 16 (imgMeas b)).val
    let stat (d : Device) (f : Fld) : Nat := d.fld 0 f
    (∀ c, s.dev.bufferOpen = true → s.dev.cmdAt q.val cid.toNat 0x10 = some c →
      (Completes (.load q cid none) s fun d => { c with ended := some (5, 0), order := s.dev.inn.host.ends } ∈ d.inn.cmds) ∧
      (c.zeroOk = true → c.flags = 2 → l.src = none → c.length < 256 → Completes (.load q cid (some bs)) s fun d =>
        d.ldr.src = some 0 ∧ d.ldr.queue = q.val ∧ d.ldr.bytes = bs.take c.length ∧ stat d F.DEV_LOADSTAT.state = 1 ∧
          ∃ y ∈ d.inn.cmds, y.q = q.val ∧ y.cid = cid.toNat ∧ y.ended.map (·.1) = some 0)) ∧
    (l.src = some 2 → l.rejected = false → l.headerOk = true → l.verified = false → imgSigOff b + 3732 ≤ b.length →
        s.dev.forbid = false →
      manifestOk b = true → imgKind b ≠ 2 → Completes .imageVerified s fun d =>
        if s.dev.signerCause b = 0 then
          d.ldr.verified = true ∧ stat d F.DEV_LOADSTAT.state = 2 ∧ (d.reg 0 R.DEV_LOADID).toNat = imgId b % 2 ^ 32 ∧
            d.inn.stw.slots[k] = Config.sha3 (s.dev.inn.stw.slots[k] ++ Config.sha3 (slice b 0x100 (64 * imgSections b)))
        else
          stat d F.DEV_LOADSTAT.state = 4 ∧ stat d F.DEV_LOADSTAT.cause = s.dev.signerCause b ∧ d.ldr.src = none ∧
            d.inn.stw = s.dev.inn.stw) ∧
    (l.src ≠ none → l.rejected = false → l.headerOk = true → l.verified = true → l.writing = false → l.idx < imgSections b →
        x.offset + x.stored ≤ b.length → s.dev.forbid = false → s.dev.secSkipped x all = false →
      s.dev.entryFetched x rs = false → (∀ r ∈ rs, (s.dev.rg r).test = false) → Completes .sectionReceived s fun d =>
        if Config.sha3 (secBytes b x) = x.hash then s.dev.targetCause b x rs = 0 → d.ldr.writing = true ∧ d.ldr.idx = l.idx
        else x.kind = 1 → s.dev.loadingRegions = [] → d.ldr.writing = false ∧ d.ldr.idx = l.idx + 1 ∧ d.ldr.failed = true ∧ d.ldr.stopped = true ∧
          stat d F.DEV_LOADSTAT.cause = 9)

/-- From R154, R155, R157, R159, R190: load reset empties a region's slots and fabric; the REGION section's values are written; the
region is released into its start slot, or fails where that is not RESIDENT; the end of an image starts its engines; the border policy.
-/
def Obligations.LoadingRegions : Prop :=
  ∀ (s : State) (r : RegionId) (v : BitVec 16), s.Inv → s.Up →
    let l := s.dev.ldr
    let b := l.bytes
    let x := sectionOf b l.idx
    let p := rgnPg r
    let g := s.dev.rg r
    (l.writing = true → x.kind = 2 → secRegions b x = [r] → s.dev.rgnP r.val = 0 →
      (Completes (.loadResetAssert r) s fun d =>
        (d.rg r).loadReset = true ∧ (d.rg r).held = none ∧ (d.rg r).ff = [] ∧ d.bit p F.RGN_INFO.loaded = false ∧
          ∀ y : SlotId, y.val < s.dev.depth r → d.slot r y = slEmpty) ∧
      (l.src ≠ none → l.rejected = false → l.headerOk = true → r.val ∉ l.bad → (∀ y, (s.dev.rg y).filled = []) → g.loadReset = true →
          x.depth ∈ [2, 4, 8] → Completes .sectionWritten s fun d =>
        d.depth r = x.depth ∧ d.ldr.idx = l.idx + 1 ∧ d.ldr.writing = false ∧
          (∀ y : SlotId, d.slot r y = if y.val < x.depth then slEmpty else slNone) ∧
          d.fld p F.RGN_CTXCFG.fault_policy = (Config.regionBody (secBody b x)).faultPolicy % 4)) ∧
    (∀ id, g.rel = some id → g.relNow = true → s.dev.rgnP r.val = 0 →
      (s.dev.slot r g.startSlot = slResident → Completes (.regionRelease r) s fun d =>
        d.slot r g.startSlot = slActive ∧ d.active r = g.startSlot ∧ (d.rg r).loadReset = false ∧
          d.bit p F.RGN_INFO.loaded = true ∧ d.fld p F.RGN_LOADSTAT.state = 3 ∧ (d.reg p R.RGN_IMGID).toNat = id % 2 ^ 32 ∧
          (d.rg r).ff = initBits (s.dev.ctxCells r g.startSlot) ∧ d.mem = s.dev.mem) ∧
      (s.dev.slot r g.startSlot ≠ slResident → Completes (.regionRelease r) s fun d =>
        d.fld p F.RGN_LOADSTAT.state = 4 ∧ d.fld p F.RGN_LOADERR.cause = 0x0C ∧ (d.rg r).loadReset = g.loadReset ∧
          d.mem = s.dev.mem)) ∧
    (∀ e : EngineId, l.src ≠ none → l.rejected = false → l.verified = true → l.writing = false → imgSections b ≤ l.idx →
        l.failed = false → l.engines = [e.val] → l.badEngines = [] → s.dev.bit (engPg e) F.ENG_CTL.auto_start = true →
        s.dev.engState e = esParked → s.dev.rgnP (engRgn e) = 0 → s.dev.fenced (engPg e) = false →
      Completes .imageEnd s fun d =>
        d.fld 0 F.DEV_LOADSTAT.state = 3 ∧ d.ldr.src = none ∧ d.engState e = esRunning ∧
          (d.en e).pc = s.dev.reg (engPg e) R.ENG_BOOT ∧ d.mem = s.dev.mem) ∧
    (PageOpen s.dev p → Completes (.borderpolWrite r v) s fun d => d.fld p F.RGN_BORDERPOL.edges = v.toNat ∧
      OnlyRegs s p [R.RGN_BORDERPOL] d)

/-- From R151: a chain header opens the first image at position T - N + 1, whose first bytes the loader takes; with an image in progress
it is rejected with cause 0x12; a bad header is dropped with cause 1. When the kept image is complete the rest goes on through its
chain_port while that port is UP, under a header with N - 1; a stream with N at 1 or with no chain_port ends here with its last image,
and a kept image whose header cannot be parsed breaks it with cause 0x13. -/
def Obligations.ChainStreams : Prop :=
  ∀ (s : State), s.Inv → s.Up →
    let l := s.dev.ldr
    let b := l.chainIn
    let n := numAt b 4 1
    let t := numAt b 5 1
    let good : Prop := numAt b 0 4 = 0x4E494843 ∧ n ≠ 0 ∧ n ≤ t
    let runs (c : Instr) (P : Device → Prop) : Prop := ∃ u, exec c s = .next u ∧ u.pending = s.pending ∧ P u.dev
    let stat (d : Device) (f : Fld) : Nat := d.fld 0 f
    (16 ≤ b.length → l.chain = none →
      (good → l.src = none → b.length < 272 → runs .chainStream fun d =>
        d.ldr.chain = some (n, t) ∧ d.ldr.chainIn = [] ∧ d.ldr.own = b.drop 16 ∧ d.ldr.bytes = b.drop 16 ∧ d.ldr.src = some 2 ∧
          stat d F.DEV_LOADSTAT.chain_pos = t - n + 1 ∧ stat d F.DEV_LOADSTAT.state = 1 ∧ d.mem = s.dev.mem) ∧
      (good → l.src = some 0 ∨ l.src = some 1 → runs .chainStream fun d =>
        d.ldr.chain = some (n, t) ∧ d.ldr.src = l.src ∧ d.ldr.bytes = l.bytes ∧ stat d F.DEV_LOADSTAT.cause = 0x12 ∧
          stat d F.DEV_LOADSTAT.chain_pos = t - n + 1 ∧ d.mem = s.dev.mem) ∧
      (¬ good → runs .chainStream fun d =>
        d.ldr.chain = none ∧ d.ldr.chainIn = [] ∧ d.ldr.src = l.src ∧ stat d F.DEV_LOADSTAT.cause = 1 ∧ d.mem = s.dev.mem)) ∧
    (b.length < 16 ∨ l.chain ≠ none → runs .chainStream fun d => d = s.dev) ∧
    (∀ k m, l.chain = some (k, m) → 256 ≤ l.own.length → l.forwarded = false →
      let p : PortId := Fin.ofNat 12 (imgPort l.own)
      (headerCause l.own 2 = 1 → runs .chainForward fun d =>
        d.ldr.chain = none ∧ d.ldr.chainIn = [] ∧ stat d F.DEV_LOADSTAT.cause = 0x13 ∧ d.mem = s.dev.mem) ∧
      (headerCause l.own 2 ≠ 1 → chainDone l = true →
        (k = 1 → l.fwd = [] → runs .chainForward fun d =>
          d.ldr.chain = none ∧ d.ldr.own = [] ∧ d.ldr.chainIn = b ∧ d.regs = s.dev.regs ∧ d.mem = s.dev.mem) ∧
        (1 < k → 12 ≤ imgPort l.own → l.fwd = [] → b = [] → runs .chainForward fun d =>
          d.ldr.chain = some (k, m) ∧ d.ldr.forwarded = true ∧ d.ldr.mute = true ∧ d.regs = s.dev.regs ∧ d.mem = s.dev.mem) ∧
        (1 < k → imgPort l.own < 12 → s.dev.lnkState p ≠ psUp → runs .chainForward fun d => d = s.dev) ∧
        (1 < k → imgPort l.own < 12 → s.dev.lnkState p = psUp → l.fwd = [] → b = [] → runs .chainForward fun d =>
          d.ldr.chain = some (k, m) ∧ d.ldr.forwarded = true ∧ d.ldr.own = l.own ∧ d.mem = s.dev.mem)))

/-- From R164 to R168: a vertical-port request is accepted with its tag, and a tag in use stops the model (R164 forbids it); the
response of a read gives the line as it stands, the response of a whole write stores it, and the answer to a request that a load reset
ended is discarded and counted as late. -/
def Obligations.VerticalPort : Prop :=
  ∀ (s : State) (r : RegionId) (line : Fin 1048576) (write : Bool) (tag : Fin 32) (be : Nat) (data : List Byte),
      s.Inv → s.Up →
    let g := s.dev.rg r
    let q : HeldReq := .vp line.val write tag.val be data
    let a := vaultBase r.val + 64 * line.val
    let nums (d : Device) : List Nat := (List.range 64).map fun i => (d.tierByte (a + i)).toNat
    (s.dev.running r = true → s.dev.enable r = true → g.spec = none → g.vp.length < 32 →
      ((∀ x ∈ g.vp, x.vpTag ≠ some tag.val) → Completes (.vpRequest r line write tag be data) s fun d =>
        (d.rg r).vp = g.vp ++ [q] ∧ d.regs = s.dev.regs ∧ d.mem = s.dev.mem) ∧
      ((∃ x ∈ g.vp, x.vpTag = some tag.val) → exec (.vpRequest r line write tag be data) s = .fault .tagReused)) ∧
    (s.dev.enable r = true → (s.dev.vlt r).filling = false → g.vp = [q] → g.vpEnded = [] → s.dev.inn.badChunks = [] →
      (write = false → Completes (.vpResponse r tag .clean .clean) s fun d =>
        (d.rg r).vp = [] ∧ d.inn.out.head? = some (.fabric r.val 0 ([tag.val, 0, 0] ++ nums s.dev)) ∧ d.mem = s.dev.mem) ∧
      (write = true → be = 2 ^ 64 - 1 → s.dev.inHamper a = false → s.dev.remapOf r line.val = none →
          s.dev.sliceTested r line.val = false → Completes (.vpResponse r tag .clean .clean) s fun d =>
        (d.rg r).vp = [] ∧ d.inn.out.head? = some (.fabric r.val 0 [tag.val, 0, 0]) ∧
          Stored s a ((List.range 64).map fun i => data.getD i 0) d)) ∧
    ((s.dev.vlt r).filling = false → g.vpEnded = [.vp line.val false tag.val be data] → s.dev.inn.badChunks = [] →
      PageOpen s.dev (niPg r) → Completes (.vpResponse r tag .clean .clean) s fun d =>
        (d.rg r).vpEnded = [] ∧ (d.rg r).vp = g.vp ∧ d.inn.out = s.dev.inn.out ∧ d.mem = s.dev.mem ∧
          (d.reg (niPg r) R.NI_LATECNT).toNat = ((s.dev.reg (niPg r) R.NI_LATECNT).toNat + 1) % 2 ^ 32)

/-- From R163, R170, R173, R175, R178, R179: a vault serves a network read in arrival order, ends its fill, patrols line by line, frees
an entry of its log, and remaps a line to a spare and back with its contents. -/
def Obligations.VaultUpkeep : Prop :=
  ∀ (s : State) (who : Who) (v : VaultId) (sel : Fin 16) (e : Fin 8) (slot slot' : Fin 64) (line line' : Fin 1048576),
      s.Inv → s.Up →
    let p := vltPg v
    let at' := vaultBase v.val + 64 * line.val
    let spare := spareBase v.val (bankOfLine line.val) + 64 * slot.val
    ((s.dev.vlt v).filling = true → s.dev.inReset p = false → Completes (.vaultFillDone v) s fun d =>
      (d.vlt v).filling = false ∧ d.bit p F.VLT_STAT.filled = true ∧ d.regBit p R.VLT_ERREV 8 = true ∧ d.mem = s.dev.mem) ∧
    (s.dev.bit p F.VLT_SCRUB.en = true → s.dev.bit p F.VLT_SCRUBPOS.spare = false → s.dev.fld p F.VLT_SCRUBPOS.line < 0xFFFFF →
        s.dev.inn.badChunks = [] → Completes (.scrubReadDue v .clean .clean) s fun d =>
      d.fld p F.VLT_SCRUBPOS.line = s.dev.fld p F.VLT_SCRUBPOS.line + 1 ∧ d.mem = s.dev.mem ∧ d.inn = s.dev.inn) ∧
    (PageOpen s.dev p → Completes (.logFree v sel) s fun d => (d.vlt v).log[sel.val] = none ∧ d.mem = s.dev.mem ∧
      ∀ i : Fin 16, i ≠ sel → (d.vlt v).log[i.val] = (s.dev.vlt v).log[i.val]) ∧
    (PageOpen s.dev p → s.dev.unlockedFor p who = true →
      (s.dev.remapRefused v e slot.val line.val = false → Completes (.remapWrite who v e slot { line := line }) s fun d =>
        (d.vlt v).remap[e.val] = some (slot.val, line.val) ∧ ∀ i, i < 64 → d.byte (spare + i) = s.dev.byte (at' + i)) ∧
      (s.dev.remapRefused v e slot.val line.val = true → Completes (.remapWrite who v e slot { line := line }) s fun d =>
        (d.vlt v).remap = (s.dev.vlt v).remap ∧ d.regBit p R.VLT_ERREV 6 = true ∧ d.mem = s.dev.mem) ∧
      ((s.dev.vlt v).remap[e.val] = some (slot.val, line.val) → s.dev.sliceTested v line.val = false →
        Completes (.remapEnd who v { sel := e, slot := slot', line := line' }) s fun d =>
          (d.vlt v).remap[e.val] = none ∧ (d.vlt v).remapOld[e.val] = (slot'.val, line'.val) ∧ ∀ i, i < 64 → d.byte (at' + i) = s.dev.byte (spare + i))) ∧
    (∀ pk, s.dev.inn.net = [pk] → pk.out = true → pk.pos = v.val → pk.exit = 1 → pk.kind = 0 → pk.addr = at' → pk.dbg = false →
        (s.dev.vlt v).filling = false → s.dev.memTarget pk.src false at' = .ok → s.dev.inn.badChunks = [] →
      Completes (.vaultAccess v {}) s fun d => pk ∉ d.inn.net ∧ d.mem = s.dev.mem ∧ ∃ x ∈ d.inn.net, x.kind = 7 ∧ x.status = 0 ∧
        x.tag = pk.tag ∧ x.data = (List.range 64).map fun i => s.dev.tierByte (at' + i))

/-- From R180, R182, R185: the tail, run and resume fields of a channel; the fetch of a posted descriptor; an error halts the channel
with its cause in the register and dma_halt set. -/
def Sys2Proof.DmaChannelsRules : Prop :=
  ∀ (s : State) (v : VaultId) (c : DmaId) (tail : Fin 64), s.Inv → s.Up → PageOpen s.dev (vltPg v) →
    let p := vltPg v
    let st := s.dev.dmaState v c
    let x := s.dev.dma v c
    let a := s.dev.dmaDesc v c
    Completes (.dmaTailWrite v c tail) s (fun d => d.fld p (fDma F.VLT_DMA0.tail c) = tail.val ∧ d.dmaState v c = st ∧
      d.mem = s.dev.mem) ∧
    (st = 0 ∨ st = 3 → Completes (.dmaRun v c true) s fun d => d.dmaState v c = 1 ∧ d.mem = s.dev.mem) ∧
    (st = 1 → Completes (.dmaRun v c false) s fun d => d.dmaState v c = (if x.desc.isSome then 3 else 0) ∧ d.mem = s.dev.mem) ∧
    (st = 2 → Completes (.dmaResume v c) s fun d =>
      d.dmaState v c = (if s.dev.bit p (fDma F.VLT_DMA0.run c) then 1 else 0) ∧ d.fld p (fDma F.VLT_DMA0.cause c) = 0 ∧
        d.dma v c = {}) ∧
    ((s.dev.vlt v).closing = true → st = 1 → x.desc = none → x.fail = none → Completes (.dmaDescriptorFetch v c []) s fun d =>
      (d.dma v c).fail = some (6, a) ∧ d.regs = s.dev.regs ∧ d.mem = s.dev.mem) ∧
    ((s.dev.vlt v).closing = false → st = 1 → x.desc = none → x.fail = none →
        s.dev.dmaHead v c ≠ s.dev.fld p (fDma F.VLT_DMA0.tail c) →
        (∀ i, i < 4 → s.dev.inHamper (vaultBase v.val + s.dev.dmaRing v 0 + 0x1000 * i) = false) →
        s.dev.memWaits false a = false → s.dev.memGate v.val (Who.dma v c).id false a = .ok → s.dev.inn.badChunks = [] →
      let bs := (List.range 64).map fun i => s.dev.tierByte (a + i)
      badDescriptor bs = false → Completes (.dmaDescriptorFetch v c []) s fun d =>
        (d.dma v c).desc = some bs ∧ (d.dma v c).fail = none ∧ d.regs = s.dev.regs ∧ d.mem = s.dev.mem) ∧
    (∀ k y, x.fail = some (k, y) → k < 16 → s.dev.dmaOut v c = 0 → s.dev.memWaits true (a + 0x20) = false → Completes (.dmaHalt v c []) s fun d =>
      d.dmaState v c = 2 ∧ d.fld p (fDma F.VLT_DMA0.cause c) = k ∧ (d.dma v c).fail = none ∧ d.regBit p R.VLT_ERREV 5 = true)

/-- From R180, R181: a descriptor that copies one line of the memory tier to another, in vaults where no line is remapped or under test:
the bytes stand at the destination, the status word in the descriptor, and head advances. -/
def Sys2Proof.DmaCopiesRules : Prop :=
  ∀ (s : State) (v : VaultId) (c : DmaId) (x : List Byte), s.Inv → s.Up → PageOpen s.dev (vltPg v) →
    let num (off n : Nat) : Nat := Word.natOfBytes ((x.drop off).take n)
    let src := num 0 8
    let dst := num 8 8
    let own := s.dev.dmaDesc v c
    let router := v.val
    let who := (Who.dma v c).id
    (s.dev.dma v c).desc = some x → (s.dev.dma v c).fail = none → (s.dev.dma v c).done = 0 → (s.dev.vlt v).closing = false → src ≠ dst →
    num 0x10 4 = 64 →
    src % 64 = 0 → src < 2 ^ 32 → dst % 64 = 0 → dst < 2 ^ 32 → dst ≠ own → s.dev.inn.badChunks = [] →
    (∀ y, y < 2 ^ 32 → s.dev.tierCell y = y) →
    s.dev.memWaits false src = false → s.dev.memWaits true dst = false → s.dev.memWaits true (own + 0x20) = false →
    s.dev.memGate router who false src = .ok → s.dev.memGate router who true dst = .ok →
    s.dev.memGate router who true (own + 0x20) = .ok →
    Completes (.dmaDescriptorDone v c [] [] []) s fun d =>
      (∀ i, i < 64 → d.byte (dst + i) = s.dev.byte (src + i)) ∧ d.num (own + 0x20) 4 = 2 ^ 31 ∧
        d.dmaHead v c = (s.dev.dmaHead v c + 1) % 64 ∧ (d.dma v c).desc = none ∧
        ∀ y, (y < dst ∨ dst + 64 ≤ y) → (y < own + 0x20 ∨ own + 0x24 ≤ y) → d.byte y = s.dev.byte y

/-- Vault DMA channels and a descriptor that copies a line. -/
def Obligations.VaultDma : Prop :=
  DmaChannelsRules ∧ DmaCopiesRules

/-- From R87, R131, R239, R244 to R246, R251: a fabric's request is handed to its interface, or held while a speculation is open; it is
injected with the route of its waymark and noted until its response; a timeout frees its tag, and its response is presented while the
regional enable is high, else kept; a busy one is retried; buckets refill. -/
def Obligations.FabricRequests : Prop :=
  ∀ (s : State) (r : RegionId) (q : FabReq), s.Inv → s.Up →
    let p := niPg r
    let g := s.dev.rg r
    let open' : Prop := r.val ∉ s.dev.inn.closing ∧ s.dev.domOn r.val = true
    (s.dev.running r = true → s.dev.enable r = true →
      (g.spec = none → g.tagUsed q.tag = false → Completes (.nqRequest r q) s fun d =>
        (d.rg r).outbox = g.outbox ++ [.net q] ∧ d.inn.net = s.dev.inn.net ∧ d.regs = s.dev.regs) ∧
      (∀ sp, g.spec = some sp → Completes (.nqRequest r q) s fun d =>
        ∃ y, (d.rg r).spec = some y ∧ y.held = sp.held ++ [.net q] ∧ (d.rg r).outbox = g.outbox)) ∧
    (∀ m x, g.outbox = [.net q] → open' → (∀ y ∈ g.pend, y.req.tag ≠ q.tag) → (∀ y ∈ g.nrq, y.1 ≠ q.tag.val) →
        s.dev.bucketOk r q.cls = true → s.dev.fabDest r q = some (m, x) → q.kind = .read →
      Completes (.packetInject r) s fun d =>
        (d.rg r).outbox = [] ∧ (d.rg r).pend = g.pend ++ [{ req := q, since := s.dev.now, router := m, seq := g.netSeq }] ∧
          ∃ pk, d.inn.net = s.dev.inn.net ++ [pk] ∧ pk.kind = 0 ∧ pk.tag = q.tag.val ∧ pk.addr = q.addr ∧ pk.pos = r.val ∧
            pk.src = 0x140 + r.val ∧ pk.dirs = s.dev.route' r.val m ∧ pk.exit = x ∧ pk.out = false) ∧
    (∀ x tag, g.pend = [x] → x.req.tag = tag → Completes (.requestTimeout r tag) s fun d =>
      (d.rg r).pend = [] ∧ (PageOpen s.dev p → d.regBit p R.NI_ERR 2 = true) ∧ d.mem = s.dev.mem ∧
        (s.dev.running r = true → s.dev.enable r = true → g.nrq = [] →
          d.inn.out.head? = some (.fabric r.val 1 [tag.val, 6]) ∧ (d.rg r).nrq = []) ∧
        (s.dev.enable r = false → (d.rg r).nrq = g.nrq ++ [(tag.val, 6, [])])) ∧
    (∀ x m y, g.pend = [x] → x.retry = true → open' → s.dev.bucketOk r x.req.cls = true → s.dev.fabDest r x.req = some (m, y) →
        x.req.kind = .read → Completes (.busyRetry r x.req.tag) s fun d =>
      (d.rg r).pend = [{ x with retry := false, router := m, seq := g.netSeq }] ∧ d.inn.net.length = s.dev.inn.net.length + 1 ∧
        (d.reg p R.NI_BUSYCNT).toNat = ((s.dev.reg p R.NI_BUSYCNT).toNat + 1) % 2 ^ 32) ∧
    Completes (.tokenBucketRefill r) s (fun d => d.regs = s.dev.regs ∧ d.mem = s.dev.mem ∧ ∀ c : Fin 4, (d.rg r).bucket[c.val] =
      min (s.dev.fld p (F.NI_TB0.burst.at c.val)) (g.bucket[c.val] + s.dev.fld p (F.NI_TB0.rate.at c.val)))

/-- From R241, R242, R248, R250: a router sends the packet that stands at it one hop on and records the way back, delivers it at the end
of its route, and discards it with ROUTE_FAULT at a disabled port; a response ends its request, and one that no request waits for is
late. -/
def Obligations.PacketsTravel : Prop :=
  ∀ (s : State) (n r : RegionId) (pk : Packet), s.Inv → s.Up → s.dev.inn.net = [pk] → pk.pos = n.val →
    (pk.out = false → pk.kind < 3 → pk.kind ≠ 2 →
      (∀ t ts m, pk.dirs = t :: ts → s.dev.portOff n.val t = false → hop n.val t = some m →
        Completes (.routerForward n false) s fun d =>
          d.inn.net = [{ pk with pos := m, dirs := ts, rdirs := oppositeDir t :: pk.rdirs }] ∧ d.regs = s.dev.regs) ∧
      (∀ t ts, pk.dirs = t :: ts → s.dev.portOff n.val t = true → Completes (.routerForward n false) s fun d =>
        (∃ x, d.inn.net = [x] ∧ x.kind = 7 ∧ x.status = 4 ∧ x.tag = pk.tag ∧ x.dirs = pk.rdirs) ∧
          (d.reg (320 + n.val) R.NI_RFCNT).toNat = ((s.dev.reg (320 + n.val) R.NI_RFCNT).toNat + 1) % 2 ^ 32) ∧
      (pk.dirs = [] → pk.exit = 1 → s.dev.portOff n.val 5 = false → s.dev.exitOff n.val 1 = false →
        Completes (.routerForward n false) s fun d => d.inn.net = [{ pk with out := true }] ∧ d.regs = s.dev.regs)) ∧
    (pk.out = true → pk.kind = 7 → pk.src = 0x140 + r.val →
      (∀ x, s.dev.running r = true → s.dev.enable r = true → (s.dev.rg r).nrq = [] → (s.dev.rg r).pend = [x] → x.req.tag.val = pk.tag → x.seq = pk.seq → x.retry = false → pk.status = 0 →
        Completes (.responseReceive n) s fun d =>
          (d.rg r).pend = [] ∧ d.inn.net = [] ∧
            d.inn.out.head? = some (.fabric r.val 1 ([pk.tag, 0] ++ pk.data.map (·.toNat))) ∧ d.mem = s.dev.mem) ∧
      ((s.dev.rg r).pend = [] → PageOpen s.dev (niPg r) → Completes (.responseReceive n) s fun d =>
        pk ∉ d.inn.net ∧ d.regBit (niPg r) R.NI_ERR 5 = true ∧
          (d.reg (niPg r) R.NI_LATECNT).toNat = ((s.dev.reg (niPg r) R.NI_LATECNT).toNat + 1) % 2 ^ 32))

/-- From R243, R250: a shadow waymark that passes the checks becomes active, another is refused with its cause; disabled ports. R249,
R251: a message is queued for the fabric, or answered BUSY where its queue is full; it is taken, and answered. -/
def Obligations.WaymarksAndMessages : Prop :=
  ∀ (s : State) (r : RegionId) (e : Fin 64) (dis : BitVec 7) (pk : Packet), s.Inv → s.Up →
    let p := niPg r
    let g := s.dev.rg r
    let w := s.dev.reg p (320 + e.val)
    (PageOpen s.dev p →
      (wmCheck r.val e.val w.toNat = 0 → Completes (.waymarkFlip r e) s fun d =>
        d.reg p (256 + e.val) = w &&& keyMask (regKey p (256 + e.val)) ∧ d.fld p F.NI_WMCTL.result = 1 ∧ d.mem = s.dev.mem) ∧
      (wmCheck r.val e.val w.toNat ≠ 0 → Completes (.waymarkFlip r e) s fun d =>
        d.reg p (256 + e.val) = s.dev.reg p (256 + e.val) ∧ d.fld p F.NI_WMCTL.result = 2 ∧
          d.fld p F.NI_WMCTL.cause = wmCheck r.val e.val w.toNat ∧ d.regBit p R.NI_ERR 6 = true) ∧
      Completes (.portDisable r dis) s fun d => d.fld p F.NI_RTRCTL.dis = dis.toNat ∧ OnlyRegs s p [R.NI_RTRCTL] d) ∧
    (s.dev.inn.net = [pk] → pk.out = true → pk.pos = r.val → pk.exit = 0 → pk.kind = 3 → g.test = false → g.loadReset = false →
        s.dev.bit p F.NI_CTL.nt_en = true →
      (∀ i, g.freeNt = some i → Completes (.msgReceive r) s fun d =>
        (d.rg r).tq = g.tq ++ [(i, pk)] ∧ d.inn.net = [] ∧ d.regs = s.dev.regs) ∧
      (g.freeNt = none → Completes (.msgReceive r) s fun d =>
        (d.rg r).tq = g.tq ∧ ∃ x, d.inn.net = [x] ∧ x.kind = 7 ∧ x.status = 8 ∧ x.tag = pk.tag)) ∧
    (s.dev.running r = true → s.dev.enable r = true → pk.kind = 3 →
      (∀ i rest, g.tq = (i, pk) :: rest → Completes (.ntTake r) s fun d =>
        (d.rg r).tq = rest ∧ (d.rg r).taken = g.taken ++ [(i, pk)] ∧
          d.inn.out.head? = some (.fabric r.val 2 ([i, pk.src, 0, pk.word.toNat] ++ pk.data.map (·.toNat)))) ∧
      (∀ (id : Fin 8) err data, g.taken = [(id.val, pk)] → g.spec = none → Completes (.ntResponse r id err data) s fun d =>
        (d.rg r).taken = [] ∧ ∃ x, d.inn.net = s.dev.inn.net ++ [x] ∧ x.kind = 7 ∧ x.tag = pk.tag ∧ x.data = data ∧
          x.status = if err then 1 else 0))

/-- From R253 to R255, R248, R261, R273: training to L0, Retry Status until READY, the resets of the host port, the completion of a read
of host memory and its timeout, a vector's mask; a closing domain that has drained is off. -/
def Obligations.HostLinkAndResets : Prop :=
  ∀ (s : State), s.Inv → s.Up → s.dev.portPower = true → s.dev.inReset 32 = false →
    let h := s.dev.host
    let reset (d : Device) : Prop :=
      d.inn.quiet = true ∧ d.host.busMaster = false ∧ d.host.crs = true ∧ d.host.bars = [] ∧ d.bit 32 F.HP_CTL.en = false ∧
        (∀ c ∈ d.inn.cmds, c.aborted = true) ∧ d.mem = s.dev.mem ∧ d.gpr = s.dev.gpr
    let lost (d : Device) : Prop :=
      reset d ∧ d.bit 32 F.HP_LINK.up = false ∧ d.regBit 32 R.HP_ERR 0 = s.dev.bit 32 F.HP_LINK.up
    (∀ w r c x, h.perst = false → s.dev.bit 17 F.PWR_STRAPS.pcie_en = true → Completes (.pcieLinkUp w r c x) s fun d =>
      d.bit 32 F.HP_LINK.up = true ∧ d.fld 32 F.HP_LINK.width = 2 ^ w.val ∧ d.fld 32 F.HP_LINK.rate = r.val + 1 ∧
        d.fld 32 F.HP_LINK.state = c.val ∧ OnlyRegs s 32 (R.HP_LINK :: (List.range 8).map (R.HP_LANE0 + ·)) d) ∧
    (h.perst = false → s.dev.bit 32 F.HP_LINK.up = true →
      (s.dev.bit 0 F.DEV_STAT.ready = false → ∀ w, Completes (.configRequest w) s fun d =>
        d.inn.out = .config true 0 :: s.dev.inn.out ∧ d.regs = s.dev.regs ∧ d.host = h) ∧
      (s.dev.bit 0 F.DEV_STAT.ready = true → h.crs = false → ∀ b, Completes (.configRequest (.busMaster b)) s fun d =>
        d.inn.out = .config false 0 :: s.dev.inn.out ∧ d.regs = s.dev.regs ∧ d.host = { h with busMaster := b })) ∧
    Completes (.perst true) s (fun d => lost d ∧ d.host.perst = true) ∧
    Completes (.perst false) s (fun d => d.host = { h with perst := false } ∧ d.regs = s.dev.regs ∧ d.mem = s.dev.mem) ∧
    Completes .hotReset s lost ∧
    Completes .linkDown s lost ∧
    Completes .functionLevelReset s (fun d => reset d ∧ d.reg 32 R.HP_LINK = s.dev.reg 32 R.HP_LINK) ∧
    (∀ x bs, s.dev.hostOpen x.tag = some x →
      Completes (.hostCompletion x.tag (some bs)) s (fun d =>
        (∀ y ∈ d.host.reads, y.tag = x.tag → y.data = some (some (bs.take x.n))) ∧ d.regs = s.dev.regs) ∧
      Completes (.hostCompletion x.tag none) s (fun d =>
        (∀ y ∈ d.host.reads, y.tag = x.tag → y.data = some none) ∧ d.regBit 32 R.HP_ERR 6 = true) ∧
      (s.dev.proxied = false → (s.dev.reg 32 R.HP_CTO).toNat ≠ 0xFFFFFFFF → Completes (.hostCompletionTimeout x.tag) s fun d =>
        (∀ y ∈ d.host.reads, y.tag = x.tag → y.data = some none) ∧ d.regBit 32 R.HP_ERR 4 = true)) ∧
    (∀ tag data, s.dev.hostOpen tag = none → Completes (.hostCompletion tag data) s fun d =>
      (d.reg 32 R.HP_LATECNT).toNat = ((s.dev.reg 32 R.HP_LATECNT).toNat + 1) % 2 ^ 32 ∧ d.regBit 32 R.HP_ERR 5 = true) ∧
    (∀ v, Completes (.msixVectorMaskWrite v true) s (fun d => v.val ∈ d.inn.msixMasked ∧ d.regs = s.dev.regs)) ∧
    (∀ v, s.dev.proxied = false → h.busMaster = true → s.dev.regBit 34 (R.HP_VECPEND0 + v.val / 32) (v.val % 32) = true →
      Completes (.msixVectorMaskWrite v false) s fun d =>
        v.val ∉ d.inn.msixMasked ∧ d.regBit 34 (R.HP_VECPEND0 + v.val / 32) (v.val % 32) = false ∧
          d.inn.out = .msix v.val :: s.dev.inn.out) ∧
    (∀ k : Fin 79, k.val ∈ s.dev.inn.closing → s.dev.inn.net = [] → Completes (.domainDrainDone k) s fun d =>
      d.domOn k.val = false ∧ k.val ∉ d.inn.closing ∧ d.domBusy k.val = false)

/-- From R256, R257, R259, R263, R264, R267, R273, R274, R276, R298: requests to BAR0 and BAR2; the admin queue comes up and the port
quiesces; doorbells; the fetch of a command, the writing of its completion, coalescing. -/
def Obligations.HostRequestsAndQueues : Prop :=
  ∀ (s : State) (q : QueueId), s.Inv → s.Up → s.dev.portPower = true → s.dev.inReset 32 = false →
    let h := s.dev.host
    let dev := s.dev
    let viaPcie : Prop := dev.proxied = false ∧ h.busMaster = true
    (dev.barOpen = true →
      (∀ (e : EngineId) (v : Word) (fs : List LineFound),
        let p := engPg e
        let off : BitVec 22 := BitVec.ofNat 22 (4096 * p + 4 * R.ENG_BOOT)
        PageOpen dev p → dev.bit p fHalf = false → dev.latched Who.host.id p R.ENG_BOOT = none →
        Completes (.bar0Access off 4 true (some [v]) fs) s (fun d =>
          d.reg p R.ENG_BOOT = v &&& keyMask (regKey p R.ENG_BOOT) ∧ OnlyRegs s p [R.ENG_BOOT] d) ∧
        Completes (.bar0Access off 4 true none fs) s (fun d =>
          d.inn.out.head? = some (.hostCpl true false (Word.bytes (dev.reg p R.ENG_BOOT))) ∧ d.regs = dev.regs) ∧
        Completes (.bar0Access off 4 false none fs) s (fun d =>
          .hostCpl false false [] ∈ d.inn.out ∧ d.regBit 32 R.HP_ERR 2 = true ∧ d.mem = dev.mem)) ∧
      (∀ (a : BitVec 40) n m x, 0 < n → a.toNat % 64 + n ≤ 64 → dev.bar2Ok a.toNat n = true → destOf a.toNat = some (m, x) →
        Completes (.bar2Access a n none) s fun d =>
          d.host.bars = h.bars ++ [{ id := h.nextBar, addr := a.toNat, n := n }] ∧ d.regs = dev.regs ∧
            ∃ pk, d.inn.net = dev.inn.net ++ [pk] ∧ pk.kind = 0 ∧ pk.addr = a.toNat / 64 * 64 ∧ pk.seq = h.nextBar ∧
              pk.be = lineMask a.toNat n ∧ pk.pos = 3 ∧ pk.exit = x)) ∧
    (∀ b, h.bars = [b] → Completes (.barInternalTimeout b.id) s fun d =>
      d.host.bars = [] ∧ .hostCpl false false [] ∈ d.inn.out ∧ d.regBit 32 R.HP_ERR 3 = true) ∧
    (dev.gated 32 = false →
      (dev.bit 32 F.HP_CTL.en = false → dev.inn.quiet = false → 2 ≤ dev.fld 32 F.HP_AQ_SIZE.size →
          dev.fld 32 F.HP_AQ_SIZE.size ≤ 4096 → Completes .queueEnable s fun d =>
        d.bit 32 F.HP_CTL.en = true ∧ d.bit 32 F.HP_STAT.rdy = true ∧ d.sqState 0 = 1 ∧ d.sqHead 0 = 0 ∧ d.cqTail 0 = 0 ∧
          d.sqSize 0 = dev.fld 32 F.HP_AQ_SIZE.size ∧ (d.hq 0).sqBase = dev.reg64 32 R.HP_AQ_SQBASE_LO / 4096 * 4096 ∧
          (d.hq 0).cqBase = dev.reg64 32 R.HP_AQ_CQBASE_LO / 4096 * 4096 ∧ d.mem = dev.mem) ∧
      (dev.bit 32 F.HP_CTL.en = true → Completes .queueDisable s fun d =>
        d.bit 32 F.HP_CTL.en = false ∧ d.bit 32 F.HP_STAT.rdy = false ∧ d.bit 32 F.HP_STAT.quiesced = false ∧
          d.inn.quiet = true ∧ (∀ c ∈ d.inn.cmds, c.aborted = true) ∧ d.mem = dev.mem) ∧
      (∀ v, dev.proxied = true → dev.sqState q = 1 → v.toNat < dev.sqSize q →
        Completes (.proxyDoorbell (Fin.ofNat 68 (2 * q.val)) v) s fun d => (d.hq q).tail = v.toNat ∧ d.regs = dev.regs)) ∧
    (dev.inn.quiet = true → (∀ c ∈ dev.inn.cmds, c.ended.isSome = true) → Completes .quiesced s fun d =>
      d.inn.quiet = false ∧ d.inn.cmds = [] ∧ d.bit 32 F.HP_STAT.quiesced = true ∧ (∀ k : QueueId, d.sqState k = 0 ∧ d.hq k = {}) ∧
        d.mem = dev.mem) ∧
    (∀ v : Word,
      (dev.sqState q = 1 → v.toNat < dev.sqSize q → Completes (.sqTailDoorbell q v) s fun d =>
        (d.hq q).tail = v.toNat ∧ d.regs = dev.regs) ∧
      (dev.sqState q = 0 → Completes (.sqTailDoorbell q v) s fun d => (d.hq q).tail = (dev.hq q).tail ∧ d.regBit 32 R.HP_ERR 1 = true) ∧
      (dev.sqState q ≠ 0 → v.toNat < dev.sqSize q → v.toNat < 4096 → Completes (.cqHeadDoorbell q v) s fun d =>
        d.cqHead q = v.toNat ∧ d.cqTail q = dev.cqTail q ∧ OnlyRegs s 34 [R.HP_CQ0 + q.val] d) ∧
      (∀ r : RingId, dev.bit 35 (ringF F.HP_RING0CTL.en r.val) = true → v.toNat < 4096 →
          v.toNat < dev.fld 35 (ringF F.HP_RING0CTL.size r.val) → Completes (.ringHeadDoorbell r v) s fun d =>
        d.fld 35 (ringF F.HP_RING0STAT.head r.val) = v.toNat ∧
          d.fld 35 (ringF F.HP_RING0STAT.tail r.val) = dev.fld 35 (ringF F.HP_RING0STAT.tail r.val) ∧ d.mem = dev.mem)) ∧
    (dev.queueNext = some q → dev.bit 32 F.HP_CTL.en = true → (dev.inn.cmds.filter fun c => c.ended.isNone).length < 64 →
        dev.inn.net = [] → viaPcie → dev.sqHead q < dev.sqSize q → dev.sqSize q ≤ 4096 →
      (∀ v : Vector Byte 64,
        let c := cmdOf q.val (nextIndex (dev.sqHead q) (dev.sqSize q)) v.toList
        c.flags % 2 = 0 → knownOp c.opcode = true → (adminOp c.opcode = true → q = 0) → c.zeroOk = true →
        Completes (.commandFetch q (some v)) s fun d =>
          d.inn.cmds = dev.inn.cmds ++ [c] ∧ d.sqHead q = nextIndex (dev.sqHead q) (dev.sqSize q) ∧ d.mem = dev.mem) ∧
      Completes (.commandFetch q none) s fun d =>
        d.sqState q = 2 ∧ d.fld 33 (F.HP_SQERR0.cause.at q.val) = 2 ∧ d.inn.cmds.length = dev.inn.cmds.length) ∧
    (∀ c st res, dev.endedFirst q = some c → c.ended = some (st, res) → dev.inn.quiet = false → c.aborted = false →
        dev.cqFull q = false → viaPcie → dev.cqTail q < dev.sqSize q → dev.sqSize q ≤ 4096 →
      let posts (st res : Nat) (d : Device) : Prop :=
        .hostWrite ((dev.hq q).cqBase + 16 * dev.cqTail q) (completion c st res (dev.fld 34 (F.HP_CQ0.phase.at q.val))) ∈ d.inn.out
      (c.deleted = true → Completes (.completionPost q true) s (posts 9 0)) ∧
      (c.deleted = false → dev.sqState q ≠ 3 → Completes (.completionPost q true) s fun d =>
        posts st res d ∧ d.inn.cmds = dev.inn.cmds.erase c ∧ d.cqTail q = nextIndex (dev.cqTail q) (dev.sqSize q) ∧
          (d.reg 33 R.HP_CMDCNT).toNat = ((dev.reg 33 R.HP_CMDCNT).toNat + 1) % 2 ^ 32)) ∧
    (0 < (dev.hq q).unsig → viaPcie → dev.fld 34 (F.HP_CQVEC0.vector.at q.val) ∉ dev.inn.msixMasked →
      Completes (.coalesceTimeout (.inl q)) s fun d => (d.hq q).unsig = 0 ∧ d.regs = dev.regs ∧
        d.inn.out = .msix (dev.fld 34 (F.HP_CQVEC0.vector.at q.val)) :: dev.inn.out)

/-- From R95, R102, R109, R190, R267 to R270, R391, R436, R473, R489: what each host command does that has been taken and whose refusals
none holds, and the status and result with which it ends, or what it waits for. -/
def Obligations.HostCommands : Prop :=
  ∀ (s : State) (q : QueueId) (cid : BitVec 16) (c : HostCmd), s.Inv → s.Up →
    let dev := s.dev
    let r : RegionId := Fin.ofNat 64 c.target
    let e : EngineId := Fin.ofNat 256 c.target
    let k : QueueId := Fin.ofNat 16 c.target
    let at' (o : Nat) : Prop := dev.cmdAt q.val cid.toNat o = some c
    let same (x : HostCmd) : Prop := x.q = q.val ∧ x.cid = cid.toNat
    let ended (st res : Nat) (d : Device) : Prop := ∃ x ∈ d.inn.cmds, same x ∧ x.ended = some (st, res)
    let waits (w : Wait) (d : Device) : Prop := ∃ x ∈ d.inn.cmds, same x ∧ x.wait = some w ∧ x.ended = none
    let viaPcie : Prop := dev.proxied = false ∧ dev.host.busMaster = true ∧ c.aborted = false ∧ c.deleted = false
    let rgnOpen : Prop := c.target < 64 ∧ dev.domOn r.val = true ∧ (dev.rg r).test = false ∧ PageOpen dev (rgnPg r)
    (at' 0 → Completes (.nop q cid) s fun d => ended 0 0 d ∧ d.regs = dev.regs ∧ d.mem = dev.mem) ∧
    (at' 1 → c.target ≠ 0 → c.target < 16 → 2 ≤ c.length → c.length ≤ 4096 → c.haddr % 4096 = 0 → c.p1 % 2 ^ 64 % 4096 = 0 →
        dev.sqState k = 0 → Completes (.createQueue q cid) s fun d =>
      ended 0 0 d ∧ d.sqState k = 1 ∧ d.sqSize k = c.length ∧ (d.hq k).sqBase = c.haddr ∧ (d.hq k).cqBase = c.p1 % 2 ^ 64 ∧
        d.fld 34 (F.HP_CQVEC0.vector.at k.val) = c.p0 % 256) ∧
    (at' 2 → c.target ≠ 0 → c.target < 16 → c.target ≠ q.val → dev.sqState k = 1 →
      ((∀ x ∈ dev.inn.cmds, x.q ≠ k.val) → Completes (.deleteQueue q cid) s fun d => ended 0 0 d ∧ d.sqState k = 0) ∧
      ((∃ x ∈ dev.inn.cmds, x.q = k.val) → Completes (.deleteQueue q cid) s fun d =>
        waits (.queue k.val) d ∧ d.sqState k = 3 ∧ ∀ x ∈ d.inn.cmds, x.q = k.val → x.ended = none → x.deleted = true)) ∧
    (at' 3 → viaPcie → Completes (.identify q cid) s fun d =>
      ended 0 0 d ∧ d.regs = dev.regs ∧ ∃ bs, bs.length = 4096 ∧ d.inn.out = .hostWrite c.haddr bs :: dev.inn.out) ∧
    (at' 0x11 → rgnOpen → dev.fetchRefusal r (Fin.ofNat 8 (c.p0 / 2 ^ 8 % 8)) = none → Completes (.fetch q cid) s fun d =>
      waits (.fetch r.val) d ∧
        (d.rg r).fetch = some { entry := c.p0 / 2 ^ 16 % 256, slot := Fin.ofNat 8 (c.p0 / 2 ^ 8 % 8) }) ∧
    (at' 0x12 → rgnOpen → Completes (.schedule q cid) s fun d =>
      ended 0 0 d ∧ (d.rg r).armed = some (Fin.ofNat 8 (c.p0 % 8), c.p1 % 2 ^ 64)) ∧
    (at' 0x13 → rgnOpen → Completes (.switch q cid) s fun d =>
      ended 0 0 d ∧ d.fld (rgnPg r) F.RGN_CTXSEL.next_slot = c.p0 % 8 ∧ d.bit (rgnPg r) F.RGN_CTXSEL.pend = true ∧
        OnlyRegs s (rgnPg r) [R.RGN_CTXSEL] d) ∧
    (thermosBase ≤ c.daddr → c.daddr + c.length ≤ thermosBase + 0x400000 → 0 < c.length → c.daddr % 64 + c.length ≤ 64 →
      (∀ bs, at' 0x20 → dev.bufferOpen = true → dev.cmdRefusal true c.daddr c.length = none → dev.memWaits true c.daddr = false → dev.memGate 3 0x100 true c.daddr = .ok → bs.length = c.length →
        Completes (.write q cid (some bs) []) s fun d => ended 0 0 d ∧ Stored s c.daddr bs d ∧ d.regs = dev.regs) ∧
      (at' 0x21 → viaPcie → dev.cmdRefusal false c.daddr c.length = none → dev.memWaits false c.daddr = false →
        dev.memGate 3 0x100 false c.daddr = .ok →
        Completes (.read q cid []) s fun d => ended 0 0 d ∧
          d.inn.out = .hostWrite c.haddr (dev.bytes c.daddr c.length) :: dev.inn.out ∧ d.mem = dev.mem)) ∧
    (at' 0x30 → c.target < 256 → dev.domOn (engRgn e) = true → dev.rgnP (engRgn e) = 0 → dev.engState e = esParked →
        PageOpen dev (engPg e) → c.p0 % 4 = 1 → dev.inn.withheld = [] → Completes (.engine q cid) s fun d =>
      ended 0 (d.engStat e).toNat d ∧ d.engState e = esRunning ∧ (d.en e).pc = dev.reg (engPg e) R.ENG_BOOT) ∧
    (at' 0x40 → dev.lcs ≠ 3 → dev.reportLen ≤ c.length → dev.stw.att = none → Completes (.attest q cid) s fun d =>
      waits .attest d ∧ (∃ x, d.inn.stw.att = some x ∧ x.addr = c.haddr ∧ x.who = 0x100) ∧ d.regs = dev.regs) ∧
    (∀ i, at' 0x50 → dev.freeTest = some i → dev.domOn (pageDomain c.target) = true →
        (∀ x ∈ dev.testRuns, x.page ≠ c.target) → dev.testRefusal (c.p0 % 256) c.target = 0 →
      Completes (.selftest q cid) s fun d => waits (.test i.val) d ∧
        ∃ t, (d.inn.tests[i.val]).run = some t ∧ t.code = c.p0 % 256 ∧ t.page = c.target) ∧
    (dev.calRefusal c = none →
      (at' 0x51 → viaPcie → Completes (.calRead q cid) s fun d =>
        ended 0 c.length d ∧ d.regs = dev.regs ∧ d.inn.out = .hostWrite c.haddr
          ((List.range (c.length / 4)).flatMap fun i => Word.bytes (dev.reg c.target (256 + i))) :: dev.inn.out) ∧
      (∀ bs, at' 0x52 → dev.bufferOpen = true → (∀ i, i < c.length / 4 → arrayWordOk c.target i ((wordsOf (c.length / 4) bs).getD i 0) = true) →
        Completes (.calWrite q cid (some bs)) s fun d => ended 0 c.length d ∧
          ∀ i, i < c.length / 4 → d.reg c.target (256 + i) =
            (wordsOf (c.length / 4) bs).getD i 0 &&& keyMask (regKey c.target (256 + i)))) ∧
    (at' 0x60 → c.target < 64 → c.p0 % 8 = 1 → dev.rgnP r.val = 0 → dev.rgnRefusal r 1 = 0 → Completes (.power q cid) s fun d =>
      waits (.power r.val 1) d ∧ d.rgnMoving r.val = true ∧ (d.rg r).powGoal = some 1 ∧ d.rgnP r.val = 0)

/-- From R280, R281, R283, R284, R290, R294, R295, R303, R309: a port is enabled, retrains, aligns its lanes, exchanges parameters;
replay and its end; keys, their re-keying and its failure; TIME frames; link waymarks. -/
def Sys2Proof.GulegPortsRules : Prop :=
  ∀ (s : State) (p : PortId), s.Inv → s.Up → PageOpen s.dev (lnkPg p) →
    let dev := s.dev
    let g := lnkPg p
    let k := dev.lk p
    let quietOn (d : Device) (st : Nat) : Prop := d.lnkState p = st ∧ d.mem = dev.mem ∧ d.gpr = dev.gpr
    (dev.lnkState p ≠ psAbsent → dev.eth = false → (∀ l ∈ portLanes p, dev.underTest l = false) →
      (dev.bit g F.LNK_CTL.en = false → Completes (.linkEnable p true) s fun d =>
        d.bit g F.LNK_CTL.en = true ∧ quietOn d psTrain ∧ ∀ l ∈ portLanes p, dev.laneOn l = true → d.lnState l = lsPll) ∧
      (dev.bit g F.LNK_CTL.en = true → Completes (.linkEnable p false) s fun d =>
        d.bit g F.LNK_CTL.en = false ∧ quietOn d psDown ∧ d.bit g F.LNK_PEER.valid = false ∧
          ∀ l ∈ portLanes p, d.lnState l = 0)) ∧
    (dev.lnkState p = psUp → Completes (.linkRetrain p) s fun d =>
      quietOn d psRetrain ∧ (d.lk p).replay = [] ∧
        (d.reg g R.LNK_DOWNCNT).toNat = ((dev.reg g R.LNK_DOWNCNT).toNat + 1) % 2 ^ 32) ∧
    (∀ x, dev.lnkState p = psTrain → dev.lanesReady p = true →
      ((∀ i : Fin 4, (x[i.val]).2.val ≤ 16) → Completes (.portAlign p x) s fun d => quietOn d psParam ∧
        ∀ i : Fin 4, d.fld (lnPg (Fin.ofNat 48 (4 * p.val + i.val))) F.LN_ALIGN.skew = (x[i.val]).2.val) ∧
      ((∃ i : Fin 4, 16 < (x[i.val]).2.val) → Completes (.portAlign p x) s fun d => quietOn d psRetrain)) ∧
    (∀ n m, dev.lnkState p = psParam → dev.bit g F.LNK_CTL.enc_req = false →
      Completes (.portParam p n m false) s (fun d => quietOn d psUp ∧ d.fld g F.LNK_PEER.dev = n.val ∧
        d.fld g F.LNK_PEER.port = m.val ∧ d.bit g F.LNK_STAT.enc = false) ∧
      (dev.stw.identity = true → Completes (.portParam p n m true) s (fun d => quietOn d psKeying ∧ d.fld g F.LNK_KEYSTAT.state = 2 ∧
        ∃ f, (d.lk p).replay = k.replay ++ [(k.txSeq, f)] ∧ f.ftype = 5)) ∧
      (dev.stw.identity = false → Completes (.portParam p n m true) s fun d => quietOn d psDown ∧ d.fld g F.LNK_KEYSTAT.state = 3)) ∧
    (∀ a x, k.replay = (a, x) :: k.replay.tail → (dev.lnkState p = psUp ∨ dev.lnkState p = psKeying) →
      Completes (.linkFrame p { seq := a, nak := false }) s fun d =>
        (d.lk p).replay = k.replay.tail ∧ (d.lk p).attempts = 0 ∧ d.regs = dev.regs) ∧
    (k.replay ≠ [] → dev.lnkState p = psUp →
      (4 ≤ k.attempts → Completes (.replayTimeout p) s fun d =>
        quietOn d psRetrain ∧ (d.lk p).replay = [] ∧ d.regBit g R.LNK_ERR 1 = true) ∧
      (k.attempts < 4 → dev.now < k.since + 8000 → Completes (.replayTimeout p) s fun d =>
        quietOn d psUp ∧ (d.lk p).replay = k.replay ∧ (d.lk p).attempts = k.attempts + 1 ∧
          (d.reg g R.LNK_REPLAYCNT).toNat = ((dev.reg g R.LNK_REPLAYCNT).toNat + k.replay.length) % 2 ^ 32)) ∧
    (dev.lnkState p = psUp → k.waiting = false →
      Completes (.timeFrameSend p) s (fun d =>
        d.inn.out = .frame p.val 4 [0, dev.now16] :: dev.inn.out ∧ (d.lk p).timeSent = dev.now16 ∧ d.regs = dev.regs) ∧
      Completes (.timeFrame p none) s (fun d =>
        d.inn.out = .frame p.val 4 [1, dev.now16, dev.now16] :: dev.inn.out ∧ d.regs = dev.regs) ∧
      (∀ t2 t3 : Nat, dev.fld 80 F.LNK_DEV.tparent ≠ p.val → Completes (.timeFrame p (some (t2, t3))) s fun d =>
        d.reg g R.LNK_TIMEOFS = BitVec.ofInt 32
          ((((t2 : Int) - (k.timeSent : Int)) + ((t3 : Int) - (dev.now16 : Int))) / 2) ∧ d.inn.devtime = dev.inn.devtime)) ∧
    (∀ bs seq, dev.lnkState p = psKeying → dev.fld g F.LNK_KEYSTAT.state = 2 → k.rxSeq = seq % 4096 → k.waiting = false →
      Completes (.keyFrame p bs none (.good seq)) s fun d =>
        if dev.stw.identity = true ∧ dev.keyRefusal bs = 0 then
          quietOn d psUp ∧ d.bit g F.LNK_STAT.enc = true ∧ d.fld g F.LNK_KEYSTAT.state = 1 ∧ d.frameCtr p = 0 ∧
            d.fld g F.LNK_KEYSTAT.epoch = (dev.fld g F.LNK_KEYSTAT.epoch + 1) % 256
        else
          quietOn d psDown ∧ d.fld g F.LNK_KEYSTAT.state = 3 ∧ (dev.stw.identity = true → d.fld 3 F.STW_KEYERR.cause = dev.keyRefusal bs) ∧
            d.regBit g R.LNK_ERR 3 = true) ∧
    (dev.lnkState p = psUp → dev.bit g F.LNK_STAT.enc = true → 15 * 2 ^ 36 ≤ dev.frameCtr p →
      dev.fld g F.LNK_KEYSTAT.state = 1 → Completes (.rekeyThreshold p) s fun d =>
        d.fld g F.LNK_KEYSTAT.state = 2 ∧ ∃ f, (d.lk p).replay = k.replay ++ [(k.txSeq, f)] ∧ f.ftype = 5) ∧
    (k.waiting = true → Completes (.rekeyTimeout p) s fun d =>
      quietOn d psDown ∧ d.fld g F.LNK_KEYSTAT.state = 3 ∧ d.regBit g R.LNK_ERR 3 = true) ∧
    (∀ (m : Bool) (e : Fin 128), PageOpen dev 80 →
      let i := (if m then 128 else 0) + e.val
      let w := dev.reg 80 (512 + i)
      (linkWmCheck w.toNat = 0 → Completes (.linkWaymarkFlip m e) s fun d =>
        d.reg 80 (256 + i) = w &&& keyMask (regKey 80 (256 + i)) ∧ d.fld 80 F.LNK_WMCTL.result = 1 ∧ d.mem = dev.mem) ∧
      (linkWmCheck w.toNat ≠ 0 → Completes (.linkWaymarkFlip m e) s fun d =>
        d.reg 80 (256 + i) = dev.reg 80 (256 + i) ∧ d.fld 80 F.LNK_WMCTL.result = 2 ∧
          d.fld 80 F.LNK_WMCTL.cause = linkWmCheck w.toNat))

/-- From R151, R281, R282, R287, R288: a frame in sequence is acknowledged; a request for this device enters the tile network, a
response ends its request, an event is reported, a frame with hops left goes on, chain bytes are kept; a request without a response
times out. -/
def Sys2Proof.GulegFramesRules : Prop :=
  ∀ (s : State) (p : PortId) (f : Frame) (seq : Nat), s.Inv → s.Up → PageOpen s.dev (lnkPg p) → s.dev.lnkState p = psUp → (s.dev.lk p).waiting = false →
    let dev := s.dev
    let k := dev.lk p
    let good : Received := .good seq
    let taken (d : Device) : Prop := (d.lk p).rxSeq = (k.rxSeq + 1) % 4096 ∧ .frame p.val 3 [k.rxSeq, 0] ∈ d.inn.out
    (k.rxSeq = seq % 4096 →
      (f.dst = dev.devnum → f.hops = 0 →
        (f.ftype = 1 → f.kind = 0 → k.held.length < 256 → dev.remoteOk p f = true → Completes (.reqFrame p f none good) s fun d =>
          taken d ∧ d.regs = dev.regs ∧ (d.lk p).held = k.held ++ [k.nextPkt] ∧
            ∃ x, d.inn.net = dev.inn.net ++ [x] ∧ x.kind = 0 ∧ x.cls = 2 ∧ x.addr = f.addr ∧ x.be = f.be ∧ x.src = 0x300 + p.val ∧
              x.pos = agentRouter p ∧ x.origin = some (f.src, f.etag, f.init)) ∧
        (f.ftype = 2 → f.kind = 7 →
          (∀ q t x, dev.etagOf p f.src f.etag = some (q, t, x) → isPosted x.kind = false →
            Completes (.rspFrame p f none good) s fun d =>
              taken d ∧ (∀ y ∈ (d.lk q).etags, y.1 ≠ t) ∧
                ∃ y, d.inn.net = dev.inn.net ++ [y] ∧ y.kind = 7 ∧ y.tag = x.tag ∧ y.status = f.status ∧ y.data = f.data) ∧
          (dev.etagOf p f.src f.etag = none → Completes (.rspFrame p f none good) s fun d =>
            taken d ∧ d.regBit (lnkPg p) R.LNK_ERR 6 = true ∧
              (d.reg (lnkPg p) R.LNK_LATECNT).toNat = ((dev.reg (lnkPg p) R.LNK_LATECNT).toNat + 1) % 2 ^ 32)) ∧
        (∀ (r : RegionId) i, f.ftype = 7 → f.kind = 8 → f.init = 0x140 + r.val → statusCause f.status = some i → PageOpen dev (niPg r) →
          Completes (.eventFrame p f none good) s fun d =>
            taken d ∧ d.regBit (niPg r) R.NI_ERR i = true ∧ d.fld (niPg r) F.NI_ERRSRC.status = f.status)) ∧
      (∀ q, f.hops ≠ 0 → f.ftype ∈ [1, 2, 7] → frameFits f = true → dev.egress f = some q → Completes (.frameTransit p f none good) s fun d =>
        taken d ∧ (d.lk q).replay = (dev.lk q).replay ++ [((dev.lk q).txSeq, nextHop f)] ∧ d.inn.net = dev.inn.net) ∧
      (∀ bs, dev.ldr.chain = none → dev.ldr.src = none → dev.ldr.lost = false → Completes (.loadFrame p bs none good) s fun d =>
        taken d ∧ d.ldr.chainIn = dev.ldr.chainIn ++ bs ∧ d.regs = dev.regs)) ∧
    (f.dst = dev.devnum → f.hops = 0 → f.ftype = 1 → f.kind = 0 → k.held.length < 256 →
      Completes (.reqFrame p f none .crc) s fun d =>
        (d.lk p).rxSeq = k.rxSeq ∧ d.inn.net = dev.inn.net ∧ d.inn.out = .frame p.val 3 [(k.rxSeq + 4095) % 4096, 1] :: dev.inn.out) ∧
    (∀ (t : Fin 4096) x, k.etags = [(t.val, x)] → isPosted x.kind = false → Completes (.e2eTimeout p t) s fun d =>
      (d.lk p).etags = [] ∧ d.regBit (lnkPg p) R.LNK_ERR 5 = true ∧ (∃ y ∈ d.inn.net, y.kind = 7 ∧ y.status = 6 ∧ y.tag = x.tag) ∧
        (d.reg (lnkPg p) R.LNK_TOCNT).toNat = ((dev.reg (lnkPg p) R.LNK_TOCNT).toNat + 1) % 2 ^ 32)

/-- Guleg ports and frames: states, replay, keys, TIME, waymarks, requests, chain bytes. -/
def Obligations.GulegLinks : Prop :=
  GulegPortsRules ∧ GulegFramesRules

/-- From R303 to R308, R310 to R313: a lane locks, adapts and is ready; a failure or a loss takes it and its port back; references, eye
scans, the transmit taps, lane tests, the choice of the lanes' owner. -/
def Obligations.SerialLanes : Prop :=
  ∀ (s : State) (l : LaneId), s.Inv → s.Up → PageOpen s.dev (lnPg l) →
    let dev := s.dev
    let p := lnPg l
    let st := dev.lnState l
    let portIs (n : Nat) (d : Device) : Prop := ∀ q, dev.lanePort l = some q → d.lnkState q = n
    let portWas (n : Nat) : Prop := ∀ q, dev.lanePort l = some q → dev.lnkState q = n
    (st = lsPll → l.val / 12 ∉ dev.inn.refLost → Completes (.pllLock l) s fun d =>
      d.lnState l = lsCdr ∧ d.bit p F.LN_STAT.pll_lock = true ∧ OnlyRegs s p [F.LN_STAT.state.off] d) ∧
    (st = lsCdr → Completes (.blockLock l) s fun d => d.lnState l = lsAdapt ∧ OnlyRegs s p [F.LN_STAT.state.off] d) ∧
    (st = lsRelock → Completes (.blockLock l) s fun d => d.lnState l = lsReady ∧ OnlyRegs s p [F.LN_STAT.state.off] d) ∧
    (∀ x : Adapted, st = lsAdapt → l.val ∉ dev.inn.calNew → x.width ≤ 64 → x.height < 1024 → Completes (.adaptDone l x) s fun d =>
      d.lnState l = lsReady ∧ d.bit p F.LN_STAT.restored = false ∧ d.fld p F.LN_EYE.width = x.width ∧
        d.fld p F.LN_EYE.height = x.height ∧ d.bit p F.LN_EYE.valid = true ∧ d.mem = dev.mem ∧
        d.fld p F.LN_CTLE.code = if dev.bit p F.LN_RXCTL.ctle_hold then dev.fld p F.LN_RXCTL.ctle_code else x.ctle.val) ∧
    (∀ us, st = lsReady → (dev.lanePort l).isSome = true → dev.bit p F.LN_STAT.peer_ready = false → Completes (.peerReady l us) s fun d =>
      d.bit p F.LN_STAT.peer_ready = true ∧ d.reg p R.LN_TRAINTIME = us &&& keyMask (regKey p R.LN_TRAINTIME) ∧
        (portWas psUp → OnlyRegs s p [F.LN_STAT.state.off, R.LN_TRAINTIME] d) ∧
        (∀ q, dev.lanePort l = some q → dev.lnkState q = psTrain → (∀ k ∈ portLanes q, k ≠ l → dev.bit (lnPg k) F.LN_STAT.peer_ready = true) →
          d.lnkState q = psAlign)) ∧
    (lsCdr ≤ st → st ≤ lsRelock → dev.bit p F.LN_STAT.peer_ready = false → portWas psTrain → (dev.lanePort l).isSome = true → Completes (.trainTimeout l) s fun d =>
      d.lnState l = lsCdr ∧ d.regBit p R.LN_ERR 3 = true ∧ d.fld p F.LN_CTLE.code = 0 ∧ portIs psRetrain d) ∧
    (st = lsReady →
      (portWas psUp → Completes (.trainingRx l) s fun d => portIs psRetrain d ∧ d.mem = dev.mem) ∧
      (portWas psTrain → Completes (.trainingRx l) s fun d =>
        d.bit p F.LN_STAT.training_rx = true ∧ portIs psTrain d ∧ OnlyRegs s p [F.LN_STAT.state.off] d) ∧
      Completes (.lockLost l) s (fun d =>
        d.lnState l = lsRelock ∧ d.regBit p R.LN_ERR 0 = true ∧ d.bit p F.LN_EYE.valid = false ∧
          (d.reg p R.LN_LOCKCNT).toNat = ((dev.reg p R.LN_LOCKCNT).toNat + 1) % 2 ^ 32) ∧
      ((dev.lanePort l).isSome = true → Completes (.ebufRecenter l) s fun d =>
        d.regBit p R.LN_ERR 2 = true ∧ d.lnState l = lsReady) ∧
      (∀ w h, dev.bit p F.LN_EYETHR.scan_en = true → Completes (.eyeScan l w h) s fun d =>
        d.bit p F.LN_EYE.valid = true ∧ d.fld p F.LN_EYE.width = w.val ∧ d.fld p F.LN_EYE.height = h.val ∧
          d.fld p F.LN_EYEMIN.width = min w.val (dev.fld p F.LN_EYEMIN.width) ∧
          d.fld p F.LN_EYEMIN.height = min h.val (dev.fld p F.LN_EYEMIN.height) ∧
          (w.val < dev.fld p F.LN_EYETHR.width_min → d.regBit p R.LN_ERR 4 = true))) ∧
    (st = lsRelock → portWas psUp → Completes (.relockTimeout l) s fun d => d.lnState l = lsCdr ∧ portIs psRetrain d) ∧
    (lsCdr ≤ st → st ≤ lsRelock → portWas psUp → Completes (.pllUnlock l) s fun d =>
      d.lnState l = lsPll ∧ d.bit p F.LN_STAT.pll_lock = false ∧ d.regBit p R.LN_ERR 1 = true ∧ portIs psRetrain d) ∧
    (∀ g : Fin 4, l.val / 12 = g.val →
      (g.val ∉ dev.inn.refLost → lsPll ≤ st → st ≤ lsRelock → Completes (.refLost g) s fun d =>
        g.val ∈ d.inn.refLost ∧ d.bit p F.LN_STAT.ref_ok = false ∧ d.lnState l = lsPll ∧ d.regBit p R.LN_ERR 7 = true) ∧
      Completes (.refReturn g) s (fun d => g.val ∉ d.inn.refLost ∧ d.bit p F.LN_STAT.ref_ok = true ∧ d.lnState l = st)) ∧
    (∀ (a : Fin 16) (b : Fin 64) (c : Fin 32),
      (a.val + b.val + c.val ≤ 63 → 24 ≤ b.val → Completes (.txeqWrite l a b c) s fun d =>
        d.fld p F.LN_TXEQ.pre = a.val ∧ d.fld p F.LN_TXEQ.main = b.val ∧ d.fld p F.LN_TXEQ.post = c.val ∧
          OnlyRegs s p [F.LN_TXEQ.pre.off] d) ∧
      (¬ (a.val + b.val + c.val ≤ 63 ∧ 24 ≤ b.val) → Completes (.txeqWrite l a b c) s fun d =>
        d.reg p F.LN_TXEQ.pre.off = dev.reg p F.LN_TXEQ.pre.off ∧ d.regBit p R.LN_ERR 6 = true)) ∧
    (∀ (loop : Fin 4) (gen chk : Fin 8), loop.val ≠ 0 → gen.val ≤ 4 → chk.val ≤ 4 →
      (dev.ownerUp l = false → portWas psTrain → Completes (.laneTestWrite l loop gen chk) s fun d =>
        d.lnState l = lsTest ∧ d.underTest l = true ∧ d.fld p F.LN_TEST.loop = loop.val ∧ d.fld p F.LN_TEST.gen = gen.val ∧
          d.fld p F.LN_TEST.chk = chk.val ∧ portIs psDown d) ∧
      (dev.ownerUp l = true → Completes (.laneTestWrite l loop gen chk) s fun d =>
        d.reg p R.LN_TEST = dev.reg p R.LN_TEST ∧ d.lnState l = st ∧ d.regBit p R.LN_ERR 5 = true)) ∧
    (dev.fld p F.LN_TEST.gen ≠ 0 → Completes (.prbsInject l) s fun d =>
      d.inn.out = .wire p [1] :: dev.inn.out ∧ d.regs = dev.regs) ∧
    Completes (.prbsClear l) s (fun d =>
      d.reg p R.LN_PRBSERR = 0 ∧ d.reg64 p R.LN_PRBSBITS_LO = 0 ∧
        OnlyRegs s p [R.LN_PRBSERR, R.LN_PRBSBITS_LO, R.LN_PRBSBITS_HI] d) ∧
    (∀ eth, l = 44 → dev.eth ≠ eth →
      (dev.bit 91 F.LNK_CTL.en = false → dev.bit 41 F.ETH_CTL.en = false → dev.bit 42 F.ETH_CTL.en = false →
        Completes (.ethselWrite eth) s fun d =>
          d.eth = eth ∧ d.fld 91 F.LNK_STAT.state = (if eth then psAbsent else psDown) ∧ d.mem = dev.mem) ∧
      (dev.bit 91 F.LNK_CTL.en = true → Completes (.ethselWrite eth) s fun d =>
        d.eth = dev.eth ∧ d.regBit 140 R.LN_ERR 8 = true))

/-- From R325 to R327, R334 to R336, R339, R340: reads and writes of lines that good checks pass, and the failure of one; training; a
higher refresh-rate code; the sweep; the entries of the logs and the counter caches. -/
def Sys2Proof.ExternalMemoryRules : Prop :=
  ∀ (s : State) (c : ChanId) (pk : Packet) (f : LineFound), s.Inv → s.Up → s.dev.inReset (extPg c) = false →
    let dev := s.dev
    let a := pk.addr / 64 * 64
    let off := extOff a
    let line := off / 64
    let answered (st : Nat) (d : Device) : Prop := ∃ x ∈ d.inn.net, x.kind = 7 ∧ x.tag = pk.tag ∧ x.status = st ∧ x.dirs = pk.rdirs
    (dev.inn.net = [pk] → pk.out = true → pk.pos = chanRouter c → pk.exit = 2 → inExt a = true → extChan a = c →
        dev.extBlocked c off = none →
      (pk.kind = 0 →
        (dev.extReadStatus c off f.ext = .ok → Completes (.extRead c f) s fun d =>
          (∃ x ∈ d.inn.net, x.kind = 7 ∧ x.tag = pk.tag ∧ x.status = 0 ∧ x.data = dev.bytes a 64) ∧ d.mem = dev.mem ∧
            (d.reg (extPg c) R.EXT_CNT0).toNat = ((dev.reg (extPg c) R.EXT_CNT0).toNat + 1) % 2 ^ 32) ∧
        (f.ext = .bad → dev.extChecked c off = true → line ∉ (dev.ext c).poison → Completes (.extRead c f) s fun d =>
          answered 1 d ∧ line ∈ (d.ext c).poison ∧ d.regBit (extPg c) R.EXT_ERR 1 = true ∧
            (d.reg (extPg c) R.EXT_ALARMCNT).toNat = ((dev.reg (extPg c) R.EXT_ALARMCNT).toNat + 1) % 2 ^ 32 ∧ d.mem = dev.mem)) ∧
      (pk.kind = 1 → dev.extStalled c off = false → dev.unswept c (off / 4096) = false →
        (pk.be = 2 ^ 64 - 1 → ∀ l, dev.counterBad c f.ext = some l → Completes (.extFullWrite c f) s fun d =>
          answered 1 d ∧ d.mem = dev.mem) ∧
        (pk.be = 2 ^ 64 - 1 → pk.data.length = 64 → dev.counterBad c f.ext = none → Completes (.extFullWrite c f) s fun d =>
          answered 0 d ∧ Stored s a pk.data d ∧ line ∉ (d.ext c).poison ∧
            (dev.extMode c = mFull → natAt (dev.ext c).lc line < 255 → natAt (d.ext c).lc line = natAt (dev.ext c).lc line + 1)) ∧
        (pk.be < 2 ^ 64 - 1 → dev.extReadStatus c off f.ext = .ok → Completes (.extPartialWrite c f) s fun d =>
          answered 0 d ∧ (∀ x, (x < a ∨ a + 64 ≤ x) → d.byte x = dev.byte x) ∧
            ∀ i, i < 64 → d.byte (a + i) = if pk.be.testBit i then pk.data.getD i 0 else dev.byte (a + i)))) ∧
    (∀ mib m1 m2 m3,
      let r := trainedRate (dev.fld (extPg c) F.EXT_CFG.max_rate) (dev.fld (extPg c) F.EXT_CFG.margin_min)
        fun i => if i.val = 0 then m1 else if i.val = 1 then m2 else m3
      dev.fld (extPg c) F.EXT_STAT.state = 1 →
      (∀ k, r = some k → mib ≠ 0 → Completes (.channelTrained c mib m1 m2 m3) s fun d =>
        d.fld (extPg c) F.EXT_STAT.state = 3 ∧ d.extGib c = dataGib mib ∧ d.fld (extPg c) F.EXT_STAT.rate = k ∧
          d.extMode c = mBlanket ∧ (d.ext c).bound = 0 ∧ d.bit (extPg c) F.EXT_SWEEP.sweeping = (dataGib mib != 0)) ∧
      (r = none ∨ mib = 0 → Completes (.channelTrained c mib m1 m2 m3) s fun d =>
        d.fld (extPg c) F.EXT_STAT.state = 5 ∧ d.extGib c = 0 ∧ d.extMode c = mOff ∧ d.regBit (extPg c) R.EXT_ERR 7 = true ∧
          d.mem = dev.mem)) ∧
    (∀ code : Fin 8, dev.fld (extPg c) F.EXT_TEMP.code < code.val → Completes (.refreshRateCodeRise c code) s fun d =>
      d.fld (extPg c) F.EXT_TEMP.code = code.val ∧ d.regBit (extPg c) R.EXT_ERR 9 = true ∧ d.mem = dev.mem) ∧
    (dev.bit (extPg c) F.EXT_SWEEP.sweeping = true →
      ((dev.ext c).bound < dev.extGib c * 2 ^ 18 → Completes (.sweepPage c) s fun d =>
        (d.ext c).bound = (dev.ext c).bound + 1 ∧
          (natAt (dev.ext c).pc (dev.ext c).bound = 0 →
            natAt (d.ext c).pc (dev.ext c).bound = 1 ∧ ∀ i, i < 4096 → d.byte (chanBase c + 4096 * (dev.ext c).bound + i) = 0) ∧
          (natAt (dev.ext c).pc (dev.ext c).bound ≠ 0 → d.mem = dev.mem)) ∧
      (dev.extGib c * 2 ^ 18 ≤ (dev.ext c).bound → Completes (.sweepDone c) s fun d =>
        d.bit (extPg c) F.EXT_SWEEP.sweeping = false ∧ d.regBit (extPg c) R.EXT_ERR 8 = true ∧ d.mem = dev.mem)) ∧
    (∀ sel : Fin 16, dev.gated (extPg c) = false → Completes (.plogFree c sel) s fun d =>
      (d.ext c).plog[sel.val] = none ∧ d.fld (extPg c) F.EXT_PLOGCTL.sel = sel.val ∧ d.mem = dev.mem) ∧
    (∀ sel : Fin 16, PageOpen dev 39 →
      Completes (.lostLogFree sel) s (fun d => d.inn.cry.lostLog[sel.val] = none ∧
        d.fld 39 F.CTR_STAT.lost = (if (dev.inn.cry.lostLog[sel.val]).isSome then dev.fld 39 F.CTR_STAT.lost - 1
          else dev.fld 39 F.CTR_STAT.lost) ∧ d.mem = dev.mem) ∧
      Completes .counterCacheFlush s (OnlyRegs s 39 [R.CTR_CCWB0, R.CTR_CCWB0 + 1]))

/-- From R319, R320, R329 to R332: the steward alone changes a channel's mode; a key region starts its ramble at its count or by force;
the rambler takes page after page, and ends with a new generation. -/
def Sys2Proof.KeyRegionsRules : Prop :=
  ∀ (s : State) (k : Fin 32), s.Inv → s.Up → s.dev.inReset 38 = false →
    let dev := s.dev
    let rk := dev.ramRegion
    let c := regionChan rk
    let b := dev.fld 38 F.CRY_RSTAT.boundary
    (dev.gated 38 = false →
      (∀ who m0 m1, who ≠ .steward → Completes (.cryModeWrite who m0 m1) s fun d =>
        d.regs = dev.regs ∧ d.mem = dev.mem ∧ d.inn.ext = dev.inn.ext) ∧
      (dev.stw.memKeys = false → Completes (.cryModeWrite .steward 2 3) s fun d => d.regs = dev.regs ∧ d.mem = dev.mem ∧ d.inn.ext = dev.inn.ext) ∧
      (dev.stw.memKeys = true → dev.fld 36 F.EXT_STAT.state = 3 → dev.extMode 0 = mBlanket → Completes (.cryModeWrite .steward 2 3) s fun d =>
        d.extMode 0 = mFull ∧ d.fld 38 F.CRY_MODE.mode0 = 2 ∧ d.bit 38 F.CRY_STAT.keys = true ∧ d.extMode 1 = dev.extMode 1 ∧
          (d.ext 0).bound = 0 ∧ (d.ext 0).poison = [] ∧ ∀ i, i < 0x400000000 → d.byte (extBase + i) = 0)) ∧
    (dev.regionInUse k.val = true →
      (dev.rambling = false →
        (15 * 2 ^ 40 ≤ dev.kCount k.val → Completes (.rambleStart k) s fun d =>
          d.rambling = true ∧ d.ramRegion = k.val ∧ d.fld 38 F.CRY_RSTAT.boundary = 0 ∧ d.inn.cry.forced = false) ∧
        (dev.gated 38 = false → Completes (.rambleForce k) s fun d =>
          d.rambling = true ∧ d.ramRegion = k.val ∧ d.fld 38 F.CRY_RSTAT.boundary = 0 ∧ d.inn.cry.forced = true)) ∧
      (dev.rambling = true → rk ≠ k.val → dev.inn.cry.queue = [] → 15 * 2 ^ 40 ≤ dev.kCount k.val →
        Completes (.rambleStart k) s fun d =>
          d.ramRegion = rk ∧ d.inn.cry.queue = [(k.val, false)] ∧ d.regBit 38 R.CRY_KRQUEUE k.val = true)) ∧
    (dev.rambling = true →
      (∀ bad : List (Fin 64), b < 2 ^ 18 - 1 → dev.inn.cry.passed < 2 ^ 18 → dev.ramPage ∉ (dev.ext c).lost → Completes (.ramblePage bad) s fun d =>
        d.fld 38 F.CRY_RSTAT.boundary = b + 1 ∧ d.inn.cry.own = dev.inn.cry.own + 64 ∧ d.inn.cry.passed = dev.inn.cry.passed + 1 ∧ d.mem = dev.mem ∧
          (∀ i ∈ bad, 64 * dev.ramPage + i.val ∈ (d.ext c).poison) ∧
          (d.reg 38 R.CRY_RAMBLECNT).toNat = ((dev.reg 38 R.CRY_RAMBLECNT).toNat + 1) % 2 ^ 32) ∧
      (2 ^ 18 ≤ dev.inn.cry.passed → dev.inn.cry.queue = [] → Completes .rambleDone s fun d =>
        d.rambling = false ∧ d.kGen rk = (dev.kGen rk + 1) % 256 ∧ d.kCount rk = dev.inn.cry.own ∧
          d.regBit 38 R.CRY_KRSTALL rk = false ∧ d.mem = dev.mem))

/-- External memory and inline encryption; a key region's generation rises at a ramble's end by the model's choice (log entry 46). -/
def Obligations.ExternalMemoryAndKeys : Prop :=
  ExternalMemoryRules ∧ KeyRegionsRules

/-- From R343, R345, R346, R349 to R353: a bank's supply leaves its range and comes back; a delay line moves; the FIFOs of a serial
port, its characters and SPI words; a management bus runs a transaction to its end. -/
def Obligations.BanksSerialPortsBuses : Prop :=
  ∀ (s : State), s.Inv → s.Up →
    let dev := s.dev
    (∀ (b : BankId) (m : Fin 8) (w : Byte), dev.inReset (ioPg b) = false →
      let p := ioPg b
      let pin := dev.fld p F.IO_DLYSEL.pin
      let k := 48 * b.val + pin
      Completes (.vccioBad b m) s (fun d =>
        (∀ x : Fin 48, d.pinRow b x = .vccioBad) ∧ d.fld p F.IO_INFO.measured = m.val ∧ d.regBit p R.IO_ERR 0 = true ∧ d.mem = dev.mem) ∧
      Completes (.vccioGood b m w) s (fun d =>
        b.val ∉ d.inn.vccBad ∧ d.fld p F.IO_INFO.measured = m.val ∧ d.bit p F.IO_CALSTAT.calibrated = true ∧
          d.fld p F.IO_CALSTAT.residual = w.toNat ∧ (10 < w.toNat → d.regBit p R.IO_ERR 1 = true) ∧ d.mem = dev.mem) ∧
      (∀ t : Fin 512, dev.gated p = false → pin < 48 →
        (dev.tap k = dev.tapGoal k → Completes (.delayWrite b t) s fun d =>
          d.tapGoal k = t.val ∧ d.tap k = dev.tap k ∧ d.regs = dev.regs) ∧
        (dev.tap k ≠ dev.tapGoal k → Completes (.delayWrite b t) s fun d =>
          d.tapGoal k = dev.tapGoal k ∧ d.regBit p R.IO_ERR 2 = true)) ∧
      (∀ x : Fin 48, Completes (.delayReached b x) s fun d =>
        d.tap (48 * b.val + x.val) = dev.tapGoal (48 * b.val + x.val) ∧ d.regs = dev.regs ∧ d.mem = dev.mem)) ∧
    (∀ (p : SerialId) (w : Word) (rest : List Word), PageOpen dev (serPg p) →
      let g := serPg p
      let q := dev.se p
      let sent (d : Device) (xs : List Nat) : Prop := (d.se p).tx = rest ∧ d.inn.out = .wire g xs :: dev.inn.out
      (q.tx.length < 64 → Completes (.serTxPush p w) s fun d =>
        d.se p = { q with tx := q.tx ++ [if dev.serMode p = 3 then w else lowBits 9 w] } ∧ d.regs = dev.regs) ∧
      (64 ≤ q.tx.length → Completes (.serTxPush p w) s fun d => d.se p = q ∧ d.regBit g R.SER_ERR 4 = true) ∧
      (∀ who, who ≠ .debugger → q.rx = w :: rest → Completes (.serRxPop who p) s fun d =>
        d.se p = { q with rx := rest } ∧ d.inn.out = .device g [who.id, w.toNat] :: dev.inn.out ∧ d.regs = dev.regs) ∧
      (∀ v : BitVec 9, dev.serMode p = 1 →
        (q.rx.length < 64 → Completes (.uartRxChar p v false false false) s fun d =>
          d.se p = { q with rx := q.rx ++ [lowBits (dev.fld g F.SER_FMT.bits) (v.zeroExtend 32)] } ∧
            d.reg64 g R.SER_RXTIME_LO = dev.now % 2 ^ 64) ∧
        (64 ≤ q.rx.length → Completes (.uartRxChar p v false false false) s fun d =>
          d.se p = q ∧ d.regBit g R.SER_ERR 0 = true)) ∧
      (∀ ctsN, q.tx = w :: rest → dev.serMode p = 1 → (dev.bit g F.SER_CTL.flow = false ∨ ctsN = false) →
        Completes (.uartTxChar p ctsN) s fun d =>
          sent d [(lowBits (dev.fld g F.SER_FMT.bits) w).toNat] ∧ d.regs = dev.regs) ∧
      (∀ miso, q.tx = w :: rest → dev.serMode p = 3 → q.rx.length < 64 → Completes (.spiWord p miso) s fun d =>
        let n := dev.fld g F.SER_SPI.wlen + 1
        let done : Prop := rest = [] ∨ q.cs.getD 0 + 1 = dev.fld g F.SER_SPI.words
        (d.se p).rx = q.rx ++ [lowBits n miso] ∧ (done → sent d [(lowBits n w).toNat, 1] ∧ (d.se p).cs = none) ∧
          (¬ done → sent d [(lowBits n w).toNat, 0] ∧ (d.se p).cs = some (q.cs.getD 0 + 1)))) ∧
    (∀ (m : Fin 4) (a : Fin 128) (x y : Fin 8), PageOpen dev (mbPg m) →
      let p := mbPg m
      let ended (r : Nat) (d : Device) : Prop :=
        d.bit p F.MB_STAT.busy = false ∧ d.fld p F.MB_STAT.result = r ∧ d.inn.mb[m.val] = none ∧ d.mem = dev.mem
      (dev.bit p F.MB_STAT.busy = false → dev.bit p F.MB_CTL.en = true → x.val ≤ 4 → y.val ≤ 4 →
        Completes (.mbTransaction m a x y) s fun d =>
          d.bit p F.MB_STAT.busy = true ∧ d.inn.mb[m.val] = some (a.val, x.val, y.val) ∧ OnlyRegs s p [F.MB_STAT.busy.off] d) ∧
      (∀ z (r : Fin 4) data, dev.inn.mb[m.val] = some z →
        (r = 0 → Completes (.mbDone m r data) s fun d =>
          ended 0 d ∧ d.reg p R.MB_DATA = putLow z.2.2 data (dev.reg p R.MB_DATA)) ∧
        (r ≠ 0 → Completes (.mbDone m r data) s fun d =>
          ended r.val d ∧ d.reg p R.MB_DATA = dev.reg p R.MB_DATA ∧ d.regBit p R.IO_ERR 3 = true) ∧
        Completes (.mbTimeout m) s fun d => ended 4 d ∧ d.regBit p R.IO_ERR 3 = true ∧ .wire p [9] ∈ d.inn.out))

/-- From R355, R356, R358, R360 to R362: a MAC is enabled or the write refused; frames from the line, to it, and over the client
interface; gate lists; flash is programmed and erased, or the command refused. -/
def Obligations.EthernetAndFlash : Prop :=
  ∀ (s : State), s.Inv → s.Up →
    let dev := s.dev
    (∀ (m : MacId), PageOpen dev (ethPg m) →
      let p := ethPg m
      let x := dev.mc m
      let l : LaneId := Fin.ofNat 48 (44 + m.val)
      (∀ rate : Fin 4, dev.bit p F.ETH_CTL.en = false →
        (dev.eth = true → rate.val < 2 → dev.underTest l = false → Completes (.ethEnable m true rate) s fun d =>
          d.bit p F.ETH_CTL.en = true ∧ d.fld p F.ETH_CTL.rate = rate.val ∧ (dev.laneOn l = true → d.lnState l = lsPll) ∧
            d.mem = dev.mem) ∧
        (dev.eth = false → Completes (.ethEnable m true rate) s fun d =>
          d.bit p F.ETH_CTL.en = false ∧ d.lnState l = dev.lnState l ∧ d.regBit p R.ETH_ERR 6 = true)) ∧
      (dev.bit p F.ETH_STAT.up = true → dev.bit p F.ETH_CTL.en = true →
        (∀ bs ok, dev.macTakes m bs = true →
          (x.fill + rxUnits bs.length ≤ 1024 → Completes (.ethRxFrame m bs ok) s fun d =>
            (∃ f, (d.mc m).rx = x.rx ++ [f] ∧ f.data = bs ∧ (ok = false → f.err = true) ∧
              f.ts = dev.stamp (dev.reg p R.ETH_TSCORR_RX)) ∧ (ok = false → d.regBit p R.ETH_ERR 2 = true)) ∧
          (1024 < x.fill + rxUnits bs.length → Completes (.ethRxFrame m bs ok) s fun d =>
            (d.mc m).rx = x.rx ∧ d.regBit p R.ETH_ERR 3 = true)) ∧
        (∀ (q : Fin 8) f rest, (∀ k : Fin 8, x.tx[k.val] = if k = q then f :: rest else []) → dev.slope m q.val = 0 →
          dev.gclOn m = false → x.busy ≤ dev.now → Completes (.ethTxFrame m) s fun d =>
            (d.mc m).tx[q.val] = rest ∧ (d.mc m).busy = dev.now + dev.lineTime m f.data.length ∧
              .wire p (q.val :: f.data.map (·.toNat)) ∈ d.inn.out ∧ d.regs = dev.regs)) ∧
      (dev.clientOk m = true → dev.enable (macClient m) = true →
        (∀ f rest, x.rx = f :: rest → Completes (.ethClientRxBeat m) s fun d =>
          (f.data.length ≤ x.rxOff + 16 → (d.mc m).rx = rest ∧ (d.mc m).rxOff = 0) ∧
            (x.rxOff + 16 < f.data.length → (d.mc m).rx = x.rx ∧ (d.mc m).rxOff = x.rxOff + 16) ∧ d.mem = dev.mem) ∧
        (∀ data (q : Fin 8) ts, txBytes x.tx[q.val] + 16 ≤ 16384 → Completes (.ethClientTxBeat m data true true q ts) s fun d =>
          (d.mc m).tx[q.val] = x.tx[q.val] ++ [{ data := data.take 16, ts := ts.map (·.val) }] ∧ (d.mc m).part = none ∧
            d.regs = dev.regs)) ∧
      (dev.now < dev.reg64 p R.ETH_GCLBASE_LO → Completes (.gclChange m) s fun d =>
        d.bit p F.ETH_GCLCTL.pending = true ∧ d.reg64 p R.ETH_GCLCHG_LO = dev.reg64 p R.ETH_GCLBASE_LO ∧
          (d.mc m).change = some (dev.reg64 p R.ETH_GCLBASE_LO, dev.fld p F.ETH_GCLLEN.len, (dev.reg p R.ETH_GCLCYCLE).toNat)) ∧
      (∀ t n c, x.change = some (t, n, c) → t ≤ dev.now → Completes (.gclSwitch m) s fun d =>
        (d.mc m).change = none ∧ (d.mc m).len = n ∧ (d.mc m).cycle = c ∧ (d.mc m).entry = 0 ∧ (d.mc m).cycleAt = t ∧
          d.bit p F.ETH_GCLCTL.oper = !(dev.bit p F.ETH_GCLCTL.oper) ∧ d.bit p F.ETH_GCLCTL.pending = false) ∧
      (dev.gclOn m = true → x.cycle ≠ 0 → x.cycleAt + dev.gclEnd m x.entry ≤ dev.now →
        Completes (.gclEntry m) s fun d => d.regs = dev.regs ∧
          (dev.gclEnd m x.entry < x.cycle → (d.mc m).entry = x.entry + 1 ∧ (d.mc m).cycleAt = x.cycleAt) ∧
          (x.cycle ≤ dev.gclEnd m x.entry → (d.mc m).entry = 0 ∧ (d.mc m).cycleAt = x.cycleAt + x.cycle))) ∧
    (∀ who, PageOpen dev 40 → dev.bit 40 F.FL_STAT.busy = false →
      let a := dev.fld 40 F.FL_ADDR.addr
      let started (pr : Bool) (d : Device) : Prop :=
        d.bit 40 F.FL_STAT.busy = true ∧ d.inn.flash = some { program := pr, addr := a, data := dev.flashBuf } ∧ d.mem = dev.mem
      let refused (d : Device) : Prop :=
        d.bit 40 F.FL_STAT.busy = false ∧ d.inn.flash = dev.inn.flash ∧ d.regBit 40 R.FL_ERR 0 = true
      (dev.unlockedFor 40 who = true → flashWriter who a = true →
        (a % 256 = 0 → Completes (.flashProgram who) s (started true)) ∧
        (a % 256 ≠ 0 → Completes (.flashProgram who) s refused) ∧ Completes (.flashErase who) s (started false)) ∧
      (flashWriter who a = false ∨ dev.unlockedFor 40 who = false →
        Completes (.flashProgram who) s refused ∧ Completes (.flashErase who) s refused)) ∧
    (∀ f us, dev.inn.flash = some f → f.addr < 0x8000000 →
      let base := flashBase + (if f.program then f.addr else f.addr / 0x10000 * 0x10000)
      let n := if f.program then f.data.length else 0x10000
      Completes (.flashOpDone us false) s fun d =>
        d.inn.flash = none ∧ d.bit 40 F.FL_STAT.busy = false ∧ d.fld 40 F.FL_STAT.result = 1 ∧
          (∀ x, (x < base ∨ base + n ≤ x) → d.byte x = dev.byte x) ∧
          ∀ i, i < n → d.byte (base + i) =
            if f.program = true then (if dev.byte (base + i) = 0xFF then f.data.getD i 0 else dev.byte (base + i)) else 0xFF)

/-- From R363, R365, R366 to R375: the root PLL, dividers, ordinary and forced switches of the clock groups, the monitors' trips, the
fallback oscillator and its trim, the failover record. -/
def Obligations.ClocksFailOver : Prop :=
  ∀ (s : State), s.Inv → s.Up → s.dev.inReset 13 = false →
    let dev := s.dev
    let ready := dev.bit 15 F.CLK_OSCF.ready
    let m := dev.onKroot
    let stopped := dev.inn.clkStopped
    (dev.gated 13 = false →
      (m = 0 → Completes .pllRelock s fun d => d.inn.pllOn = true ∧ d.bit 13 F.CLK_PLL.lock = false ∧ d.mem = dev.mem) ∧
      (m ≠ 0 → Completes .pllRelock s fun d =>
        d.inn.pllOn = dev.inn.pllOn ∧ d.bit 13 F.CLK_PLL.lock = dev.bit 13 F.CLK_PLL.lock ∧ d.regBit 13 R.CLK_ERR 1 = true) ∧
      Completes .failRecordClear s (fun d => d.reg 13 R.CLK_FAIL = 0 ∧ d.inn.clkFail = 0 ∧ OnlyRegs s 13 [R.CLK_FAIL] d)) ∧
    (dev.inn.pllOn = true → dev.bit 13 F.CLK_PLL.lock = false → Completes .rootPllLock s fun d =>
      d.bit 13 F.CLK_PLL.lock = true ∧ d.mem = dev.mem ∧ d.inn = dev.inn) ∧
    (PageOpen dev 14 →
      (∀ (t : Fin 4) (n : Fin 1024),
        let div (d : Device) : Nat := d.fld 14 (F.CLK_GRP1.div.at t.val)
        (dev.fld 14 (F.CLK_GRP1.divmin.at t.val) ≤ n.val → gradeMin ≤ n.val → Completes (.dividerWrite t n) s fun d =>
          div d = n.val ∧ d.mem = dev.mem ∧ d.inn = dev.inn) ∧
        (n.val < gradeMin → Completes (.dividerWrite t n) s fun d => div d = div dev ∧ d.regBit 13 R.CLK_ERR 2 = true)) ∧
      (∀ (g : Fin 5) (o : Bool),
        (dev.bit 14 (fGrpPend g) = false → dev.onOscf g ≠ o → Completes (.clockSwitch g o) s fun d =>
          d.bit 14 (fGrpPend g) = true ∧ d.bit 14 (fSrc g) = o ∧ d.onOscf g = dev.onOscf g ∧ d.inn = dev.inn) ∧
        (dev.bit 14 (fGrpPend g) = true → Completes (.clockSwitch g o) s fun d =>
          d.bit 14 (fSrc g) = dev.bit 14 (fSrc g) ∧ d.regBit 13 R.CLK_ERR 3 = true))) ∧
    (∀ g : Fin 5, dev.bit 14 (fGrpPend g) = true → dev.switchRuns g = true → Completes (.clockSwitchDone g) s fun d =>
      d.onOscf g = dev.bit 14 (fSrc g) ∧ d.bit 14 (fGrpPend g) = false ∧
        (d.reg 14 R.CLK_SWCNT).toNat = ((dev.reg 14 R.CLK_SWCNT).toNat + 1) % 2 ^ 32) ∧
    (∀ (kr : Bool) (n : Byte), dev.regBit 13 R.CLK_MONCTL (if kr then 1 else 0) = true → m ≠ 0 →
      Completes (.monitorTrip kr n) s fun d =>
        d.regBit 13 R.CLK_MONSTAT (if kr then 1 else 0) = true ∧ d.fld 13 F.CLK_FAIL.groups = m ∧
          d.fld 13 F.CLK_FAIL.trip = (if kr then 2 else 1) ∧ d.bit 13 F.CLK_FAIL.record = true ∧
          (ready = true → d.inn.clkForcing = m ∧ d.inn.clkStopped = stopped) ∧
          (ready = false → d.inn.clkForcing = 0 ∧ d.inn.clkStopped = stopped ||| m ∧ d.bit 13 F.CLK_FAIL.stopped = true)) ∧
    (dev.inn.clkForcing ≠ 0 → Completes .forcedSwitch s fun d =>
      (∀ g ∈ groupsOf dev.inn.clkForcing, d.onOscf g = true) ∧ d.inn.clkForcing = 0 ∧
        d.inn.clkFail = dev.inn.clkFail ||| dev.inn.clkForcing ∧ d.bit 13 F.CLK_FAIL.forced = true) ∧
    (∀ n : Byte, dev.regBit 13 R.CLK_MONCTL 2 = true → Completes (.oscFTrip n) s fun d =>
      d.bit 15 F.CLK_OSCF.ready = false ∧ d.regBit 13 R.CLK_MONSTAT 2 = true ∧
        (dev.runOnOscf ||| dev.inn.clkForcing ≠ 0 →
          d.inn.clkStopped = stopped ||| (dev.runOnOscf ||| dev.inn.clkForcing) ∧ d.fld 13 F.CLK_FAIL.trip = 3)) ∧
    (∀ n : Word, ready = false → Completes (.oscFReady n) s fun d =>
      d.bit 15 F.CLK_OSCF.ready = true ∧ (∀ g ∈ groupsOf stopped, d.onOscf g = true) ∧
        (stopped ≠ 0 → d.inn.clkStopped = 0 ∧ d.reg 13 R.CLK_STOPTIME = n ∧ d.inn.clkFail = dev.inn.clkFail ||| stopped)) ∧
    (PageOpen dev 15 → Completes .oscFRestart s fun d => d.bit 15 F.CLK_OSCF.ready = false ∧ d.inn = dev.inn ∧ d.mem = dev.mem) ∧
    (∀ code res, dev.onOscf 0 = false → ready = true → dev.fld 15 F.CLK_TRIMCTL.ref ≠ 3 → dev.inn.oscGoal = none →
      Completes (.oscFTrim true code res) s (fun d =>
        d.fld 15 F.CLK_TRIM.code = code.val ∧ d.fld 15 F.CLK_TRIMRES.residual = res.toNat ∧ d.mem = dev.mem) ∧
      Completes (.oscFTrim false code res) s (fun d =>
        d.fld 15 F.CLK_TRIM.code = dev.fld 15 F.CLK_TRIM.code ∧ d.regBit 13 R.CLK_ERR 4 = true))

/-- From R376 to R380, R292: each region's copy takes DEVTIME; the rate correction is taken in the permitted modes; DEVTIME steps
forward at once and backward by a hold, which ends; a change of the steering mode sets the rate in force. -/
def Obligations.DeviceTime : Prop :=
  ∀ (s : State), s.Inv → s.Up → PageOpen s.dev 16 →
    let dev := s.dev
    let x := (BitVec.ofNat 64 (dev.reg64 16 R.TIME_STEP_LO)).toInt
    Completes .devtimeSnapshot s (fun d =>
      (∀ r : RegionId, (d.rg r).devtime = if dev.rgnP r.val = 0 then dev.now else (dev.rg r).devtime) ∧ d.regs = dev.regs ∧
        d.mem = dev.mem) ∧
    (∀ v : Word, dev.adjusted = true → -200000 ≤ v.toInt → v.toInt ≤ 200000 → Completes (.timeAdjWrite v) s fun d =>
      d.reg 16 R.TIME_ADJ = v ∧ d.reg 16 R.TIME_RATE = v ∧ OnlyRegs s 16 [R.TIME_ADJ, R.TIME_RATE] d) ∧
    (∀ v : Word, dev.adjusted = false → Completes (.timeAdjWrite v) s fun d =>
      d.reg 16 R.TIME_ADJ = dev.reg 16 R.TIME_ADJ ∧ d.reg 16 R.TIME_RATE = dev.reg 16 R.TIME_RATE ∧
        d.regBit 16 R.TIME_ERR 1 = true) ∧
    (dev.adjusted = true → dev.inn.hold = 0 → dev.inn.devfrac < nsUnit → dev.inn.devtime < 2 ^ 64 →
      (0 ≤ x → Completes (.timeStep false) s fun d =>
        d.inn.devtime = (dev.inn.devtime + x.toNat) % 2 ^ 64 ∧ d.inn.devfrac = dev.inn.devfrac ∧ d.inn.hold = 0 ∧
          d.regBit 16 R.TIME_ERR 0 = true) ∧
      (-1000000000 ≤ x → x < 0 → Completes (.timeStep false) s fun d =>
        d.inn.devtime = dev.inn.devtime ∧ d.inn.hold = x.natAbs * nsUnit ∧ d.regBit 16 R.TIME_ERR 2 = true)) ∧
    (dev.inn.hold ≠ 0 → dev.inn.hold ≤ dev.sysCycle48 * 1000000000 → Completes .timeHoldDone s fun d =>
      d.inn.hold = 0 ∧ d.inn.devtime = dev.inn.devtime ∧ d.regBit 16 R.TIME_ERR 3 = true) ∧
    (dev.steer = 0 → Completes (.steeringModeChange (.inl true)) s fun d =>
      d.steer = 2 ∧ d.reg 16 R.TIME_RATE = dev.reg 16 R.TIME_ADJ ∧ d.mem = dev.mem) ∧
    (dev.steer = 2 → Completes (.steeringModeChange (.inl false)) s fun d =>
      d.steer = 0 ∧ d.reg 16 R.TIME_RATE = 0 ∧ d.mem = dev.mem)

/-- From R385 to R388, R399, R408, R505: the rail sequence from cold start to power good, its fault, P4; regulators and PMBus; rails,
energy and junction temperatures. -/
def Obligations.RailsAndRegulators : Prop :=
  ∀ (s : State), s.Inv →
    let dev := s.dev
    let ph := dev.inn.phase
    let flashKept (d : Device) : Prop :=
      ∀ x, d.byte x = if flashBase ≤ x ∧ x < flashBase + 0x8000000 then dev.byte x else memDflt x
    (∀ b, ph = .off → Completes (.coldStart b) s fun d =>
      d.inn.phase = .seq ∧ d.fld 17 F.PWR_RESETCAUSE.cause = 1 ∧ d.bit 17 F.PWR_STRAPS.pwr_seq = b ∧ flashKept d ∧
        ∀ e g, d.g e g = 0) ∧
    (ph ≠ .off → Completes .p4Entry s fun d =>
      d.inn.phase = .off ∧ d.regs = [] ∧ d.inn.cmds = [] ∧ d.inn.session = none ∧ (∀ e g, d.g e g = 0) ∧ (dev.inn.flash = none → flashKept d) ∧
        ∀ f, dev.inn.flash = some f → f.program = false → f.addr < 0x8000000 →
          ∀ i, i < 0x10000 → d.byte (flashBase + f.addr / 0x10000 * 0x10000 + i) = 0xFF) ∧
    (ph = .seq →
      (∀ us, dev.seqNext = none →
        (dev.pow.waking = false → Completes (.powerGood us) s fun d =>
          d.inn.phase = .por ∧ d.reg 19 R.PWR_SEQTIME = us ∧ d.mem = dev.mem) ∧
        (dev.pow.waking = true → Completes (.powerGood us) s fun d =>
          d.inn.phase = .up ∧ d.fld 17 F.PWR_RESETCAUSE.cause = 5 ∧ d.pow.waking = false ∧ d.fld 17 F.PWR_DEVSTAT.state = 0)) ∧
      (∀ x, dev.seqNext = some x → x < 8 → Completes .sequenceEntry s fun d =>
        d.pow.turned = x :: dev.pow.turned ∧ (d.reg 19 R.PWR_SEQPOS).toNat = x % 2 ^ 32 ∧
          d.inn.out.head? = some (.device 19 [dev.fld 19 (fReg F.PWR_REG0.addr x), 1, 0x80])) ∧
      (∀ (c : Fin 4) x xs, c ≠ 0 → dev.pow.turned = x :: xs → x < 8 → Completes (.sequenceFault c) s fun d =>
        d.inn.phase = .fault ∧ d.bit 17 F.PWR_SEQFAULT.valid = true ∧ d.fld 17 F.PWR_SEQFAULT.entry = x ∧
          d.fld 17 F.PWR_SEQFAULT.cause = c.val ∧ d.bit 0 F.DEV_STAT.fault = true ∧ d.pow.turned = [])) ∧
    (s.Up → dev.inReset 17 = false →
      (∀ st : Vector (BitVec 16) 8, Completes (.pmbAlert st) s fun d =>
        d.regBit 17 R.PWR_ERR 2 = true ∧ (d.reg 19 R.PWR_ALERTCNT).toNat = ((dev.reg 19 R.PWR_ALERTCNT).toNat + 1) % 2 ^ 32 ∧
          ∀ x : Fin 8, d.fld 19 (fReg F.PWR_REGSTAT0.status x.val) =
            if dev.bit 19 (fReg F.PWR_REG0.en x.val) then st[x.val].toNat else dev.fld 19 (fReg F.PWR_REGSTAT0.status x.val)) ∧
      (∀ (a : Fin 128) (c : Byte) (x y : Fin 8), PageOpen dev 19 → dev.bit 19 F.PWR_PMBSTAT.busy = false →
          dev.bit 19 F.PWR_PMBCTL.en = true → x.val ≤ 4 → y.val ≤ 4 → Completes (.pmbusTransaction a c x y) s fun d =>
        d.bit 19 F.PWR_PMBSTAT.busy = true ∧ d.pow.pmb = some (a.val, c.toNat, x.val, y.val) ∧
          OnlyRegs s 19 [F.PWR_PMBSTAT.busy.off] d) ∧
      (∀ (r : Fin 6) data z, dev.pow.pmb = some z → Completes (.pmbusDone r data) s fun d =>
        d.bit 19 F.PWR_PMBSTAT.busy = false ∧ d.fld 19 F.PWR_PMBSTAT.result = r.val ∧ d.pow.pmb = none ∧
          d.reg 19 R.PWR_PMBDATA = if r = 0 then putLow z.2.2.2 data (dev.reg 19 R.PWR_PMBDATA) else dev.reg 19 R.PWR_PMBDATA) ∧
      (∀ (i : Fin 9) (mv : BitVec 16), Completes (.railExcursion i mv) s fun d =>
        d.regBit 20 R.PWR_RAILSTAT i.val = true ∧ d.fld 20 (F.PWR_RAIL0.live.at i.val) = mv.toNat ∧
          (d.reg 20 R.PWR_RAILFLTCNT).toNat = ((dev.reg 20 R.PWR_RAILFLTCNT).toNat + 1) % 2 ^ 32 ∧ d.mem = dev.mem) ∧
      (∀ x : Vector (BitVec 16 × BitVec 32) 8, Completes (.energySample x) s fun d =>
        ∀ i : Fin 8,
          let nj := dev.pow.rest[i.val] + x[i.val].1.toNat * x[i.val].2.toNat
          d.pow.rest[i.val] = nj % 1000000 ∧ d.reg64 22 (R.PWR_ENERGY0_LO + 2 * i.val) =
            (dev.reg64 22 (R.PWR_ENERGY0_LO + 2 * i.val) + nj / 1000000) % 2 ^ 64) ∧
      (∀ t : Vector Byte 5, Completes (.junctionTemperatureWarning t) s fun d =>
        (d.reg 20 R.PWR_TJ0).toNat = Word.natOfBytes (t.toList.take 4) ∧
          (∀ i : Fin 5, t[i.val].toNat ≤ (d.reg 20 R.PWR_TJMAX).toNat) ∧
          (dev.reg 20 R.PWR_TJMAX).toNat ≤ (d.reg 20 R.PWR_TJMAX).toNat ∧ d.mem = dev.mem))

/-- From R389 to R392, R394, R396 to R398, R401: domains are asked on and ramp; a region is asked for a power state, naps, and is
rebuilt; P3 is asked for, reached and left; the device record is saved. That a save ends as PWR_SAVESTAT 1 is the model's reading. -/
def Obligations.PowerStates : Prop :=
  ∀ (s : State) (r : RegionId), s.Inv →
    let dev := s.dev
    (s.Up → dev.inReset 17 = false →
      (∀ (k : Fin 15) (v : BitVec 15), PageOpen dev 18 →
          (∀ i : Fin 15, (v.getLsbD i.val == dev.regBit 18 R.PWR_DOMCTL i.val) = (i ≠ k)) →
          dev.domRefusal (64 + k.val) (v.getLsbD k.val) = 0 →
        (v.getLsbD k.val = true → dev.pow.ramping = [] → Completes (.domainControl v) s fun d =>
          d.domBusy (64 + k.val) = true ∧ d.pow.ramping = [64 + k.val] ∧ d.regBit 18 R.PWR_DOMCTL k.val = true) ∧
        (v.getLsbD k.val = false → Completes (.domainControl v) s fun d =>
          d.domBusy (64 + k.val) = true ∧ 64 + k.val ∈ d.inn.closing ∧ d.regBit 18 R.PWR_DOMCTL k.val = false)) ∧
      (∀ (k : Fin 79) us, dev.pow.ramping = [k.val] → dev.pow.waiting = [] → Completes (.domainRampDone k us) s fun d =>
        d.domOn k.val = true ∧ d.domBusy k.val = false ∧ d.pow.ramping = []) ∧
      (PageOpen dev 18 →
        (dev.rgnP r.val = 0 → dev.rgnRefusal r 1 = 0 → Completes (.regionPowerRequest r 1) s fun d =>
          d.rgnMoving r.val = true ∧ (d.rg r).powGoal = some 1 ∧ d.mem = dev.mem) ∧
        (∀ st : Fin 4, st.val < 3 → dev.rgnRefusal r st.val ≠ 0 → Completes (.regionPowerRequest r st) s fun d =>
          d.rgnP r.val = dev.rgnP r.val ∧ d.fld 17 F.PWR_REFUSE.cause = dev.rgnRefusal r st.val ∧
            d.regBit 17 R.PWR_ERR 3 = true ∧ d.mem = dev.mem)) ∧
      ((dev.rg r).powGoal = some 1 → dev.rgnP r.val = 0 → dev.quietRegion r = true → dev.inn.stopAt = none → Completes (.napEntry r) s fun d =>
        d.rgnP r.val = 1 ∧ d.rgnMoving r.val = false ∧ (d.rg r).powGoal = none ∧ (∀ e ∈ rgnEngines r, d.engState e = esOff) ∧
          d.mem = dev.mem) ∧
      (∀ slot, PageOpen dev 17 → (dev.rg r).rebuild = true → dev.rgnP r.val = 0 → dev.rgnMoving r.val = false →
        (dev.slot r slot = slResident → Completes (.rebuild r slot) s fun d =>
          d.slot r slot = slActive ∧ d.active r = slot ∧ (d.rg r).loadReset = false ∧ (d.rg r).rebuild = false ∧ d.mem = dev.mem) ∧
        (dev.slot r slot ≠ slResident → Completes (.rebuild r slot) s fun d =>
          (d.rg r).rebuild = true ∧ d.regBit 17 R.PWR_ERR 4 = true ∧ d.mem = dev.mem)) ∧
      (PageOpen dev 17 → dev.p3Refusal = 0 →
        Completes (.p3Request false) s (fun d =>
          d.pow.p3 = true ∧ d.bit 0 F.DEV_STAT.ready = false ∧ d.forbid = true ∧ d.inn.quiet = true ∧ ∀ x : RegionId, d.rgnP x.val = 2) ∧
        Completes (.p3Request true) s (fun d =>
          d.pow.p3 = true ∧ d.bit 0 F.DEV_STAT.ready = false ∧ d.forbid = true ∧
            d.inn.stopAt = some (dev.now + 1000 * dev.fld 17 F.PWR_SUPCTL.stop_lead))) ∧
      (dev.pow.p3 = true → dev.bit 17 F.PWR_DEVCTL.p3_stop = false → Completes .p3Reached s fun d =>
        d.inn.phase = .p3 ∧ d.fld 17 F.PWR_DEVSTAT.state = 3 ∧ (∀ k : Fin 79, d.domOn k.val = false) ∧ (∀ e g, d.g e g = 0) ∧
          (d.reg 17 R.PWR_P3CNT).toNat = ((dev.reg 17 R.PWR_P3CNT).toNat + 1) % 2 ^ 32) ∧
      (dev.pow.saving.isSome = true → Completes .recordSaveDone s fun d =>
        d.pow.saving = none ∧ d.reg 21 R.PWR_SAVESTAT = 1 ∧ d.gpr = dev.gpr ∧ ∀ x, x < thermosBase → d.byte x = dev.byte x)) ∧
    (∀ k, dev.inn.phase = .p3 → dev.wakeSource = some k → k < 8 → Completes .wake s fun d =>
      d.inn.phase = .seq ∧ d.fld 17 F.PWR_WAKESRC.src = k ∧ d.pow.waking = true ∧ d.inn.wakeDue = none ∧ d.mem = dev.mem)

/-- From R26, R27, R402, R404, R405: samples refresh the values; SUPPLY_WARN forbids fetches and schedules the stop switch; its
clearing, the release of the forbid, the enabling of sampling. -/
def Obligations.SentinelWarns : Prop :=
  ∀ (s : State), s.Inv → s.Up →
    let dev := s.dev
    let en := dev.bit 23 F.SEN_CTL.en
    let rms (v ix : Vector (BitVec 32) 3) (d : Device) : Prop :=
      ∀ k : Fin 3, d.reg 23 (R.SEN_RMS0 + k.val) = v[k.val] ∧ d.reg 23 (R.SEN_RMS3 + k.val) = ix[k.val]
    let warned (d : Device) : Prop :=
      d.bit 23 F.SEN_STAT.warn = true ∧ d.forbid = true ∧
        d.inn.stopAt = some (dev.now + 1000 * dev.fld 17 F.PWR_SUPCTL.stop_lead) ∧
        (d.reg 17 R.PWR_WARNCNT).toNat = ((dev.reg 17 R.PWR_WARNCNT).toNat + 1) % 2 ^ 32
    (en = true →
      (∀ v ix (f : BitVec 17), 45000 ≤ f.toNat → f.toNat ≤ 65000 → Completes (.halfCycleRms v ix f) s fun d =>
        rms v ix d ∧ (d.reg 23 R.SEN_FREQ).toNat = f.toNat ∧ d.bit 23 F.SEN_STAT.freq_valid = true ∧ d.mem = dev.mem) ∧
      (∀ v ix, Completes (.fixedWindowRms v ix) s fun d =>
        rms v ix d ∧ d.bit 23 F.SEN_STAT.freq_valid = false ∧ d.mem = dev.mem) ∧
      (∀ dc slope, Completes (.holdupFit dc slope) s fun d =>
        (d.reg 23 R.SEN_RMS6).toNat = dc.toNat ∧
          (d.reg 23 R.SEN_HOLDUP).toNat = holdup dc.toNat (dev.fld 23 F.SEN_DCCFG.dc_min) slope ∧ d.mem = dev.mem)) ∧
    (dev.senTested = false → dev.bit 23 F.SEN_STAT.warn = false →
      (dev.triggered = true → Completes .supplyWarn s warned) ∧
      (en = true → dev.intLong = true → dev.trigOn 0 = true → Completes .interruptionTimeout s warned)) ∧
    (dev.bit 23 F.SEN_STAT.warn = true → en = true → dev.triggered = false →
        dev.inn.sen.trigAt + 10000000 * dev.fld 23 F.SEN_WARNCFG.clear_time ≤ dev.now → Completes .warningClear s fun d =>
      d.bit 23 F.SEN_STAT.warn = false ∧ (∀ r, d.bit (rgnPg r) F.RGN_HOLD.stop_hold = false) ∧ d.forbid = dev.forbid ∧
        d.mem = dev.mem) ∧
    (PageOpen dev 17 →
      (dev.bit 23 F.SEN_STAT.warn = false → dev.pow.p3 = false → Completes .forbidRelease s fun d =>
        d.forbid = false ∧ d.inn = dev.inn ∧ d.mem = dev.mem) ∧
      (dev.bit 23 F.SEN_STAT.warn = true → Completes .forbidRelease s fun d => d.regs = dev.regs ∧ d.mem = dev.mem)) ∧
    (PageOpen dev 23 →
      (en = false → Completes (.sentinelEnable true) s fun d =>
        d.bit 23 F.SEN_CTL.en = true ∧ d.inn.sen.trigAt = dev.now ∧ OnlyRegs s 23 [F.SEN_CTL.en.off] d) ∧
      (en = true → Completes (.sentinelEnable false) s fun d =>
        d.bit 23 F.SEN_CTL.en = false ∧ (∀ k, k < 7 → d.evActive k = false) ∧ d.inn.sen.phases = [] ∧ d.mem = dev.mem))

/-- From R410 to R412, R419 to R421: POR release; steps of start-up and a stop for want of REFCLK; READY; RESET_N; the loss of every
clock. -/
def Obligations.StartUpSteps : Prop :=
  ∀ (s : State), s.Inv →
    let dev := s.dev
    let oscf := dev.bit 15 F.CLK_OSCF.ready
    let held (d : Device) (ph : Phase) : Prop :=
      d.inn.phase = ph ∧ d.bit 0 F.DEV_STAT.ready = false ∧ (∀ e g, d.g e g = 0) ∧ (∀ x, aonMem false x = true → d.byte x = dev.byte x) ∧
        ∀ x, aonMem false x = false → d.byte x = memDflt x
    (∀ a b c, dev.inn.phase = .por → oscf = true → Completes (.porRelease a b c) s fun d =>
      d.inn.phase = .up ∧ d.inn.devtime = 0 ∧ d.bit 17 F.PWR_STRAPS.io_pull_sel = a ∧ d.bit 17 F.PWR_STRAPS.boot_noimg = b ∧
        d.bit 17 F.PWR_STRAPS.pcie_en = c ∧ d.mem = dev.mem) ∧
    (s.Up →
      (dev.step = 2 →
        (dev.bit 13 F.CLK_PLL.lock = true → Completes (.startupStepDone (.pll true)) s fun d =>
          d.step = 3 ∧ d.onOscf 0 = false ∧ d.mem = dev.mem) ∧
        Completes (.startupStepDone (.pll false)) s (fun d =>
          d.step = 15 ∧ d.bit 0 F.DEV_STAT.fault = true ∧ d.fld 0 F.DEV_BOOTERR.cause = 3 ∧ d.inn.bootStop = true ∧
            d.inn.stw.refStop = true)) ∧
      (dev.step = 5 → (∀ v : VaultId, (dev.vlt v).filling = false) → Completes (.startupStepDone .filled) s fun d => d.step = 6) ∧
      (∀ ms, dev.step = 7 → dev.inn.boot7.1 = false → dev.ldr.src = none → Completes (.startupStepDone (.image ms)) s fun d =>
        d.inn.boot7 = (true, dev.inn.boot7.2) ∧ d.fld 0 F.DEV_BOOTIMG.ms = ms.toNat ∧ d.mem = dev.mem) ∧
      (dev.inn.stw.refStop = true → Completes .refclkArrival s fun d =>
        d.step = 2 ∧ d.bit 0 F.DEV_STAT.fault = false ∧ d.inn.bootStop = false ∧ d.inn.pllOn = true ∧ d.mem = dev.mem) ∧
      (dev.step = 7 → dev.inn.boot7 = (true, true) → dev.onOscf 0 = false → Completes .ready s fun d =>
        d.step = 8 ∧ d.bit 0 F.DEV_STAT.ready = true ∧ d.bit 17 F.PWR_DEVSTAT.ready = true ∧ d.gpr = dev.gpr) ∧
      (dev.bit 17 F.PWR_SEQFAULT.valid = false → Completes .resetN s fun d =>
        held d .por ∧ d.fld 17 F.PWR_RESETCAUSE.cause = 2 ∧ d.pow.p3 = false ∧ d.inn.cmds = []) ∧
      (oscf = false → dev.inn.clkStopped ≠ 0 → Completes .fatalClock s fun d =>
        held d .fault ∧ d.bit 13 F.CLK_FATAL.valid = true ∧ d.bit 0 F.DEV_STAT.fault = true))

/-- From R426, R427, R432 to R440, R445, R446, R469: a transition; tokens, their check and the session; nonce and snapshots of slots;
extends; reports; a minimum that rises; the device watchdog; the scrub stores. -/
def Obligations.StewardAuthority : Prop :=
  ∀ (s : State), s.Inv → s.Up →
    let dev := s.dev
    let w := dev.stw
    let b := tokenBytes w.tok
    let same (d : Device) : Prop := d.regs = dev.regs ∧ d.mem = dev.mem ∧ d.gpr = dev.gpr
    (PageOpen dev 1 →
      (∀ t : Fin 4, ¬ (dev.lcs = 0 ∧ (t.val = 1 ∨ t.val = 3)) → Completes (.lcRequest t []) s fun d =>
        d.fld 1 F.STW_LCRESULT.result = 9 ∧ d.fld 1 F.STW_LCREQ.target = t.val ∧ d.inn = dev.inn ∧
          OnlyRegs s 1 [R.STW_LCREQ, F.STW_LCRESULT.result.off] d) ∧
      (dev.lcs = 0 → Completes (.lcRequest 3 []) s fun d =>
        d.lcs = 3 ∧ d.stw.secretGone = true ∧ d.fld 17 F.PWR_RESETCAUSE.cause = 2 ∧ d.bit 0 F.DEV_STAT.ready = false ∧ ¬ d.inn.phase = .up) ∧
      (w.rollStw < dev.fld 1 F.STW_STAT.sec_version → Completes (.rollbackCommit 0) s fun d =>
        d.stw.rollStw = dev.fld 1 F.STW_STAT.sec_version ∧ (d.reg 1 R.STW_ROLLSTW).toNat = d.stw.rollStw ∧ d.stw.rollMin = w.rollMin ∧
          d.mem = dev.mem) ∧
      (∀ (k : Fin 16) (i : Fin 8) (v : Nat), k.val = i.val + 2 → w.lastVer[i.val] = some v → w.rollMin[i.val] < v → v < 65536 →
        Completes (.rollbackCommit k) s fun d =>
          d.stw.rollMin = w.rollMin.set i.val v ∧ (d.reg 1 (R.STW_ROLLMIN2 + i.val)).toNat = v ∧ d.stw.rollStw = w.rollStw ∧
            d.mem = dev.mem) ∧
      Completes (.stwWdtKick 0x9C3E) s (fun d =>
        (d.reg 1 R.STW_WDTCNT).toNat = dev.fld 1 F.STW_WDT.period ∧ d.stw = { w with preBitten := false } ∧ d.mem = dev.mem ∧
          OnlyRegs s 1 [R.STW_WDTCNT] d) ∧
      (∀ key, key ≠ 0x9C3E → Completes (.stwWdtKick key) s fun d => same d ∧ d.inn = dev.inn)) ∧
    (dev.bit 1 F.STW_WDT.en = true → dev.stwWdtPaused = false →
      (w.preBitten = false → (dev.reg 1 R.STW_WDTCNT).toNat ≤ dev.fld 1 F.STW_WDT.period / 8 → Completes .preBite s fun d =>
        d.reg 1 R.STW_WDTCNT = dev.reg 1 R.STW_WDTCNT ∧ d.stw.preBitten = true ∧
          d.fld 1 F.STW_WDTCAUSE.prebites = (dev.fld 1 F.STW_WDTCAUSE.prebites + 1) % 65536 ∧ d.mem = dev.mem) ∧
      (dev.reg 1 R.STW_WDTCNT = 0 → Completes .watchdogBite s fun d =>
        ¬ d.inn.phase = .up ∧ d.bit 1 F.STW_WDTCAUSE.bitten = true ∧ d.fld 17 F.PWR_RESETCAUSE.cause = 2 ∧
          d.bit 0 F.DEV_STAT.ready = false ∧ ∀ e g, d.g e g = 0)) ∧
    (PageOpen dev 2 →
      (∀ x, Completes (.tokenData x) s fun d =>
        same d ∧ d.stw.tok = if w.checking = true ∨ 1024 ≤ w.tok.length then w.tok else w.tok ++ [x]) ∧
      Completes .tokenSubmit s (fun d => same d ∧ d.stw = { w with checking := true }) ∧
      (w.checking = false → Completes .tokenFlush s fun d => same d ∧ d.stw = { w with tok := [] }) ∧
      Completes .sessionEnd s (fun d => d.inn.session = none ∧ d.stw = w ∧ d.mem = dev.mem ∧ d.gpr = dev.gpr) ∧
      Completes .newNonce s (fun d =>
        d.stw.nonce = (List.range 32).map (Config.freeByte dev.inn.free) ∧
          (d.reg 3 R.STW_RNGCNT).toNat = ((dev.reg 3 R.STW_RNGCNT).toNat + 8) % 2 ^ 32 ∧ OnlyRegs s 3 [R.STW_RNGCNT] d) ∧
      (∀ i : Fin 16, Completes (.measselWrite i) s fun d =>
        (∀ k, k < 8 → (d.reg 2 (R.STW_MEAS0 + k)).toNat = numAt w.slots[i.val] (4 * k) 4 % 2 ^ 32) ∧
          d.fld 2 F.STW_MEASSTAT.slot = i.val ∧ d.fld 2 F.STW_MEASSTAT.seq = w.seqs[i.val] % 256 ∧
          d.bit 2 F.STW_MEASSTAT.valid = (w.seqs[i.val] != 0) ∧ d.inn = dev.inn ∧ d.mem = dev.mem) ∧
      (∀ k : Fin 16, k.val < 12 → Completes (.extend k []) s fun d =>
        d.bit 2 F.STW_EXTCTL.refused = true ∧ d.stw = w ∧ OnlyRegs s 2 [F.STW_EXTCTL.refused.off] d) ∧
      (∀ k : Fin 16, 12 ≤ k.val → dev.reg64 2 R.STW_EXTADDR_LO + 32 ≤ 2 ^ 32 → PlainTier dev →
        TierOpen dev false (dev.reg64 2 R.STW_EXTADDR_LO) 32 → Completes (.extend k []) s fun d =>
          d.stw.slots = w.slots.set k.val (Config.sha3 (w.slots[k.val] ++ dev.bytes (dev.reg64 2 R.STW_EXTADDR_LO) 32)) ∧
            d.stw.seqs = w.seqs.set k.val (w.seqs[k.val] + 1) ∧ d.mem = dev.mem) ∧
      (∀ p n, (w.att.isSome = true → Completes (.attestRequest (.remote p) n []) s fun d =>
          d.fld 2 F.STW_ATTSTAT.cause = 1 ∧ d.stw = w ∧ d.mem = dev.mem) ∧
        (w.att = none → dev.lcs ≠ 3 → PlainTier dev →
          dev.attBuffer (dev.reg64 2 R.STW_ATTADDR_LO) dev.reportLen = true → TierOpen dev false (dev.reg64 2 R.STW_ATTADDR_LO) 32 →
          Completes (.attestRequest (.remote p) n []) s fun d =>
            (∃ x, d.stw.att = some x ∧ x.addr = dev.reg64 2 R.STW_ATTADDR_LO) ∧ d.bit 2 F.STW_ATTSTAT.valid = false ∧
              d.fld 2 F.STW_ATTSTAT.cause = 0 ∧ d.mem = dev.mem))) ∧
    (w.checking = true → Completes .tokenChecked s fun d =>
      d.stw.tok = [] ∧ d.stw.checking = false ∧
        (dev.tokenResult b ≠ 1 → d.fld 2 F.STW_TOKSTAT.result = dev.tokenResult b % 16 ∧ d.inn.session = dev.inn.session) ∧
        (dev.tokenResult b = 1 →
          (numAt b 4 1 = 1 → d.inn.session = some (numAt b 5 1, dev.inn.mono + numAt b 6 2 * stwSecond) ∧
            d.fld 2 F.STW_TOKSTAT.result = 1 ∧ d.stw.slots[11] = Config.sha3 (w.slots[11] ++ Config.sha3 b)) ∧
          (numAt b 4 1 ≠ 1 → d.stw.fuseLcs = numAt b 5 1 ∧ ¬ d.inn.phase = .up))) ∧
    (∀ x, dev.inn.session = some x → x.2 ≤ dev.inn.mono → Completes .sessionExpiry s fun d =>
      d.inn.session = none ∧ d.dbgLevel = lcsLevel dev.lcs ∧ d.mem = dev.mem) ∧
    (∀ x, w.att = some x → x.who ≠ 0x100 →
      let bs := x.report ++ (if numAt x.report 6 1 ≠ 0 then fitBytes 2420 (Config.sigSign x.report) else [])
      PlainTier dev → dev.inReset 2 = false → TierOpen dev true x.addr bs.length → Completes (.attestDone []) s fun d =>
        Stored s x.addr bs d ∧ d.stw.att = none ∧ d.bit 2 F.STW_ATTSTAT.valid = true ∧
          d.fld 2 F.STW_ATTSTAT.seq = (dev.fld 2 F.STW_ATTSTAT.seq + 1) % 256) ∧
    (dev.bit 1 F.STW_SCRUBSTAT.dead = false →
      (dev.bit 1 F.STW_SCRUBSTAT.stopped = false →
        (∀ n so, (n = true ∨ so = true) → Completes (.scrubStoreCheck n so) s fun d =>
          d.fld 1 F.STW_SCRUBSTAT.passes = (dev.fld 1 F.STW_SCRUBSTAT.passes + 1) % 65536 ∧ d.bit 1 F.STW_SCRUBSTAT.stopped = false ∧
            (¬ (n = true ∧ so = true) → d.fld 1 F.STW_SCRUBLOG.last = (if n = true then 2 else 1) ∧
              d.fld 1 F.STW_SCRUBLOG.events = (dev.fld 1 F.STW_SCRUBLOG.events + 1) % 65536) ∧ d.mem = dev.mem) ∧
        Completes (.scrubStoreCheck false false) s (fun d =>
          d.bit 1 F.STW_SCRUBSTAT.stopped = true ∧ d.bit 1 F.STW_SCRUBSTAT.north = false ∧ d.bit 1 F.STW_SCRUBSTAT.south = false ∧
            d.mem = dev.mem)) ∧
      (dev.bit 1 F.STW_SCRUBSTAT.stopped = true →
        Completes (.scrubReloadDone true) s (fun d =>
          d.bit 1 F.STW_SCRUBSTAT.stopped = false ∧ d.bit 1 F.STW_SCRUBSTAT.north = true ∧ d.bit 1 F.STW_SCRUBSTAT.south = true ∧
            d.fld 1 F.STW_SCRUBLOG.last = 3 ∧ d.mem = dev.mem) ∧
        Completes (.scrubReloadDone false) s (fun d =>
          d.bit 1 F.STW_SCRUBSTAT.dead = true ∧ d.bit 1 F.STW_SCRUBSTAT.stopped = true ∧ d.mem = dev.mem)))

/-- From R322, R431, R444: the sealing service: refused while another operation holds it; each operation; a secret is not released to
external memory; its end. -/
def Obligations.SealingService : Prop :=
  ∀ (s : State) (who : Who), s.Inv → s.Up →
    let dev := s.dev
    let w := dev.stw
    let n := dev.svcLen
    let ext := w.owner
    let started (op st out : Nat) (d : Device) : Prop :=
      d.stw.svc = some { who := who.id, op := op, status := st, out := out } ∧ d.bit 4 F.STW_SVCSTAT.busy = true ∧
        d.bit 4 F.STW_SVCSTAT.done = false ∧ d.fld 4 F.STW_SVCSTAT.init = who.id % 1024
    let blob := Config.sealBytes ext (Word.bytesOfNat 2 (dev.fld 4 F.STW_SVCMASK.mask) ++ dev.maskHash (dev.fld 4 F.STW_SVCMASK.mask) ++
      dev.bytes dev.svcSrc n)
    let label := (List.range 8).flatMap fun i => Word.bytes (dev.reg 4 (R.STW_SVCLABEL0 + i))
    let busy (d : Device) : Prop :=
      d.stw.svc = w.svc ∧ d.fld 4 F.STW_SVCLAST.status = 1 ∧
        (d.reg 4 R.STW_SVCBUSYCNT).toNat = ((dev.reg 4 R.STW_SVCBUSYCNT).toNat + 1) % 2 ^ 32 ∧ d.mem = dev.mem
    (PageOpen dev 4 →
      (w.svc.isSome = true →
        Completes (.seal who [] []) s busy ∧ Completes (.unseal who [] []) s busy ∧ Completes (.derive who []) s busy) ∧
      (w.svc = none →
        (dev.lcs = 0 ∨ dev.lcs = 3 →
          Completes (.seal who [] []) s (fun d => started 1 5 0 d ∧ d.mem = dev.mem) ∧
          Completes (.unseal who [] []) s (fun d => started 2 5 0 d ∧ d.mem = dev.mem) ∧
          Completes (.derive who []) s (fun d => started 3 5 0 d ∧ d.mem = dev.mem)) ∧
        (dev.lcs = 1 ∨ dev.lcs = 2 →
          (dev.secretRefused = true →
            Completes (.unseal who [] []) s (fun d => started 2 2 0 d ∧ d.mem = dev.mem) ∧
            Completes (.derive who []) s (fun d => started 3 2 0 d ∧ d.mem = dev.mem)) ∧
          (PlainTier dev →
            (1 ≤ n → n ≤ 4096 → TierOpen dev false dev.svcSrc n → TierOpen dev true dev.svcDst (n + 112) →
              Completes (.seal who [] []) s fun d => started 1 0 (n + 112) d ∧ Stored s dev.svcDst (fitBytes (n + 112) blob) d) ∧
            (TierOpen dev true dev.svcDst 32 → Completes (.derive who []) s fun d =>
              started 3 0 32 d ∧ Stored s dev.svcDst (fitBytes 32 (Config.deriveBytes (ext ++ label))) d) ∧
            (113 ≤ n → n ≤ 4208 → TierOpen dev false dev.svcSrc n → TierOpen dev true dev.svcDst (n - 112) →
              Completes (.unseal who [] []) s fun d =>
                match Config.unsealBytes ext (dev.bytes dev.svcSrc n) with
                | none => started 2 3 0 d ∧ d.mem = dev.mem
                | some p =>
                  if slice p 2 32 = dev.maskHash (numAt p 0 2) then
                    started 2 0 (n - 112) d ∧ Stored s dev.svcDst (fitBytes (n - 112) (p.drop 34)) d
                  else started 2 4 0 d ∧ d.mem = dev.mem) ∧
            (1 ≤ n → n ≤ 0x200000 → TierOpen dev false dev.svcSrc n →
              Completes (.stewardSlotUpdate who []) s fun d =>
                let to' := 1 - dev.fld 0 F.DEV_BOOTSLOT.slot
                match Config.stewardSlot (cellsOf (dev.bytes dev.svcSrc n)) with
                | none => started 4 7 0 d ∧ d.mem = dev.mem
                | some (v, _) =>
                  if v < w.rollStw then started 4 7 0 d ∧ d.mem = dev.mem
                  else started 4 0 n d ∧ d.stw.trial = some to' ∧
                    Stored s (stewardBase to') (dev.bytes dev.svcSrc n ++ List.replicate (0x200000 - n) 0xFF) d))))) ∧
    (∀ x us, w.svc = some x → dev.inReset 4 = false → Completes (.serviceDone us) s fun d =>
      d.stw.svc = none ∧ d.bit 4 F.STW_SVCSTAT.busy = false ∧ d.bit 4 F.STW_SVCSTAT.done = true ∧
        d.fld 4 F.STW_SVCSTAT.status = x.status % 16 ∧ (d.reg 4 R.STW_SVCOUT).toNat = x.out % 2 ^ 32 ∧ d.reg 4 R.STW_SVCTIME = us ∧
        (d.reg 4 R.STW_SVCSEQ).toNat = ((dev.reg 4 R.STW_SVCSEQ).toNat + 1) % 2 ^ 32 ∧ d.mem = dev.mem)

/-- From R449 to R455, R457: frames and their answers; resync and cancel; reads and writes of DK_DATA under the hold, during an access,
and at rest; the end of an access that the level refuses, that reads a word of the memory tier, that writes one; the hold's clearing; a
wake. -/
def Obligations.DebugPort : Prop :=
  ∀ (s : State), s.Inv → s.dev.inn.phase ∈ [.up, .p3, .fault] →
    let dev := s.dev
    let k := dev.inn.dk
    let out := dev.inn.out
    let plain (d : Device) : Prop := d.regs = dev.regs ∧ d.mem = dev.mem ∧ d.gpr = dev.gpr
    let cancelled : Dk := { k with access := k.access.map fun a => { a with dropped := true }, result := none }
    let busy (o : Nat) (d : Device) : Prop := plain d ∧ d.inn.out = .debug [5] :: out ∧ d.inn.dk.busy = min (o + 1) 255
    (∀ h w crc, headerOk h = false → Completes (.debugFrame h w crc) s fun d => d = dev) ∧
    (∀ h w crc, headerOk h = true →
      (h.getLsbD 4 = false → h.toNat / 32 % 8 ≠ 5 → Completes (.debugFrame h w crc) s fun d => plain d ∧
        d.inn = { dev.inn with out := .debug [3, (dev.dkReg (h.toNat / 32 % 8)).toNat, crc8 (dev.dkReg (h.toNat / 32 % 8))] :: out }) ∧
      (h.getLsbD 4 = true → crc.toNat ≠ crc8 w → Completes (.debugFrame h w crc) s fun d => plain d ∧
        d.inn = { dev.inn with dk := { k with wcrc := true, hold := true }, out := .debug [9] :: out })) ∧
    Completes .resync s (fun d => plain d ∧ d.inn = { dev.inn with dk := cancelled }) ∧
    Completes .dkCancel s (fun d => plain d ∧ d.inn = { dev.inn with dk := cancelled, out := .debug [3] :: out }) ∧
    Completes .errorHoldClear s (fun d => plain d ∧ d.inn = { dev.inn with
      dk := { k with hold := false, wcrc := false, busErr := false, poison := false, denied := false, timeout := false }
      out := .debug [3] :: out }) ∧
    (k.hold = true → ∀ w, Completes .dkDataRead s (fun d => plain d ∧ d.inn = { dev.inn with out := .debug [9] :: out }) ∧
      Completes (.dkDataWrite w) s fun d => plain d ∧ d.inn = { dev.inn with out := .debug [9] :: out }) ∧
    (k.hold = false →
      (k.access.isSome = true → ∀ w,
        Completes .dkDataRead s (fun d => busy k.busy d ∧ d.inn.dk.access = k.access ∧ d.inn.net = dev.inn.net) ∧
        Completes (.dkDataWrite w) s (fun d => busy k.busy d ∧ d.inn.dk.access = k.access ∧ d.inn.net = dev.inn.net)) ∧
      (k.access = none →
        (∀ w, k.result = some w → Completes .dkDataRead s fun d => plain d ∧
          d.inn = { dev.inn with dk := { k with result := none, last := w }, out := .debug [3, w.toNat, crc8 w] :: out }) ∧
        (k.result = none → Completes .dkDataRead s fun d => busy 0 d ∧ d.inn.dk.access = some { hi := k.hi, lo := k.lo, write := none }) ∧
        (∀ w, Completes (.dkDataWrite w) s fun d => plain d ∧ d.inn.out = .debug [3] :: out ∧
          d.inn.dk.access = some { hi := k.hi, lo := k.lo, write := some w } ∧ d.inn.dk.result = none))) ∧
    (dev.inn.phase = .p3 → Completes .debugWake s fun d => plain d ∧ d.inn.out = .debug [3] :: out ∧
      d.inn.wakeDue = if dev.regBit 17 R.PWR_WAKE 3 = true then some 3 else dev.inn.wakeDue) ∧
    (∀ x fs, k.access = some x → dev.dkGlobal x.hi = false →
      let a := (x.hi % 65536) * 2 ^ 32 + x.lo
      (dev.debugReach a = false → Completes (.debugAccessDone fs) s fun d =>
        d.inn.dk = { k with access := none, result := none, hold := true, denied := true } ∧ d.bit 5 F.DBG_STAT.denied = true ∧
          OnlyRegs s 5 [F.DBG_STAT.denied.off] d) ∧
      (dev.inn.phase = .up → 2 ≤ dev.dbgLevel → x.hi % 65536 = 0 → x.lo % 4 = 0 → a < 2 ^ 32 → PlainTier dev →
        (x.write = none → x.dropped = false → dev.memWaits false a = false → dev.memGate 6 0x102 false a = .ok →
          Completes (.debugAccessDone []) s fun d => d.inn.dk.access = none ∧ d.inn.dk.hold = k.hold ∧
            d.inn.dk.result = some (BitVec.ofNat 32 (dev.num a 4)) ∧ d.inn.dk.lo = (if k.inc = true then (k.lo + 4) % 2 ^ 32 else k.lo) ∧
            d.mem = dev.mem) ∧
        (∀ w, x.write = some w → dev.memWaits true a = false → dev.memGate 6 0x102 true a = .ok →
          Completes (.debugAccessDone []) s fun d => d.inn.dk.access = none ∧ d.inn.dk.hold = k.hold ∧ d.inn.dk.result = none ∧
            Stored s a w.bytes d)))

/-- From R458, R459, R461, R462: halt, resume and one step of an engine; its registers while it is in MONITOR; a live interrupt. R465 to
R468: halts of regions, snapshots and the virtual terminal. -/
def Obligations.DebugControl : Prop :=
  ∀ (s : State), s.Inv → s.Up →
    let dev := s.dev
    let mem (d : Device) : Prop := d.mem = dev.mem ∧ d.gpr = dev.gpr
    (1 ≤ dev.dbgLevel →
      (∀ e, dev.engState e = esRunning → dev.rgnP (engRgn e) = 0 → Completes (.engineHalt e) s fun d =>
        d.engState e = esMonitor ∧ (d.en e).haltCause = 1 ∧ (d.en e).pc = (dev.en e).pc ∧ d.fld 5 F.DBG_ENGSEL.engine = e.val ∧
          (∀ x ∈ d.inn.resv, x.1 ≠ e.val) ∧ mem d) ∧
      (∀ e, dev.engState e ≠ esRunning → Completes (.engineHalt e) s fun d => d.inn = dev.inn ∧ OnlyRegs s 5 [R.DBG_ENGSEL] d) ∧
      (∀ e, dev.engState e = esMonitor → dev.rgnP (engRgn e) = 0 →
        Completes (.engineResume e) s (fun d =>
          d.engState e = esRunning ∧ (d.en e).pc = (dev.en e).pc ∧
            (d.reg (engPg e) R.ENG_WDTCNT).toNat = max (dev.reg (engPg e) R.ENG_WDTCNT).toNat 4096 ∧ mem d) ∧
        (∀ i, (dev.en e).liveRuns = false → dev.liveLine e = some i → Completes (.liveInterrupt e) s fun d =>
          Trapped s e (16 + i) 0 0 d ∧ (d.en e).liveRuns = true ∧ (d.en e).haltAt = (dev.en e).pc ∧ d.engState e = esMonitor) ∧
        (∀ rd v, let n := dev.en e
          n.liveRuns = false → n.storeErr = none → n.nmi = false → esIe.get n.estat = 0 → n.pc.toNat < 0x10000 →
          (0, n.pc.toNat / 4) ∉ n.tcmBad →
          decodeKE32 (BitVec.ofNat 32 (dev.num (tcmKey e n.pc.toNat) 4)) = some (.lui rd v) →
          Completes (.engineStep e {} {}) s fun d =>
            d.engState e = esMonitor ∧ (d.en e).haltCause = 2 ∧ (d.en e).pc = n.pc + 4 ∧
              d.g e rd = (if rd = 0 then 0 else ((v.setWidth 32 : Word) <<< (16 : Nat) : Word)) ∧ d.mem = dev.mem)) ∧
      (let e := dev.selEngine
       let n := dev.fld 5 F.DBG_ENGSEL.num
       (dev.engregOpen = true → dev.fld 5 F.DBG_ENGSEL.class = 0 → n < 32 →
        (∀ w, Completes (.engregAccess (some w)) s fun d => d.g e (greg n) = (if greg n = 0 then 0 else w) ∧
          (∀ y q, y ≠ e ∨ q ≠ greg n → d.g y q = dev.g y q) ∧ d.regs = dev.regs ∧ d.inn = dev.inn ∧ d.mem = dev.mem) ∧
        Completes (.engregAccess none) s (fun d =>
          d.inn = { dev.inn with out := .debug [(dev.g e (greg n)).toNat] :: dev.inn.out } ∧ d.regs = dev.regs ∧ mem d)) ∧
       (dev.engregOpen = false →
        (∀ w, Completes (.engregAccess (some w)) s fun d =>
          d.bit 5 F.DBG_STAT.denied = true ∧ d.inn = dev.inn ∧ OnlyRegs s 5 [F.DBG_STAT.denied.off] d) ∧
        Completes (.engregAccess none) s (fun d => d.bit 5 F.DBG_STAT.denied = true ∧
          d.inn = { dev.inn with out := .debug [0] :: dev.inn.out } ∧ OnlyRegs s 5 [F.DBG_STAT.denied.off] d))) ∧
      (∀ r, Completes (.regionHalt r) s (fun d => (d.rg r).dbgHalt = true ∧ (∀ q, q ≠ r → d.rg q = dev.rg q) ∧ mem d) ∧
        Completes (.regionResume r) s (fun d => (d.rg r).dbgHalt = false ∧ (∀ q, q ≠ r → d.rg q = dev.rg q) ∧ mem d)) ∧
      (2 ≤ dev.dbgLevel → ∀ r b,
        let base := (dev.reg 5 R.DBG_SNAPADDR).toNat * 0x10000
        let no (c : Nat) : Prop := Completes (.snapshot r b) s fun d =>
          d.fld 5 F.DBG_SNAPCTL.result = c ∧ d.inn = dev.inn ∧ OnlyRegs s 5 [F.DBG_SNAPCTL.result.off] d
        (dev.inn.snap.isSome = true → no 6) ∧
        (dev.inn.snap = none → (dev.rg r).test = false →
          ((dev.rg r).confidential = true → no 2) ∧
          ((dev.rg r).confidential = false →
            (dev.rgnP r.val = 2 → no 3) ∧
            (dev.rgnP r.val ≠ 2 →
              (dev.snapPlace base (snapLen b) = false → no 4) ∧
              (dev.snapPlace base (snapLen b) = true → Completes (.snapshot r b) s fun d =>
                (d.rg r).dbgHalt = true ∧ d.bit 5 F.DBG_SNAPCTL.busy = true ∧ mem d ∧
                  d.inn.snap = some { region := r, bram := b, base := base, swcnt := dev.reg (rgnPg r) R.RGN_SWCNT, time := dev.now }))))) ∧
      (dev.bit 5 F.DBG_VTOUT.valid = true →
        Completes .vtOutConsume s (fun d => d.bit 5 F.DBG_VTOUT.valid = false ∧ mem d) ∧
        (∀ who b, who ≠ .debugger → Completes (.vtOutWrite who b) s fun d => d.bit 5 F.DBG_STAT.vt_overrun = true ∧
          d.reg 5 F.DBG_VTOUT.valid.off = dev.reg 5 F.DBG_VTOUT.valid.off ∧ d.inn = dev.inn ∧ mem d)) ∧
      (dev.bit 5 F.DBG_VTOUT.valid = false → ∀ who b, who ≠ .debugger → Completes (.vtOutWrite who b) s fun d =>
        d.bit 5 F.DBG_VTOUT.valid = true ∧ d.fld 5 F.DBG_VTOUT.byte = b.toNat ∧ d.fld 5 F.DBG_VTOUT.writer = who.id % 1024 ∧
          d.inn = dev.inn ∧ mem d) ∧
      (dev.bit 5 F.DBG_VTIN.valid = false → ∀ b, Completes (.vtInWrite b) s fun d =>
        d.bit 5 F.DBG_VTIN.valid = true ∧ d.fld 5 F.DBG_VTIN.byte = b.toNat ∧ mem d)) ∧
    (dev.dbgLevel = 0 → ∀ who b, Completes (.vtOutWrite who b) s fun d => d = dev) ∧
    (∀ who, who ≠ .debugger → Completes (.vtInRead who) s fun d => d.bit 5 F.DBG_VTIN.valid = false ∧
      d.inn = { dev.inn with out := .device 5 [who.id, (dev.reg 5 R.DBG_VTIN).toNat] :: dev.inn.out } ∧ mem d) ∧
    (∀ x, dev.inn.snap = some x →
      let torn := dev.reg (rgnPg x.region) R.RGN_SWCNT != x.swcnt
      let ended (res : Nat) (d : Device) : Prop :=
        d.inn.snap = none ∧ d.fld 5 F.DBG_SNAPCTL.result = res ∧ d.bit 5 F.DBG_SNAPCTL.busy = false ∧
          (d.rg x.region).dbgHalt = (dev.rg x.region).dbgHalt
      (PlainTier dev → x.base + snapLen x.bram ≤ 2 ^ 32 → Completes (.snapshotDone false) s fun d =>
        ended 1 d ∧ d.bit 5 F.DBG_SNAPCTL.torn = torn ∧ Stored s x.base (dev.snapRecord x) d) ∧
      Completes (.snapshotDone true) s (fun d => ended 5 d ∧ d.mem = dev.mem))

/-- From R183, R473, R475 to R478, R480, R481, R490: a test written to ST_CTL that no cause refuses runs in the lowest free slot, and
what it does to its target; one that is refused; the sweep's next slice; the quiet edge; the end of a pause; the end of a test. -/
def Sys2Proof.TestsRunRules : Prop :=
  ∀ (s : State), s.Inv → s.Up →
    let dev := s.dev
    let arg := dev.fld 6 F.ST_ARG.arg
    let runs (i : Fin 4) (code page : Nat) (d : Device) : Prop :=
      (∃ t, (d.inn.tests[i.val]).run = some t ∧ t.code = code ∧ t.page = page) ∧ (d.inn.tests[i.val]).result = resultWord true 0 0 code page ∧
        d.fld 6 F.ST_LASTTGT.page = page ∧ (d.reg 6 R.ST_RUNCNT).toNat = ((dev.reg 6 R.ST_RUNCNT).toNat + 1) % 2 ^ 32
    let go' (i : Fin 4) (code page : Nat) : Prop := dev.testRefusal code page = 0 ∧ dev.freeTest = some i
    (PageOpen dev 6 → ∀ i : Fin 4,
      (∀ v : VaultId, let p := vltPg v
        (go' i 1 p → Completes (.vaultSliceTest v) s fun d => runs i 1 p d ∧ d.bit p F.VLT_STAT.test_active = true ∧
          d.fld p F.VLT_STAT.test_bank = arg / 2 ^ 11 % 8 ∧ d.fld p F.VLT_STAT.test_row = arg % 2 ^ 11) ∧
        (go' i 2 p → Completes (.vaultSweep v false) s fun d => runs i 2 p d ∧ d.bit p F.VLT_STAT.test_active = true ∧
          d.fld p F.VLT_STAT.test_bank = 0 ∧ d.fld p F.VLT_STAT.test_row = 0) ∧
        (go' i 7 p → Completes (.wholeVaultTest v) s fun d => runs i 7 p d ∧ (d.vlt v).filling = true ∧ d.mem = dev.mem) ∧
        (dev.testRefusal 1 p ≠ 0 → dev.freeTest = some i → Completes (.vaultSliceTest v) s fun d =>
          d.inn.tests = dev.inn.tests.set i.val { result := resultWord false 2 (dev.testRefusal 1 p) 1 p } ∧ d.mem = dev.mem ∧
            (d.reg 6 R.ST_REFCNT).toNat = ((dev.reg 6 R.ST_REFCNT).toNat + 1) % 2 ^ 32)) ∧
      (∀ r, go' i 3 (rgnPg r) → Completes (.regionTest r) s fun d => runs i 3 (rgnPg r) d ∧ d.rg r = dev.rg r ∧ d.mem = dev.mem) ∧
      (∀ e, go' i 4 (engPg e) → Completes (.engineTest e) s fun d => runs i 4 (engPg e) d ∧ d.engState e = esTest ∧ d.mem = dev.mem) ∧
      (go' i 5 12 → Completes .thermosTest s fun d => runs i 5 12 d ∧ d.mem = dev.mem) ∧
      (∀ c, go' i 6 (extPg c) → Completes (.extMemoryTest c) s fun d => runs i 6 (extPg c) d ∧ d.bit (extPg c) F.EXT_TEST.test = true ∧
        d.extMode c = mBlanket) ∧
      (∀ l, go' i 8 (lnPg l) → Completes (.laneTest l) s fun d => runs i 8 (lnPg l) d ∧ d.underTest l = true ∧ d.mem = dev.mem) ∧
      (∀ b, go' i 0x20 (ioPg b) → Completes (.ioRecalibration b) s fun d => runs i 0x20 (ioPg b) d ∧ d.mem = dev.mem) ∧
      (go' i 0x21 23 → Completes .sentinelRecalibration s fun d => runs i 0x21 23 d ∧ d.mem = dev.mem)) ∧
    (∀ v : VaultId, let p := vltPg v
      let n := 8 * dev.fld p F.VLT_STAT.test_row + dev.fld p F.VLT_STAT.test_bank + 1
      (dev.testRuns.any fun x => x.code == 2 && x.page == p) = true → dev.bit p F.VLT_STAT.test_active = true →
        Completes (.vaultSweep v true) s fun d =>
          if n < 16384 then d.bit p F.VLT_STAT.test_active = true ∧ d.fld p F.VLT_STAT.test_bank = n % 8 ∧ d.fld p F.VLT_STAT.test_row = n / 8
          else d.bit p F.VLT_STAT.test_active = false) ∧
    (∀ (r : RegionId) (i : Fin 4) (t : TestRun), dev.inn.tests = (Vector.replicate 4 {}).set i.val { run := some t } → t.waiting = true →
      t.page = rgnPg r →
      (dev.quietRegion r = true → Completes (.quietEdge r) s fun d => (d.rg r).test = true ∧
        (d.inn.tests[i.val]).run = some { t with waiting := false, since := dev.now } ∧ d.fld 6 F.ST_SAVESTAT.saved = 97108) ∧
      (dev.quietRegion r = false → Completes (.quietEdge r) s fun d => d = dev)) ∧
    (∀ (i : Fin 4) (t : TestRun), (dev.inn.tests[i.val]).run = some t →
      Completes (.retentionPauseEnd i) s (fun d => (d.inn.tests[i.val]).run = some { t with pauses := t.pauses - 1 } ∧ d.mem = dev.mem) ∧
      (∀ x : TestEnd, t.code ≠ 3 → t.waiting = false → t.pauses = 0 → Completes (.testDone i x) s fun d =>
        let outcome := if t.abandon.isSome = true then 3 else if x.fail.isSome = true then 1 else 0
        (d.inn.tests[i.val]).run = none ∧ (d.inn.tests[i.val]).result = resultWord false outcome (t.abandon.getD 0) t.code t.page ∧
          (d.inn.tests[i.val]).time = x.us ∧
          (∀ e, t.code = 4 → t.page = engPg e → d.engState e = esParked) ∧
          (∀ v, t.code = 1 ∨ t.code = 2 → t.page = vltPg v → d.bit t.page F.VLT_STAT.test_active = false)) ∧
      (∀ (x : TestEnd) (r : RegionId), t.code = 3 → t.page = rgnPg r → t.waiting = false → t.pauses = 0 → t.abandon = none →
        dev.inn.expected = [] → Completes (.testDone i x) s fun d =>
          (d.inn.tests[i.val]).run = none ∧ (d.rg r).test = false ∧
            (d.inn.tests[i.val]).result = resultWord false (if x.fail.isSome = true then 1 else 0) 0 3 t.page))

/-- From R442, R485, R486: the expected signatures are cleared; scan is entered by a debugger at D3 alone, loses what stands outside the
always-on domain and the keys, and shifts. -/
def Sys2Proof.ScanAndSignaturesRules : Prop :=
  ∀ (s : State), s.Inv → let dev := s.dev
    (s.Up → PageOpen dev 7 →
      Completes .expectedClear s (fun d => d.inn = { dev.inn with expected := [] } ∧ d.regs = dev.regs ∧ d.mem = dev.mem) ∧
      (∀ who, who ≠ .debugger ∨ dev.dbgLevel ≠ 3 → Completes (.scanEnter who) s fun d => d = dev) ∧
      (dev.dbgLevel = 3 → Completes (.scanEnter .debugger) s fun d =>
        d.inn.phase = .fault ∧ d.inn.scan = true ∧ d.bit 7 F.ST_SCANCLR.verified = true ∧ (∀ e g, d.g e g = 0) ∧
          d.stw.identity = false ∧ d.stw.sealRoot = false ∧ d.stw.memKeys = false ∧
          ∀ x, d.byte x = if inRange x flashBase 0x8000000 = true then dev.byte x else memDflt x)) ∧
    (dev.inn.phase = .fault → dev.inn.scan = true → ∀ w, Completes (.scanShift w) s fun d =>
      (d.reg 7 R.ST_SCANCNT).toNat = ((dev.reg 7 R.ST_SCANCNT).toNat + 1) % 2 ^ 32 ∧ d.inn.scanOut = Config.freeWord dev.inn.free 0 ∧
        OnlyRegs s 7 [R.ST_SCANCNT] d)

/-- Self-tests: their start, refusals, steps and ends; expected signatures; scan. -/
def Obligations.SelfTests : Prop :=
  TestsRunRules ∧ ScanAndSignaturesRules
end

