-- ==== Sys2Proof/Laws/State.lean ====
section
/-!
SUPPORT. The fields of the part after each primitive update, and the runs of the combinators: true by definition, so that no proof
unfolds a record update.
-/

namespace Sys2Proof.Machine

/-! ### Combinators -/

@[simp] theorem skip_run (d : Device) : skip.run d = d := rfl
@[simp] theorem both_run (a b : Op) (d : Device) : (both a b).run d = b.run (a.run d) := rfl
@[simp] theorem withD_run (f : Device → Op) (d : Device) : (withD f).run d = (f d).run d := rfl
@[simp] theorem ops_nil_run (d : Device) : (ops []).run d = d := rfl
@[simp] theorem ops_cons_run (o : Op) (os : List Op) (d : Device) : (ops (o :: os)).run d = (ops os).run (o.run d) := rfl
@[simp] theorem forAll_nil_run {α : Type} (f : α → Op) (d : Device) : (forAll [] f).run d = d := rfl
@[simp] theorem forAll_cons_run {α : Type} (x : α) (xs : List α) (f : α → Op) (d : Device) :
    (forAll (x :: xs) f).run d = (forAll xs f).run ((f x).run d) := rfl
theorem whenD_run (c : Device → Bool) (o : Op) (d : Device) : (whenD c o).run d = if c d then o.run d else d := by
  unfold whenD; rw [withD_run]; split <;> rfl
theorem whenB_run (c : Bool) (o : Op) (d : Device) : (whenB c o).run d = if c then o.run d else d := by
  unfold whenB; split <;> rfl
@[simp] theorem whenB_true (o : Op) : whenB true o = o := rfl
@[simp] theorem whenB_false (o : Op) : whenB false o = skip := rfl
theorem whenD_true {c : Device → Bool} {o : Op} {d : Device} (h : c d = true) : (whenD c o).run d = o.run d := by
  rw [whenD_run, if_pos h]
theorem whenD_false {c : Device → Bool} {o : Op} {d : Device} (h : c d = false) : (whenD c o).run d = d := by
  rw [whenD_run, if_neg (by rw [h]; decide)]
theorem ite_run (c : Prop) [Decidable c] (a b : Op) (d : Device) : (if c then a else b).run d = if c then a.run d else b.run d := by
  split <;> rfl

/-! ### One lemma per field per update -/

@[simp] theorem modI_regs (f : Inner → Inner) (d : Device) : ((modI f).run d).regs = d.regs := rfl
@[simp] theorem modI_mem (f : Inner → Inner) (d : Device) : ((modI f).run d).mem = d.mem := rfl
@[simp] theorem modI_gpr (f : Inner → Inner) (d : Device) : ((modI f).run d).gpr = d.gpr := rfl
@[simp] theorem modI_inn (f : Inner → Inner) (d : Device) : ((modI f).run d).inn = f d.inn := rfl
@[simp] theorem setReg_inn (p w : Nat) (v : Word) (d : Device) : ((setReg p w v).run d).inn = d.inn := rfl
@[simp] theorem setReg_mem (p w : Nat) (v : Word) (d : Device) : ((setReg p w v).run d).mem = d.mem := rfl
@[simp] theorem setReg_gpr (p w : Nat) (v : Word) (d : Device) : ((setReg p w v).run d).gpr = d.gpr := rfl
@[simp] theorem setByte_inn (a : Nat) (b : Byte) (d : Device) : ((setByte a b).run d).inn = d.inn := rfl
@[simp] theorem setByte_regs (a : Nat) (b : Byte) (d : Device) : ((setByte a b).run d).regs = d.regs := rfl
@[simp] theorem setByte_gpr (a : Nat) (b : Byte) (d : Device) : ((setByte a b).run d).gpr = d.gpr := rfl
@[simp] theorem setG_inn (e : EngineId) (r : GReg) (v : Word) (d : Device) : ((setG e r v).run d).inn = d.inn := by
  show (if r = 0 then d else _).inn = _; split <;> rfl
@[simp] theorem setG_regs (e : EngineId) (r : GReg) (v : Word) (d : Device) : ((setG e r v).run d).regs = d.regs := by
  show (if r = 0 then d else _).regs = _; split <;> rfl
@[simp] theorem setG_mem (e : EngineId) (r : GReg) (v : Word) (d : Device) : ((setG e r v).run d).mem = d.mem := by
  show (if r = 0 then d else _).mem = _; split <;> rfl
@[simp] theorem clearG_inn (e : EngineId) (d : Device) : ((clearG e).run d).inn = d.inn := rfl
@[simp] theorem clearG_regs (e : EngineId) (d : Device) : ((clearG e).run d).regs = d.regs := rfl
@[simp] theorem clearG_mem (e : EngineId) (d : Device) : ((clearG e).run d).mem = d.mem := rfl

/-! ### The reads see only their part -/

theorem reg_congr {d e : Device} (h : e.regs = d.regs) (p w : Nat) : e.reg p w = d.reg p w := by unfold Device.reg; rw [h]
theorem byte_congr {d e : Device} (h : e.mem = d.mem) (a : Nat) : e.byte a = d.byte a := by unfold Device.byte; rw [h]
theorem g_congr {d e : Device} (h : e.gpr = d.gpr) (x : EngineId) (r : GReg) : e.g x r = d.g x r := by unfold Device.g; rw [h]

@[simp] theorem modI_reg (f : Inner → Inner) (d : Device) (p w : Nat) : ((modI f).run d).reg p w = d.reg p w := rfl
@[simp] theorem modI_fld (f : Inner → Inner) (d : Device) (p : Nat) (x : Fld) : ((modI f).run d).fld p x = d.fld p x := rfl
@[simp] theorem modI_byte (f : Inner → Inner) (d : Device) (a : Nat) : ((modI f).run d).byte a = d.byte a := rfl
@[simp] theorem modI_g (f : Inner → Inner) (d : Device) (e : EngineId) (r : GReg) : ((modI f).run d).g e r = d.g e r := rfl
@[simp] theorem setReg_byte (p w : Nat) (v : Word) (d : Device) (a : Nat) : ((setReg p w v).run d).byte a = d.byte a := rfl
@[simp] theorem setReg_g (p w : Nat) (v : Word) (d : Device) (e : EngineId) (r : GReg) :
    ((setReg p w v).run d).g e r = d.g e r := rfl
@[simp] theorem setByte_reg (a : Nat) (b : Byte) (d : Device) (p w : Nat) : ((setByte a b).run d).reg p w = d.reg p w := rfl
@[simp] theorem setByte_g (a : Nat) (b : Byte) (d : Device) (e : EngineId) (r : GReg) :
    ((setByte a b).run d).g e r = d.g e r := rfl
@[simp] theorem setG_reg (e : EngineId) (r : GReg) (v : Word) (d : Device) (p w : Nat) :
    ((setG e r v).run d).reg p w = d.reg p w := reg_congr (setG_regs ..) p w
@[simp] theorem setG_byte (e : EngineId) (r : GReg) (v : Word) (d : Device) (a : Nat) :
    ((setG e r v).run d).byte a = d.byte a := byte_congr (setG_mem ..) a

/-! ### Phases -/

theorem go_up {s : State} (h : s.dev.inn.phase = .up) (o : Op) : go s o = .next { s with dev := o.run s.dev } := by
  unfold go inPhase
  rw [whenD_true (by simp [h])]

theorem goIn_up {s : State} {ps : List Phase} (h : ps.contains s.dev.inn.phase = true) (o : Op) :
    goIn ps s o = .next { s with dev := o.run s.dev } := by
  unfold goIn inPhase
  rw [whenD_true h]

end Sys2Proof.Machine
end

