-- ==== Sys2Proof/Laws/Ops.lean ====
section
/-!
SUPPORT. Reads after writes: registers and their fields, bytes of memory, general registers; and that every operation keeps the
invariant, the memories' canonical form among it.
-/

namespace Sys2Proof.Machine

/-- Every operation keeps the invariant. -/
theorem Op.inv (o : Op) {d : Device} (h : d.Inv) : (o.run d).Inv := o.keeps d h

/-- The invariant has the memories in their canonical form, -/
theorem memory_wf_of_inv {d : Device} (h : d.Inv) : Memory.wf d.mem = true := h.2.2.1

/-- which every operation keeps, a write of one byte with no other premise, -/
theorem memory_wf_op (o : Op) {d : Device} (h : d.Inv) : Memory.wf (o.run d).mem = true := (o.keeps d h).2.2.1

theorem memory_wf_setByte {d : Device} (h : Memory.wf d.mem = true) (a : Nat) (b : Byte) :
    Memory.wf ((setByte a b).run d).mem = true := sparseWf_put h a b

/-- and which the memory at reset has. -/
theorem memory_wf_reset : Memory.wf State.reset.dev.mem = true := rfl

/-! ### Registers -/

theorem regKey_inj {p q w x : Nat} (hw : w < 1024) (hx : x < 1024) : regKey p w = regKey q x ↔ p = q ∧ w = x := by
  unfold regKey; omega

/-- A register read after it is written: the value, its reserved bits 0 (R7). -/
theorem reg_setReg_same {d : Device} (h : d.Inv) (p w : Nat) (v : Word) :
    ((setReg p w v).run d).reg p w = v &&& keyMask (regKey p w) := sparseGet_put_same h.1

/-- Another register is unchanged. -/
theorem reg_setReg_ne {d : Device} {p q w x : Nat} {v : Word} (h : regKey p w ≠ regKey q x) :
    ((setReg p w v).run d).reg q x = d.reg q x := sparseGet_put_ne h

/-- A register holds no reserved bit. -/
theorem reg_masked {d : Device} (h : d.Inv) (p w : Nat) : d.reg p w &&& keyMask (regKey p w) = d.reg p w := by
  have hall : ∀ m : Sparse Word, (∀ c ∈ m, c.2 &&& ~~~keyMask c.1 = 0) → ∀ k, sparseGet regDflt m k &&& ~~~keyMask k = 0 := by
    intro m hm k
    induction m with
    | nil => exact and_not_and _ _
    | cons c m ih =>
      obtain ⟨k', v⟩ := c
      simp only [sparseGet]
      split
      · rename_i he; subst he; exact hm (k', v) (List.mem_cons_self ..)
      · exact ih fun c hc => hm c (List.mem_cons_of_mem _ hc)
  have := hall d.regs h.2.1 (regKey p w)
  unfold Device.reg
  generalize sparseGet regDflt d.regs (regKey p w) = v at *
  generalize keyMask (regKey p w) = m at *
  ext i hi
  have hb := congrArg (fun x => x[i]) this
  simp only [BitVec.getElem_and, BitVec.getElem_not] at hb ⊢
  cases hv : v[i] <;> cases hm : m[i] <;> simp_all

/-! ### Fields -/

/-- The bits of a field in a word. -/
def Fld.bits (f : Fld) : Word := BitVec.ofNat 32 ((2 ^ f.width - 1) <<< f.lo)

/-- A field of the register of a page holds all its bits. -/
def Fld.fits (f : Fld) (p : Nat) : Prop := f.lo ≤ f.hi ∧ f.hi < 32 ∧ f.bits &&& ~~~keyMask (regKey p f.off) = 0

theorem Fld.width_eq (f : Fld) : f.width = f.hi + 1 - f.lo := rfl

/-- A bit of the field's mask. -/
theorem Fld.bits_getLsbD (f : Fld) (i : Nat) :
    f.bits.getLsbD i = (decide (i < 32) && decide (f.lo ≤ i) && decide (i - f.lo < f.width)) := by
  unfold Fld.bits
  rw [BitVec.getLsbD_ofNat, Nat.testBit_shiftLeft, Nat.testBit_two_pow_sub_one]
  by_cases h : f.lo ≤ i <;> simp [h, ge_iff_le]

/-- A bit of a value put at the field's place. -/
theorem Fld.put_getLsbD (f : Fld) (v i : Nat) :
    (BitVec.ofNat 32 ((v % 2 ^ f.width) <<< f.lo)).getLsbD i =
      (decide (i < 32) && decide (f.lo ≤ i) && (decide (i - f.lo < f.width) && v.testBit (i - f.lo))) := by
  rw [BitVec.getLsbD_ofNat, Nat.testBit_shiftLeft, Nat.testBit_mod_two_pow]
  by_cases h : f.lo ≤ i <;> simp [h, ge_iff_le]

/-- A bit of a field's value. -/
theorem Fld.get_testBit (f : Fld) (w : Word) (j : Nat) :
    (f.get w).testBit j = (decide (j < f.width) && w.getLsbD (f.lo + j)) := by
  unfold Fld.get
  rw [Nat.testBit_mod_two_pow, Nat.testBit_shiftRight, ← BitVec.testBit_toNat, Nat.add_comm]

theorem Fld.set_getLsbD (f : Fld) (v : Nat) (w : Word) (i : Nat) :
    (f.set v w).getLsbD i =
      ((w.getLsbD i && !(f.bits.getLsbD i) && decide (i < 32)) ||
        (decide (i < 32) && decide (f.lo ≤ i) && (decide (i - f.lo < f.width) && v.testBit (i - f.lo)))) := by
  unfold Fld.set
  rw [BitVec.getLsbD_or, BitVec.getLsbD_and, BitVec.getLsbD_not, Fld.put_getLsbD]
  have : BitVec.ofNat 32 ((2 ^ f.width - 1) <<< f.lo) = f.bits := rfl
  rw [this]
  cases w.getLsbD i <;> cases f.bits.getLsbD i <;> cases decide (i < 32) <;> simp

/-- The field of a word in which it was set, masked by a mask that keeps it. -/
theorem Fld.get_set_masked {f : Fld} {v : Nat} {w m : Word} (hl : f.lo ≤ f.hi) (hh : f.hi < 32) (hm : f.bits &&& ~~~m = 0) :
    f.get (f.set v w &&& m) = v % 2 ^ f.width := by
  apply Nat.eq_of_testBit_eq
  intro j
  rw [Fld.get_testBit, Nat.testBit_mod_two_pow, BitVec.getLsbD_and, Fld.set_getLsbD, Fld.bits_getLsbD]
  by_cases hj : j < f.width
  · have hw := f.width_eq
    have h32 : f.lo + j < 32 := by omega
    have hb := congrArg (fun x => x.getLsbD (f.lo + j)) hm
    simp only [BitVec.getLsbD_and, BitVec.getLsbD_not, Fld.bits_getLsbD] at hb
    simp [hj, h32] at hb ⊢
    exact fun _ => hb
  · simp [hj]

/-- Another field of the word in which one was set, their bits apart. -/
theorem Fld.get_set_other {f g : Fld} {v : Nat} {w m : Word} (hm : w &&& m = w) (hgf : g.bits &&& f.bits = 0)
    (hg : g.lo ≤ g.hi ∧ g.hi < 32) : g.get (f.set v w &&& m) = g.get w := by
  apply Nat.eq_of_testBit_eq
  intro j
  rw [Fld.get_testBit, Fld.get_testBit]
  by_cases hj : j < g.width
  · have hw := g.width_eq
    have h32 : g.lo + j < 32 := by omega
    have hb := congrArg (fun x => x.getLsbD (g.lo + j)) hgf
    simp only [BitVec.getLsbD_and, Fld.bits_getLsbD] at hb
    have hmm := congrArg (fun x => x.getLsbD (g.lo + j)) hm
    simp only [BitVec.getLsbD_eq_getElem h32] at hmm
    rw [BitVec.getLsbD_and, Fld.set_getLsbD, Fld.bits_getLsbD]
    simp [hj, h32] at hb ⊢
    by_cases h1 : f.lo ≤ g.lo + j
    · have h2 := hb h1
      have h3 : ¬ (g.lo + j - f.lo < f.width) := by omega
      simp [h1, h3]
      exact fun h => by rw [h] at hmm; simp at hmm; exact hmm.2
    · simp [h1]
      exact fun h => by rw [h] at hmm; simp at hmm; exact hmm.2
  · simp [hj]

/-- A field read after it is written. -/
theorem fld_setF_same {d : Device} (h : d.Inv) {p : Nat} {f : Fld} (hf : f.fits p) (v : Nat) :
    ((setF p f v).run d).fld p f = v % 2 ^ f.width := by
  unfold Device.fld setF
  rw [withD_run, reg_setReg_same h]
  exact Fld.get_set_masked hf.1 hf.2.1 hf.2.2

/-- Another field of the same register keeps its value. -/
theorem fld_setF_other {d : Device} (h : d.Inv) {p : Nat} {f g : Fld} (ho : g.off = f.off) (hd : g.bits &&& f.bits = 0)
    (hg : g.lo ≤ g.hi ∧ g.hi < 32) (v : Nat) : ((setF p f v).run d).fld p g = d.fld p g := by
  unfold Device.fld setF
  rw [withD_run, ho, reg_setReg_same h]
  exact Fld.get_set_other (reg_masked h _ _) hd hg

/-- A field of another register keeps its value. -/
theorem fld_setF_ne {d : Device} {p q : Nat} {f g : Fld} (h : regKey p f.off ≠ regKey q g.off) (v : Nat) :
    ((setF p f v).run d).fld q g = d.fld q g := by
  unfold Device.fld setF
  rw [withD_run, reg_setReg_ne h]

@[simp] theorem setF_inn (p : Nat) (f : Fld) (v : Nat) (d : Device) : ((setF p f v).run d).inn = d.inn := rfl
@[simp] theorem setF_mem (p : Nat) (f : Fld) (v : Nat) (d : Device) : ((setF p f v).run d).mem = d.mem := rfl
@[simp] theorem setF_gpr (p : Nat) (f : Fld) (v : Nat) (d : Device) : ((setF p f v).run d).gpr = d.gpr := rfl
@[simp] theorem setF_byte (p : Nat) (f : Fld) (v : Nat) (d : Device) (a : Nat) : ((setF p f v).run d).byte a = d.byte a := rfl
@[simp] theorem setF_g (p : Nat) (f : Fld) (v : Nat) (d : Device) (e : EngineId) (r : GReg) :
    ((setF p f v).run d).g e r = d.g e r := rfl

theorem reg_setF_ne {d : Device} {p q w : Nat} {f : Fld} {v : Nat} (h : regKey p f.off ≠ regKey q w) :
    ((setF p f v).run d).reg q w = d.reg q w := reg_setReg_ne h

/-! ### Memories -/

/-- A byte read after it is written. -/
theorem byte_setByte_same {d : Device} (h : d.Inv) (a : Nat) (b : Byte) : ((setByte a b).run d).byte a = b :=
  sparseGet_put_same h.2.2.1

/-- Another byte is unchanged. -/
theorem byte_setByte_ne {d : Device} {a x : Nat} {b : Byte} (h : a ≠ x) : ((setByte a b).run d).byte x = d.byte x :=
  sparseGet_put_ne h

/-- Bytes outside a range written are unchanged. -/
theorem byte_setBytes_ne {bs : List Byte} : ∀ {d : Device} {a x : Nat}, (x < a ∨ a + bs.length ≤ x) →
    ((setBytes a bs).run d).byte x = d.byte x := by
  induction bs with
  | nil => intros; rfl
  | cons b bs ih =>
    intro d a x h
    simp only [List.length_cons] at h
    show ((setBytes (a + 1) bs).run ((setByte a b).run d)).byte x = _
    rw [ih (by omega), byte_setByte_ne (by omega)]

/-- A byte of a range written. -/
theorem byte_setBytes_same {bs : List Byte} : ∀ {d : Device} (_ : d.Inv) {a i : Nat} (hi : i < bs.length),
    ((setBytes a bs).run d).byte (a + i) = bs[i] := by
  induction bs with
  | nil => intro d _ a i hi; exact absurd hi (Nat.not_lt_zero i)
  | cons b bs ih =>
    intro d h a i hi
    show ((setBytes (a + 1) bs).run ((setByte a b).run d)).byte (a + i) = _
    cases i with
    | zero => rw [byte_setBytes_ne (by omega)]; exact byte_setByte_same h a b
    | succ i =>
      have := ih (d := (setByte a b).run d) ((setByte a b).keeps d h) (a := a + 1) (i := i) (by simpa using hi)
      rw [show a + (i + 1) = a + 1 + i by omega, this]
      rfl

@[simp] theorem setBytes_inn {bs : List Byte} : ∀ {a : Nat} {d : Device}, ((setBytes a bs).run d).inn = d.inn := by
  induction bs with
  | nil => intros; rfl
  | cons b bs ih => intro a d; exact ih
@[simp] theorem setBytes_regs {bs : List Byte} : ∀ {a : Nat} {d : Device}, ((setBytes a bs).run d).regs = d.regs := by
  induction bs with
  | nil => intros; rfl
  | cons b bs ih => intro a d; exact ih
@[simp] theorem setBytes_gpr {bs : List Byte} : ∀ {a : Nat} {d : Device}, ((setBytes a bs).run d).gpr = d.gpr := by
  induction bs with
  | nil => intros; rfl
  | cons b bs ih => intro a d; exact ih

/-! ### General registers -/

/-- A general register read after it is written; g0 reads 0 (R219). -/
theorem g_setG_same {d : Device} (h : d.Inv) (e : EngineId) (r : GReg) (v : Word) :
    ((setG e r v).run d).g e r = if r = 0 then 0 else v := by
  show (if r = 0 then d else _).g e r = _
  split
  · rename_i hr; subst hr; exact h.2.2.2 e
  · simp [Device.g]

/-- Another general register is unchanged. -/
theorem g_setG_ne {d : Device} {e x : EngineId} {r q : GReg} {v : Word} (h : e ≠ x ∨ r ≠ q) :
    ((setG e r v).run d).g x q = d.g x q := by
  show (if r = 0 then d else _).g x q = _
  split
  · rfl
  · unfold Device.g
    simp only [Vector.getElem_set]
    by_cases he : e.val = x.val
    · have hr : r.val ≠ q.val := fun hh => (h.elim (fun h => h (Fin.ext he)) fun h => h (Fin.ext hh))
      simp [hr, he]
    · simp [he]

end Sys2Proof.Machine
end

