-- ==== Sys2Proof/Laws/Fields.lean ====
section
/-!
SUPPORT. Which fields a page holds: a field of the register tables holds all its bits on every page of its kind (R7, R8), so a
field read after its write gives what was written.
-/

namespace Sys2Proof.Machine

/-! ### The kinds of the pages (R35) -/

@[simp] theorem kindOf_rgn (r : RegionId) : kindOf (rgnPg r) = some .rgn := by
  have := r.isLt; unfold kindOf rgnPg; repeat rw [if_neg (by omega)]
  rw [if_pos (by omega)]
@[simp] theorem kindOf_ni (r : RegionId) : kindOf (niPg r) = some .ni := by
  have := r.isLt; unfold kindOf niPg; repeat rw [if_neg (by omega)]
  rw [if_pos (by omega)]
@[simp] theorem kindOf_vlt (v : VaultId) : kindOf (vltPg v) = some .vlt := by
  have := v.isLt; unfold kindOf vltPg; repeat rw [if_neg (by omega)]
  rw [if_pos (by omega)]
@[simp] theorem kindOf_eng (e : EngineId) : kindOf (engPg e) = some .eng := by
  have := e.isLt; unfold kindOf engPg; repeat rw [if_neg (by omega)]
  rw [if_pos (by omega)]
@[simp] theorem kindOf_ser (p : SerialId) : kindOf (serPg p) = some .ser := by
  have := p.isLt; unfold kindOf serPg; repeat rw [if_neg (by omega)]
  rw [if_pos (by omega)]
@[simp] theorem kindOf_eth (m : MacId) : kindOf (ethPg m) = some .eth := by
  have := m.isLt; unfold kindOf ethPg; repeat rw [if_neg (by omega)]
  rw [if_pos (by omega)]
@[simp] theorem kindOf_io (b : BankId) : kindOf (ioPg b) = some .io := by
  have := b.isLt; unfold kindOf ioPg; repeat rw [if_neg (by omega)]
  rw [if_pos (by omega)]
@[simp] theorem kindOf_lnk (p : PortId) : kindOf (lnkPg p) = some .lnk := by
  have := p.isLt; unfold kindOf lnkPg; repeat rw [if_neg (by omega)]
  rw [if_pos (by omega)]
@[simp] theorem kindOf_ln (l : LaneId) : kindOf (lnPg l) = some .ln := by
  have := l.isLt; unfold kindOf lnPg; repeat rw [if_neg (by omega)]
  rw [if_pos (by omega)]
@[simp] theorem kindOf_ext (c : ChanId) : kindOf (extPg c) = some .ext := by
  have := c.isLt; unfold kindOf extPg; repeat rw [if_neg (by omega)]
  rw [if_pos (by omega)]

/-! ### Fields on their pages -/

/-- The bits that a register of a page of some kind holds, where it stands on every page of the kind. -/
def Kind.mask (k : Kind) (w : Nat) : Nat :=
  (k.fieldsAt w).foldl (fun m f => if f.acc = .wo then m else m ||| f.mask) 0

theorem keyMask_eq {p w : Nat} {k : Kind} (hk : kindOf p = some k) (hw : 8 ≤ w) (hx : w < 1024) (ho : onlyOn k p w = false) :
    keyMask (regKey p w) = BitVec.ofNat 32 (k.mask w) := by
  unfold keyMask regKey
  rw [show (p * 1024 + w) / 1024 = p by omega, show (p * 1024 + w) % 1024 = w by omega]
  unfold regMask
  rw [hk]
  simp only [show ¬ w < 8 by omega, ho, if_false, Kind.mask, Bool.false_eq_true]

/-- A field's bits are all held by the pages of a kind. -/
def Kind.fits (k : Kind) (f : Fld) : Bool :=
  decide (f.lo ≤ f.hi) && decide (f.hi < 32) && decide (8 ≤ f.off) && decide (f.off < 1024) &&
    (f.bits &&& ~~~BitVec.ofNat 32 (k.mask f.off) == 0)

theorem Fld.fits_of {p : Nat} {k : Kind} {f : Fld} (hk : kindOf p = some k) (hf : k.fits f = true)
    (ho : onlyOn k p f.off = false) : f.fits p := by
  simp only [Kind.fits, Bool.and_eq_true, decide_eq_true_eq, beq_iff_eq] at hf
  refine ⟨hf.1.1.1.1, hf.1.1.1.2, ?_⟩
  rw [keyMask_eq hk hf.1.1.2 hf.1.2 ho]
  exact hf.2

/-- A field read after its write, by the kind of its page. -/
theorem fld_set {d : Device} (h : d.Inv) {p : Nat} {k : Kind} {f : Fld} {v : Nat} (hk : kindOf p = some k) (hf : k.fits f = true)
    (ho : onlyOn k p f.off = false) : ((setF p f v).run d).fld p f = v % 2 ^ f.width :=
  fld_setF_same h (Fld.fits_of hk hf ho) v

/-- A whole register read after its write, by the kind of its page. -/
theorem reg_set {d : Device} (h : d.Inv) {p w : Nat} {k : Kind} {v : Word} (hk : kindOf p = some k) (hw : 8 ≤ w) (hx : w < 1024)
    (ho : onlyOn k p w = false) : ((setReg p w v).run d).reg p w = v &&& BitVec.ofNat 32 (k.mask w) := by
  rw [reg_setReg_same h, keyMask_eq hk hw hx ho]

end Sys2Proof.Machine
end

