-- ==== Sys2Proof/Laws/Events.lean ====
section
/-!
SUPPORT. What raising an event can change: registers of events, of the host port pages and ENG_IRQ, pending bits, and what stands
for outputs and withheld deliveries. Everything else is as before.
-/

namespace Sys2Proof.Machine

/-- A register that raising, delivering or withholding an event may write. -/
def evReg (p w : Nat) : Bool :=
  w == 4 || w == 6 || (8 ≤ p && p ≤ 11) || (32 ≤ p && p ≤ 35) || (512 ≤ p && p < 768 && w == R.ENG_IRQ)

/-- What an event leaves of the part's inner state. -/
def Inner.calm (n : Inner) : Inner :=
  { n with out := [], net := [], withheld := [], ringLost := Vector.replicate 4 false, ringUnsig := Vector.replicate 4 0
           eng := n.eng.map fun e => { e with nmi := false } }

/-- An operation that does no more than an event does. -/
structure Quiet (o : Op) : Prop where
  reg : ∀ d p w, w < 1024 → evReg p w = false → (o.run d).reg p w = d.reg p w
  mem : ∀ d, (o.run d).mem = d.mem
  gpr : ∀ d, (o.run d).gpr = d.gpr
  inn : ∀ d, (o.run d).inn.calm = d.inn.calm

theorem quiet_skip : Quiet skip := ⟨fun _ _ _ _ _ => rfl, fun _ => rfl, fun _ => rfl, fun _ => rfl⟩

theorem Quiet.both {a b : Op} (ha : Quiet a) (hb : Quiet b) : Quiet (both a b) :=
  ⟨fun d p w hw h => (hb.reg _ p w hw h).trans (ha.reg d p w hw h), fun d => (hb.mem _).trans (ha.mem d),
    fun d => (hb.gpr _).trans (ha.gpr d), fun d => (hb.inn _).trans (ha.inn d)⟩

theorem quiet_withD {f : Device → Op} (h : ∀ d, Quiet (f d)) : Quiet (withD f) :=
  ⟨fun d => (h d).reg d, fun d => (h d).mem d, fun d => (h d).gpr d, fun d => (h d).inn d⟩

theorem quiet_ops {os : List Op} (h : ∀ o ∈ os, Quiet o) : Quiet (ops os) := by
  induction os with
  | nil => exact quiet_skip
  | cons o os ih => exact (h o (List.mem_cons_self ..)).both (ih fun x hx => h x (List.mem_cons_of_mem _ hx))

theorem quiet_nil : Quiet (ops []) := quiet_skip
theorem quiet_cons {o : Op} {os : List Op} (h : Quiet o) (hs : Quiet (ops os)) : Quiet (ops (o :: os)) := h.both hs

theorem quiet_ite {c : Prop} [Decidable c] {a b : Op} (ha : Quiet a) (hb : Quiet b) : Quiet (if c then a else b) := by
  split <;> assumption

theorem quiet_whenB {c : Bool} {o : Op} (h : Quiet o) : Quiet (whenB c o) := quiet_ite h quiet_skip

theorem quiet_whenD {c : Device → Bool} {o : Op} (h : Quiet o) : Quiet (whenD c o) := quiet_withD fun _ => quiet_ite h quiet_skip

theorem quiet_forAll {α : Type} {xs : List α} {f : α → Op} (h : ∀ x, Quiet (f x)) : Quiet (forAll xs f) := by
  refine quiet_ops fun o ho => ?_
  obtain ⟨x, _, rfl⟩ := List.mem_map.1 ho
  exact h x

theorem quiet_modI {f : Inner → Inner} (h : ∀ n, (f n).calm = n.calm) : Quiet (modI f) :=
  ⟨fun _ _ _ _ _ => rfl, fun _ => rfl, fun _ => rfl, fun d => h d.inn⟩

/-- `p`, `w` is written by events only: whatever is written there, or its key names such a register. -/
theorem quiet_setReg {p w : Nat} {v : Word} (h : ∀ q x, x < 1024 → regKey p w = regKey q x → evReg q x = true) :
    Quiet (setReg p w v) :=
  ⟨fun d q x hx he => reg_setReg_ne fun hk => by rw [h q x hx hk] at he; exact absurd he (by decide),
    fun _ => rfl, fun _ => rfl, fun _ => rfl⟩

/-- Every register of pages 0x008 to 0x00B and 0x020 to 0x023, whatever word offset a key is made of. -/
theorem evReg_of_page {p w : Nat} (hw : w < 1024) (hp : 8 ≤ p ∧ p ≤ 11 ∨ 32 ≤ p ∧ p ≤ 35) (q x : Nat) (hx : x < 1024)
    (hk : regKey p w = regKey q x) : evReg q x = true := by
  obtain ⟨rfl, rfl⟩ := (regKey_inj hw hx).1 hk
  rcases hp with h | h <;> simp [evReg, h]

theorem evReg_of_word {p w : Nat} (hp : w = 4 ∨ w = 6) (q x : Nat) (hx : x < 1024) (hk : regKey p w = regKey q x) :
    evReg q x = true := by
  obtain ⟨rfl, rfl⟩ := (regKey_inj (by rcases hp with h | h <;> omega) hx).1 hk
  rcases hp with h | h <;> simp [evReg, h]

theorem evReg_irq {k : Nat} (hk : k < 256) (q x : Nat) (hx : x < 1024) (h : regKey (512 + k) R.ENG_IRQ = regKey q x) :
    evReg q x = true := by
  obtain ⟨rfl, rfl⟩ := (regKey_inj (by decide) hx).1 h
  simp [evReg]; omega

/-! ### The pages of events and of the host port -/

/-- The pages whose registers events write. -/
def EvPage (p : Nat) : Prop := 8 ≤ p ∧ p ≤ 11 ∨ 32 ≤ p ∧ p ≤ 35

theorem quiet_reg {p w : Nat} {v : Word} (hp : EvPage p) (hw : w < 1024) : Quiet (setReg p w v) :=
  quiet_setReg (evReg_of_page hw hp)
theorem quiet_setF {p : Nat} {f : Fld} {v : Nat} (hp : EvPage p) (hw : f.off < 1024) : Quiet (setF p f v) :=
  quiet_withD fun _ => quiet_reg hp hw
theorem quiet_setB {p : Nat} {f : Fld} {b : Bool} (hp : EvPage p) (hw : f.off < 1024) : Quiet (setB p f b) := quiet_setF hp hw
theorem quiet_setBit {p w i : Nat} (hp : EvPage p) (hw : w < 1024) : Quiet (setBit p w i) := quiet_withD fun _ => quiet_reg hp hw
theorem quiet_incReg {p w : Nat} (hp : EvPage p) (hw : w < 1024) : Quiet (incReg p w) := quiet_withD fun _ => quiet_reg hp hw
theorem quiet_setN64 {p w v : Nat} (hp : EvPage p) (hw : w + 1 < 1024) : Quiet (setN64 p w v) :=
  (quiet_reg hp (by omega)).both ((quiet_reg hp hw).both quiet_skip)
theorem quiet_rawBit {p w i : Nat} (hw : w = 4 ∨ w = 6) : Quiet (setBit p w i) :=
  quiet_withD fun _ => quiet_setReg (evReg_of_word hw)
theorem quiet_emit (o : Out) : Quiet (emit o) := quiet_modI fun _ => rfl

/-! ### Writes to the host -/

theorem quiet_proxyWrite (a : Nat) (bs : List Byte) : Quiet (proxyWrite a bs) :=
  quiet_withD fun _ => quiet_modI fun _ => rfl

theorem quiet_hostAbortBy {rise : Nat → Op} (hr : ∀ s < 660, Quiet (rise s)) : Quiet (hostAbortBy rise) :=
  quiet_withD fun _ => (quiet_setBit (.inr ⟨by decide, by decide⟩) (by decide)).both (quiet_whenB (hr _ (by decide)))

theorem quiet_hostOutBy {rise : Nat → Op} (hr : ∀ s < 660, Quiet (rise s)) (a : Nat) (bs : List Byte) :
    Quiet (hostOutBy rise a bs) := by
  refine quiet_withD fun d => quiet_ite (quiet_forAll fun _ => quiet_proxyWrite _ _) (quiet_ite (quiet_emit _) ?_)
  exact (quiet_setN64 (.inr ⟨by decide, by decide⟩) (by decide)).both (quiet_hostAbortBy hr)

theorem quiet_signalVecBy {rise : Nat → Op} (hr : ∀ s < 660, Quiet (rise s)) {v : Nat} (hv : v < 1024) :
    Quiet (signalVecBy rise v) := by
  refine quiet_withD fun d => quiet_ite (quiet_proxyWrite _ _) (quiet_ite ?_ (quiet_ite (quiet_emit _) ?_))
  · exact (quiet_setBit (.inr ⟨by decide, by decide⟩) (by unfold R.HP_VECPEND0; omega)).both (quiet_whenB (hr _ (by decide)))
  · exact quiet_hostAbortBy hr

/-! ### Rings and delivery -/

theorem fld_lt (d : Device) (p : Nat) (f : Fld) : d.fld p f < 2 ^ f.width := Nat.mod_lt _ (Nat.two_pow_pos _)

theorem quiet_ringWriteBy {rise : Nat → Op} (hr : ∀ s < 660, Quiet (rise s)) {r : Nat} (hlt : r < 4) (s k : Nat) :
    Quiet (ringWriteBy rise r s k) := by
  have hp : EvPage 35 := .inr ⟨by decide, by decide⟩
  have hf : ∀ f : Fld, f.off < 64 → ∀ v, Quiet (setF 35 (ringF f r) v) := fun f h v => quiet_setF hp <| by
    show f.off + 10 * r < 1024; omega
  have hi : ∀ w, w < 64 → Quiet (incReg 35 (w + 10 * r)) := fun w h => quiet_incReg hp (by omega)
  have hs : ∀ d : Device, Quiet (signalVecBy rise (d.fld 35 (ringF F.HP_RING0CTL.vec r))) := fun d =>
    quiet_signalVecBy hr (Nat.lt_of_lt_of_le (fld_lt _ _ _) (show 2 ^ F.HP_RING0CTL.vec.width ≤ 1024 by decide))
  refine quiet_withD fun d => quiet_cons (hi _ (by decide)) (quiet_cons (quiet_ite ?_ ?_) quiet_nil)
  · refine quiet_cons (hi _ (by decide)) (quiet_cons (hf _ (by decide) _) (quiet_cons (quiet_modI ?_)
      (quiet_cons (hr _ (by decide)) quiet_nil)))
    intro n; rfl
  · refine quiet_cons (quiet_hostOutBy hr _ _) (quiet_cons (quiet_modI ?_) (quiet_cons (hi _ (by decide))
      (quiet_cons (quiet_whenB (hi _ (by decide))) (quiet_cons (hf _ (by decide) _) (quiet_cons (hf _ (by decide) _)
      (quiet_cons (quiet_whenB (hf _ (by decide) _)) (quiet_cons (quiet_withD fun d1 => quiet_cons (hf _ (by decide) _)
        (quiet_cons (quiet_ite (quiet_cons (quiet_modI ?_) (quiet_cons (hs d) quiet_nil)) (quiet_modI ?_)) quiet_nil))
      (quiet_cons (quiet_whenB (hr _ (by decide))) quiet_nil))))))))
    all_goals intro n; rfl

theorem evPage_route {s : Nat} (h : s < 660) : EvPage (routePage s) := .inl ⟨by unfold routePage; omega, by unfold routePage; omega⟩

theorem quiet_countDelivery {s : Nat} (h : s < 660) : Quiet (countDelivery s) :=
  quiet_cons (quiet_setF (evPage_route h) (by decide)) (quiet_cons (quiet_incReg (evPage_route h) (by decide)) quiet_nil)

theorem quiet_withhold {s : Nat} (h : s < 660) : Quiet (withhold s) := by
  refine quiet_cons (quiet_modI ?_) (quiet_cons (quiet_setF (evPage_route h) (by decide))
    (quiet_cons (quiet_incReg (evPage_route h) (by decide)) quiet_nil))
  intro n; rfl

theorem route_engine_lt (d : Device) (s : Nat) : (d.route s).engine < 256 := by
  unfold Device.route; split
  · exact (by decide : (0 : Nat) < 256)
  · exact Nat.mod_lt _ (by decide)

theorem route_ring_lt (d : Device) (s : Nat) : (d.route s).ring < 4 := by
  unfold Device.route; split
  · exact (by decide : (0 : Nat) < 4)
  · exact Nat.mod_lt _ (by decide)

theorem quiet_deliverBy {rise : Nat → Op} (hr : ∀ s < 660, Quiet (rise s)) {s : Nat} (h : s < 660) : Quiet (deliverBy rise s) := by
  refine quiet_withD fun d => quiet_ite (quiet_cons (quiet_countDelivery h) (quiet_cons ?_ quiet_nil)) (quiet_withhold h)
  split
  · exact quiet_withD fun _ => quiet_setReg (evReg_irq (route_engine_lt d s))
  · exact quiet_emit _
  · exact quiet_ringWriteBy hr (route_ring_lt d s) _ _

theorem quiet_riseBy : ∀ (n s : Nat), s < 660 → Quiet (riseBy n s)
  | 0, _, _ => quiet_skip
  | n + 1, s, h => by
    exact quiet_whenD (quiet_withD fun d => quiet_cons (quiet_rawBit (.inl rfl)) (quiet_cons (quiet_rawBit (.inr rfl))
      (quiet_cons (quiet_withD fun d1 => quiet_whenB (quiet_deliverBy (quiet_riseBy n) h)) quiet_nil)))

theorem quiet_deliverTo {s : Nat} (h : s < 660) : Quiet (deliverTo s) := quiet_deliverBy (quiet_riseBy 4) h
theorem quiet_hostOut (a : Nat) (bs : List Byte) : Quiet (hostOut a bs) := quiet_hostOutBy (quiet_riseBy 4) a bs
theorem quiet_signalVec {v : Nat} (h : v < 1024) : Quiet (signalVec v) := quiet_signalVecBy (quiet_riseBy 4) h

/-! ### The non-maskable class, and one occurrence (R49, R50, R55) -/

theorem quiet_nmiEngine (e : EngineId) : Quiet (nmiEngine e) := by
  have hp : EvPage 8 := .inl ⟨by decide, by decide⟩
  refine quiet_withD fun d => quiet_ite quiet_skip (.both (quiet_modI fun n => ?_) (quiet_ite
    (quiet_cons (quiet_setF hp (by decide)) (quiet_cons (quiet_incReg hp (by decide)) quiet_nil)) quiet_skip))
  unfold Inner.calm
  congr 1
  ext i hi
  all_goals
    simp only [Vector.getElem_map, Vector.getElem_set]
    split <;> simp_all

theorem quiet_deliverNmi {s : Nat} (h : s < 660) : Quiet (deliverNmi s) := by
  have hp : EvPage 8 := .inl ⟨by decide, by decide⟩
  exact quiet_cons (quiet_setBit hp (by decide)) (quiet_cons (quiet_withD fun _ => quiet_reg hp (by decide))
    (quiet_cons (quiet_countDelivery h) (quiet_cons (quiet_emit _) (quiet_cons (quiet_forAll quiet_nmiEngine)
    (quiet_cons (quiet_whenD (quiet_ringWriteBy (quiet_riseBy 4) (by decide) _ _)) quiet_nil)))))

/-- One occurrence of a source of the part does no more than an event. -/
theorem quiet_occur {s : Nat} (h : s < 660) : Quiet (occur s) := by
  refine quiet_withD fun d => quiet_cons (quiet_rawBit (.inl rfl)) (quiet_cons (quiet_rawBit (.inr rfl)) (quiet_cons ?_ quiet_nil))
  exact quiet_ite (quiet_whenB (quiet_deliverNmi h)) (quiet_withD fun _ => quiet_whenB (quiet_deliverTo h))

/-! ### Raising and causes (R44, R53) -/

theorem quiet_raise {p b : Nat} (h : pageSrc p b < 660) : Quiet (raise p b) := quiet_whenD (quiet_occur h)

/-- A cause does no more than an event beside its own register. -/
theorem causeAt_reg {d : Device} {p w i en b q x : Nat} (h : pageSrc p b < 660) (hne : regKey p w ≠ regKey q x) (hx : x < 1024)
    (he : evReg q x = false) : ((causeAt p w i en b).run d).reg q x = d.reg q x := by
  unfold causeAt
  rw [whenD_run]
  split
  · rw [withD_run, ops_cons_run, ops_cons_run, ops_nil_run, (quiet_whenB (quiet_raise h)).reg _ _ _ hx he]
    exact reg_setReg_ne hne
  · rfl

theorem causeAt_mem {d : Device} {p w i en b : Nat} (h : pageSrc p b < 660) : ((causeAt p w i en b).run d).mem = d.mem := by
  unfold causeAt
  rw [whenD_run]
  split
  · rw [withD_run, ops_cons_run, ops_cons_run, ops_nil_run, (quiet_whenB (quiet_raise h)).mem]; rfl
  · rfl

theorem causeAt_gpr {d : Device} {p w i en b : Nat} (h : pageSrc p b < 660) : ((causeAt p w i en b).run d).gpr = d.gpr := by
  unfold causeAt
  rw [whenD_run]
  split
  · rw [withD_run, ops_cons_run, ops_cons_run, ops_nil_run, (quiet_whenB (quiet_raise h)).gpr]; rfl
  · rfl

theorem causeAt_inn {d : Device} {p w i en b : Nat} (h : pageSrc p b < 660) :
    ((causeAt p w i en b).run d).inn.calm = d.inn.calm := by
  unfold causeAt
  rw [whenD_run]
  split
  · rw [withD_run, ops_cons_run, ops_cons_run, ops_nil_run, (quiet_whenB (quiet_raise h)).inn]; rfl
  · rfl

/-- A cause of a block out of reset sets its bit. -/
theorem causeAt_sets {d : Device} (hI : d.Inv) {p w i en b : Nat} (h : pageSrc p b < 660) (hr : d.inReset p = false) (hw : w < 1024)
    (he : evReg p w = false) (hi : i < 32) (hk : (keyMask (regKey p w)).getLsbD i = true) :
    ((causeAt p w i en b).run d).regBit p w i = true := by
  unfold causeAt Device.regBit
  rw [whenD_true (by simp [hr]), withD_run, ops_cons_run, ops_cons_run, ops_nil_run, (quiet_whenB (quiet_raise h)).reg _ _ _ hw he]
  show (((setReg p w (d.reg p w ||| BitVec.ofNat 32 (2 ^ i))).run d).reg p w).toNat.testBit i = true
  rw [reg_setReg_same hI, BitVec.testBit_toNat, BitVec.getLsbD_and, BitVec.getLsbD_or, BitVec.getLsbD_ofNat, hk]
  simp [hi]

end Sys2Proof.Machine
end

