-- ==== Sys2Proof/Laws/Engine.lean ====
section
/-!
SUPPORT. The engines' shared operations: what an instruction that retires does is its body; the write of a general register with the
advance of the address; the registers of one engine after a change to it.
-/

namespace Sys2Proof.Machine

/-! ### An instruction that retires -/

theorem cmpEngine_off {d : Device} {k : Nat} {e : EngineId} {a : Access} (h : (d.cmp k).is cEn = false) :
    d.cmpEngine k e a = false := by
  unfold Device.cmpEngine
  simp [h]

/-- A comparator that does not match alone does not match with its link. -/
theorem linked_off {d : Device} {one : Nat → Bool} (k : Nat) (h : one k = false) : d.linked one k = false := by
  cases k <;> simp [Device.linked, h]

/-- No comparator being enabled, none acts. -/
theorem acting_none {d : Device} {e : EngineId} {as : List Access} (h : ∀ k, k < 8 → (d.cmp k).is cEn = false) :
    d.acting (fun k => as.any fun a => d.cmpEngine k e a) = [] := by
  unfold Device.acting
  rw [List.filter_eq_nil_iff]
  intro k hk
  have hk8 : k < 8 := List.mem_range.1 hk
  have : (as.any fun a => d.cmpEngine k e a) = false := by
    rw [List.any_eq_false]; intro a _; simp [cmpEngine_off (h k hk8)]
  have := linked_off (d := d) (one := fun k => as.any fun a => d.cmpEngine k e a) k this
  simp [this]

/-- No comparator acting, nothing is done. -/
theorem engineActions_nil (e : EngineId) (d : Device) : (engineActions e []).run d = d := by
  unfold engineActions
  simp

theorem recordHits_none {d : Device} {e : EngineId} {as : List Access} (h : ∀ k, k < 8 → (d.cmp k).is cEn = false) :
    (recordHits (d.linked fun k => as.any fun a => d.cmpEngine k e a)).run d = d := by
  unfold recordHits
  have : (List.range 8).filter (d.linked fun k => as.any fun a => d.cmpEngine k e a) = [] := by
    rw [List.filter_eq_nil_iff]
    intro k hk
    have hk8 : k < 8 := List.mem_range.1 hk
    have : (as.any fun a => d.cmpEngine k e a) = false := by
      rw [List.any_eq_false]; intro a _; simp [cmpEngine_off (h k hk8)]
    have := linked_off (d := d) (one := fun k => as.any fun a => d.cmpEngine k e a) k this
    simp [this]
  rw [this, forAll_nil_run]

/-- An instruction of an engine that retires, with no comparator enabled, has its effect. -/
theorem kExecIf_run {d : Device} {e : EngineId} {ready : Device → Bool} {stop : Bool} {as : Device → List Access} {body : Op}
    (hm : (d.en e).miss = none) (hr : ready d = true) (hn : (d.en e).noMatch = false) (h : ∀ k, k < 8 → (d.cmp k).is cEn = false) :
    (kExecIf ready e stop as body).run d = body.run d := by
  unfold kExecIf
  rw [withD_run]
  simp only [hm, hr, hn, if_true, Option.isSome_none, Bool.and_false, Bool.false_eq_true, if_false]
  split
  · rfl
  · simp only [ops_cons_run, ops_nil_run, recordHits_none h, acting_none h, engineActions_nil, List.any_nil, Bool.not_false, whenB_true]

/-- An engine that retires an instruction waits for no line. -/
theorem Retires.miss {d : Device} {e : EngineId} (h : Retires d e) : (d.en e).miss = none := by
  have := h.1
  simp only [Device.engReady, Device.engBoundary, Bool.and_eq_true, Option.isNone_iff_eq_none] at this
  exact this.1.1.1.2

theorem kExec_run {d : Device} {e : EngineId} {as : Device → List Access} {body : Op} (h : Retires d e) :
    (kExec e as body).run d = body.run d := kExecIf_run h.miss h.1 h.2.1 h.2.2

theorem kStop_run {d : Device} {e : EngineId} {as : Device → List Access} {body : Op} (h : Retires d e) :
    (kStop e as body).run d = body.run d := kExecIf_run h.miss h.1 h.2.1 h.2.2

theorem kPlain_run {d : Device} {e : EngineId} {body : Op} (h : Retires d e) : (kPlain e body).run d = body.run d := kExec_run h

/-! ### One engine's registers -/

@[simp] theorem modE_regs (e : EngineId) (f : Engine → Engine) (d : Device) : ((modE e f).run d).regs = d.regs := rfl
@[simp] theorem modE_mem (e : EngineId) (f : Engine → Engine) (d : Device) : ((modE e f).run d).mem = d.mem := rfl
@[simp] theorem modE_gpr (e : EngineId) (f : Engine → Engine) (d : Device) : ((modE e f).run d).gpr = d.gpr := rfl
@[simp] theorem modE_g (e x : EngineId) (r : GReg) (f : Engine → Engine) (d : Device) : ((modE e f).run d).g x r = d.g x r := rfl
theorem modE_inn (e : EngineId) (f : Engine → Engine) (d : Device) :
    ((modE e f).run d).inn = { d.inn with eng := d.inn.eng.set e.val (f (d.en e)) } := rfl
@[simp] theorem modE_en (e : EngineId) (f : Engine → Engine) (d : Device) : ((modE e f).run d).en e = f (d.en e) := by
  simp [Device.en, modE]
theorem modE_en_ne {e x : EngineId} (f : Engine → Engine) (d : Device) (h : e ≠ x) : ((modE e f).run d).en x = d.en x := by
  have : e.val ≠ x.val := fun hh => h (Fin.ext hh)
  simp [Device.en, modE, this]

@[simp] theorem setReg_en (p w : Nat) (v : Word) (d : Device) (e : EngineId) : ((setReg p w v).run d).en e = d.en e := rfl
@[simp] theorem setF_en (p : Nat) (f : Fld) (v : Nat) (d : Device) (e : EngineId) : ((setF p f v).run d).en e = d.en e := rfl
@[simp] theorem setG_en (x : EngineId) (r : GReg) (v : Word) (d : Device) (e : EngineId) : ((setG x r v).run d).en e = d.en e := by
  unfold Device.en; rw [setG_inn]

/-- What the write of a general register with the advance of the address leaves: all that an integer instruction does. -/
theorem writeG_spec {d : Device} (h : d.Inv) (e : EngineId) (rd : GReg) (v : Word) :
    ((writeG e rd v).run d).g e rd = (if rd = 0 then 0 else v) ∧
      (∀ x q, x ≠ e ∨ q ≠ rd → ((writeG e rd v).run d).g x q = d.g x q) ∧ ((writeG e rd v).run d).regs = d.regs ∧
      ((writeG e rd v).run d).mem = d.mem ∧
      ((writeG e rd v).run d).inn = { d.inn with eng := d.inn.eng.set e.val { d.en e with pc := (d.en e).pc + 4 } } := by
  unfold writeG nextPc
  rw [both_run]
  refine ⟨?_, fun x q hx => ?_, ?_, ?_, ?_⟩
  · rw [modE_g, g_setG_same h]
  · rw [modE_g, g_setG_ne (hx.imp Ne.symm Ne.symm)]
  · rw [modE_regs, setG_regs]
  · rw [modE_mem, setG_mem]
  · rw [modE_inn, setG_inn, setG_en]

/-! ### Floating point -/

/-- Setting FSTAT.flags leaves the trap enables. -/
theorem fsTrapEn_setFlags (v : Nat) (w : Word) : fsTrapEn.get (fsFlags.set v w) = fsTrapEn.get w := by
  have h0 : ∀ w : Word, w &&& 4294967295#32 = w := fun w => BitVec.and_allOnes (x := w)
  have := Fld.get_set_other (f := fsFlags) (g := fsTrapEn) (v := v) (w := w) (m := 4294967295#32) (h0 _) (by decide)
    ⟨by decide, by decide⟩
  rwa [h0] at this

/-- The end of a floating-point instruction none of whose flags is enabled as a trap: the flags, the destination, the address. -/
theorem fpFinish_run {d : Device} {e : EngineId} {toG : Bool} {rd : GReg} {r : Word × Nat}
    (h : r.2 &&& fsTrapEn.get (d.en e).fstat = 0) :
    (fpFinish e toG rd r).run d = (both (if toG then setG e rd r.1 else setFr e rd r.1) (nextPc e)).run
      ((modE e fun n => { n with fstat := fsFlags.set (fsFlags.get n.fstat ||| r.2) n.fstat }).run d) := by
  unfold fpFinish
  rw [ops_cons_run, ops_cons_run, ops_nil_run, withD_run, ite_run, if_neg]
  rw [modE_en]
  simp [fsTrapEn_setFlags, h]

/-- A flag enabled as a trap: the flags are set, the destination is not written, the trap is taken (R225). -/
theorem fpFinish_trap {d : Device} {e : EngineId} {toG : Bool} {rd : GReg} {r : Word × Nat}
    (h : r.2 &&& fsTrapEn.get (d.en e).fstat ≠ 0) :
    (fpFinish e toG rd r).run d = (syncTrap e 0x0E 0).run
      ((modE e fun n => { n with fstat := fsFlags.set (fsFlags.get n.fstat ||| r.2) n.fstat }).run d) := by
  unfold fpFinish
  rw [ops_cons_run, ops_cons_run, ops_nil_run, withD_run, ite_run, if_pos]
  rw [modE_en]
  simpa [fsTrapEn_setFlags] using h

/-- What the control register's write leaves of the address. -/
@[simp] theorem setCr_pc (n : Engine) (c : CReg) (v : Word) : (n.setCr c v).pc = n.pc := by cases c <;> rfl

/-! ### Traps (R213) -/

/-- A trap taken while tf is 0 saves the address and the cause, and enters the vector. -/
theorem syncTrap_en {d : Device} {e : EngineId} {c : Nat} {ea : Word} (h : esTf.get (d.en e).estat ≠ 1) :
    ((syncTrap e c ea).run d).en e = { (d.en e).endAhead with
      epc := (d.en e).pc &&& 0xFFFFFFFC, ecause := BitVec.ofNat 32 c, eaddr := ea
      estat := esTf.set 1 (esIe.set 0 (esPie.set (esIe.get (d.en e).estat) (d.en e).estat))
      pc := (d.en e).evbase + BitVec.ofNat 32 (64 * c) } := by
  unfold syncTrap
  rw [withD_run, if_neg h]
  have hd : ((dropResv e).run d).en e = d.en e := rfl
  unfold enterTrap setB incF
  simp only [ops_cons_run, ops_nil_run, setReg_en, withD_run, setF_en, modE_en, hd, Bool.false_eq_true, if_false, Nat.add_zero]

end Sys2Proof.Machine
end

