-- ==== Sys2Proof/Tests/Slice0.lean ====
section
/-!
SUPPORT. Tests: for every statement of Obligations.lean that has hypotheses, states and operands that meet those of each of its clauses
(the theorems `met_…`, one for each statement or part of one); terms that the well-formedness checks refuse; words written out from the
encodings of the spec; single steps whose expected results are the spec's.
-/

namespace Sys2Proof.Tests

-- One theorem after another: in the package as one text the many small proofs would otherwise each hold a thread.
set_option Elab.async false

open Sys2Proof Sys2Proof.Machine

/-! ### States made by operations -/

/-- A part at reset on which one free value has been used. -/
def blank : Device := { regs := [], mem := [], gpr := Vector.replicate 256 (Vector.replicate 32 0), inn := { free := 1 } }

theorem blank_inv : blank.Inv := by
  unfold Device.Inv
  exact ⟨by decide +kernel, ⟨by decide +kernel, by decide +kernel, by decide +kernel⟩⟩

/-- The state that an operation makes of it. -/
def made (o : Op) : State := { dev := o.run blank, pending := [] }

theorem made_inv (o : Op) : (made o).Inv := o.keeps _ blank_inv

/-- All domains on. -/
def powered : Op :=
  ops [setReg 18 R.PWR_DOMSTAT0 0xFFFFFFFF, setReg 18 (R.PWR_DOMSTAT0 + 1) 0xFFFFFFFF, setReg 18 (R.PWR_DOMSTAT0 + 2) 0xFFFF]
def mp (o : Op) : State := made (both powered o)

/-- Engine 5 runs. -/
def run5 : Op :=
  ops [powered, setF (engPg 5) F.ENG_STAT.state esRunning, setReg (engPg 5) 2 1, modE 5 fun n => { n with pc := 0x100, evbase := 0x1000 },
    setG 5 3 0x10040, setG 5 7 0xFFFFFFFF]

/-- Region 1 is loaded with depth 4 and runs: slot 0 is active, 1 resident, 2 empty, 3 unusable. -/
def p1 : Nat := rgnPg 1
def dep (n : Nat) : Op := setF p1 F.RGN_INFO.depth n
def run1 : Op :=
  ops [dep 4, setF p1 F.RGN_INFO.loaded 1, setF p1 (fSlot 0) slActive, setF p1 (fSlot 1) slResident, setF p1 (fSlot 2) slEmpty,
    setF p1 (fSlot 3) slUnusable, modR 1 fun g => { g with loadReset := false }]
def r1 (o : Op) : State := mp (both run1 o)
def mr (f : Region → Region) : State := r1 (modR 1 f)

/-- The part is READY and answers configuration requests. -/
def hp (o : Op) : State :=
  mp (ops [setF 0 F.DEV_STAT.ready 1, modI fun n => { n with host := { n.host with crs := false } }, o])
def hh (f : HostS → HostS) : Op := modI fun n => { n with host := f n.host }

/-- No line of any vault is remapped or under test. -/
def noMoves (d : Device) : Bool :=
  d.inn.badChunks.isEmpty && (List.finRange 64).all fun v => (d.vlt v).remap == Vector.replicate 8 none && !(d.bit (vltPg v) F.VLT_STAT.test_active)

theorem remapOf_none {d : Device} {v : VaultId} {l : Nat} (h : (d.vlt v).remap = Vector.replicate 8 none) : d.remapOf v l = none := by
  simp [Device.remapOf, h]

theorem sliceTested_off {d : Device} {v : VaultId} {l : Nat} (h : d.bit (vltPg v) F.VLT_STAT.test_active = false) :
    d.sliceTested v l = false := by
  simp [Device.sliceTested, h]

theorem made_plain (s : State) (h : noMoves s.dev = true) : PlainTier s.dev := by
  simp only [noMoves, Bool.and_eq_true, List.all_eq_true, List.isEmpty_iff, Bool.not_eq_true', beq_iff_eq] at h
  refine ⟨h.1, fun y hy => ?_⟩
  obtain ⟨hr, ht⟩ := h.2 (Fin.ofNat 64 (y / 0x4000000)) (List.mem_finRange _)
  have ho := remapOf_none (l := lineOf (y % 0x4000000)) hr
  have hs := sliceTested_off (l := lineOf (y % 0x4000000)) ht
  unfold Device.tierCell Device.vaultCell
  dsimp only
  rw [ho]
  simp only [hs, Bool.false_eq_true, if_false]
  unfold vaultBase
  simp only [Fin.ofNat]
  omega

namespace Arithmetic

def w0 : State := made run5
def w3 : State := made (both run5 (modE 5 fun n => {n with fstat := 0x1F0000, fr := (n.fr.set 3 0x7F7FFFFF).set 7 0x7F7FFFFF }))

theorem met_IntegerRegisterOps :
    ∃ (s : State) (e : EngineId), s.Inv ∧ s.Up ∧ Retires s.dev e :=
  ⟨w0, 5, made_inv _, by unfold Retires State.Up; decide +kernel⟩

theorem met_DivisionsSaturate :
    ∃ (s : State) (e : EngineId), s.Inv ∧ s.Up ∧ Retires s.dev e :=
  ⟨w0, 5, made_inv _, by unfold Retires State.Up; decide +kernel⟩

theorem met_ImmediateOps :
    ∃ (s : State) (e : EngineId), s.Inv ∧ s.Up ∧ Retires s.dev e :=
  ⟨w0, 5, made_inv _, by unfold Retires State.Up; decide +kernel⟩

theorem met_FloatOps_1 :
    (∃ (s : State) (e : EngineId) (rs1 : GReg) (rs2 : GReg), s.Inv ∧ s.Up ∧ Retires s.dev e ∧ (fp2Val Fp2Op.fadd (fsRm.get (s.dev.en e).fstat)
      (s.dev.f e rs1) (s.dev.f e rs2)).snd &&& fsTrapEn.get (s.dev.en e).fstat = 0) ∧
    (∃ (s : State) (e : EngineId) (rs1 : GReg) (rs2 : GReg), s.Inv ∧ s.Up ∧ Retires s.dev e ∧ (fp2Val Fp2Op.fsub (fsRm.get (s.dev.en e).fstat)
      (s.dev.f e rs1) (s.dev.f e rs2)).snd &&& fsTrapEn.get (s.dev.en e).fstat = 0) ∧
    (∃ (s : State) (e : EngineId) (rs1 : GReg) (rs2 : GReg), s.Inv ∧ s.Up ∧ Retires s.dev e ∧ (fp2Val Fp2Op.fmul (fsRm.get (s.dev.en e).fstat)
      (s.dev.f e rs1) (s.dev.f e rs2)).snd &&& fsTrapEn.get (s.dev.en e).fstat = 0) ∧
    (∃ (s : State) (e : EngineId) (rs1 : GReg) (rs2 : GReg), s.Inv ∧ s.Up ∧ Retires s.dev e ∧ (fp2Val Fp2Op.fdiv (fsRm.get (s.dev.en e).fstat)
      (s.dev.f e rs1) (s.dev.f e rs2)).snd &&& fsTrapEn.get (s.dev.en e).fstat = 0) ∧
    (∃ (s : State) (e : EngineId) (rs1 : GReg), s.Inv ∧ s.Up ∧ Retires s.dev e ∧ (fp1Val Fp1Op.fsqrt (fsRm.get (s.dev.en e).fstat) (s.dev.f e
      rs1)).snd &&& fsTrapEn.get (s.dev.en e).fstat = 0) ∧
    (∃ (s : State) (e : EngineId) (rs1 : GReg) (rs2 : GReg), s.Inv ∧ s.Up ∧ Retires s.dev e ∧ (fp2Val Fp2Op.fmin (fsRm.get (s.dev.en e).fstat)
      (s.dev.f e rs1) (s.dev.f e rs2)).snd &&& fsTrapEn.get (s.dev.en e).fstat = 0) :=
  ⟨⟨w0, 5, 0, 0, made_inv _, by unfold Retires State.Up; decide +kernel⟩,
    ⟨w0, 5, 0, 0, made_inv _, by unfold Retires State.Up; decide +kernel⟩,
    ⟨w0, 5, 0, 0, made_inv _, by unfold Retires State.Up; decide +kernel⟩,
    ⟨w0, 5, 0, 0, made_inv _, by unfold Retires State.Up; decide +kernel⟩,
    ⟨w0, 5, 0, made_inv _, by unfold Retires State.Up; decide +kernel⟩,
    ⟨w0, 5, 0, 0, made_inv _, by unfold Retires State.Up; decide +kernel⟩⟩

theorem met_FloatOps_2 :
    (∃ (s : State) (e : EngineId) (rs1 : GReg) (rs2 : GReg), s.Inv ∧ s.Up ∧ Retires s.dev e ∧ (fp2Val Fp2Op.fmax (fsRm.get (s.dev.en e).fstat)
      (s.dev.f e rs1) (s.dev.f e rs2)).snd &&& fsTrapEn.get (s.dev.en e).fstat = 0) ∧
    (∃ (s : State) (e : EngineId), s.Inv ∧ s.Up ∧ Retires s.dev e) ∧
    (∃ (s : State) (e : EngineId) (rs1 : GReg) (rs2 : GReg), s.Inv ∧ s.Up ∧ Retires s.dev e ∧ (fp2Val Fp2Op.fceq (fsRm.get (s.dev.en e).fstat)
      (s.dev.f e rs1) (s.dev.f e rs2)).snd &&& fsTrapEn.get (s.dev.en e).fstat = 0) ∧
    (∃ (s : State) (e : EngineId) (rs1 : GReg) (rs2 : GReg), s.Inv ∧ s.Up ∧ Retires s.dev e ∧ (fp2Val Fp2Op.fclt (fsRm.get (s.dev.en e).fstat)
      (s.dev.f e rs1) (s.dev.f e rs2)).snd &&& fsTrapEn.get (s.dev.en e).fstat = 0) ∧
    (∃ (s : State) (e : EngineId) (rs1 : GReg) (rs2 : GReg), s.Inv ∧ s.Up ∧ Retires s.dev e ∧ (fp2Val Fp2Op.fcle (fsRm.get (s.dev.en e).fstat)
      (s.dev.f e rs1) (s.dev.f e rs2)).snd &&& fsTrapEn.get (s.dev.en e).fstat = 0) ∧
    (∃ (s : State) (e : EngineId) (rs1 : GReg) (rs2 : GReg), s.Inv ∧ s.Up ∧ Retires s.dev e ∧ (fp2Val Fp2Op.fcun (fsRm.get (s.dev.en e).fstat)
      (s.dev.f e rs1) (s.dev.f e rs2)).snd &&& fsTrapEn.get (s.dev.en e).fstat = 0) :=
  ⟨⟨w0, 5, 0, 0, made_inv _, by unfold Retires State.Up; decide +kernel⟩,
    ⟨w0, 5, made_inv _, by unfold Retires State.Up; decide +kernel⟩,
    ⟨w0, 5, 0, 0, made_inv _, by unfold Retires State.Up; decide +kernel⟩,
    ⟨w0, 5, 0, 0, made_inv _, by unfold Retires State.Up; decide +kernel⟩,
    ⟨w0, 5, 0, 0, made_inv _, by unfold Retires State.Up; decide +kernel⟩,
    ⟨w0, 5, 0, 0, made_inv _, by unfold Retires State.Up; decide +kernel⟩⟩

theorem met_FloatOps_3 :
    (∃ (s : State) (e : EngineId) (rs1 : GReg), s.Inv ∧ s.Up ∧ Retires s.dev e ∧ (fp1Val Fp1Op.ftoi (fsRm.get (s.dev.en e).fstat) (s.dev.f e
      rs1)).snd &&& fsTrapEn.get (s.dev.en e).fstat = 0) ∧
    (∃ (s : State) (e : EngineId) (rs1 : GReg), s.Inv ∧ s.Up ∧ Retires s.dev e ∧ (fp1Val Fp1Op.ftou (fsRm.get (s.dev.en e).fstat) (s.dev.f e
      rs1)).snd &&& fsTrapEn.get (s.dev.en e).fstat = 0) ∧
    (∃ (s : State) (e : EngineId) (rs1 : GReg), s.Inv ∧ s.Up ∧ Retires s.dev e ∧ (fp1Val Fp1Op.itof (fsRm.get (s.dev.en e).fstat) (s.dev.g e
      rs1)).snd &&& fsTrapEn.get (s.dev.en e).fstat = 0) ∧
    (∃ (s : State) (e : EngineId) (rs1 : GReg), s.Inv ∧ s.Up ∧ Retires s.dev e ∧ (fp1Val Fp1Op.utof (fsRm.get (s.dev.en e).fstat) (s.dev.g e
      rs1)).snd &&& fsTrapEn.get (s.dev.en e).fstat = 0) ∧
    (∃ (s : State) (e : EngineId) (rs1 : GReg), s.Inv ∧ s.Up ∧ Retires s.dev e ∧ (fp1Val Fp1Op.fkind (fsRm.get (s.dev.en e).fstat) (s.dev.f e
      rs1)).snd &&& fsTrapEn.get (s.dev.en e).fstat = 0) :=
  ⟨⟨w0, 5, 0, made_inv _, by unfold Retires State.Up; decide +kernel⟩,
    ⟨w0, 5, 0, made_inv _, by unfold Retires State.Up; decide +kernel⟩,
    ⟨w0, 5, 0, made_inv _, by unfold Retires State.Up; decide +kernel⟩,
    ⟨w0, 5, 0, made_inv _, by unfold Retires State.Up; decide +kernel⟩,
    ⟨w0, 5, 0, made_inv _, by unfold Retires State.Up; decide +kernel⟩⟩

theorem met_FloatTrap :
    ∃ (s : State) (e : EngineId) (rs1 : GReg) (rs2 : GReg), s.Inv ∧ s.Up ∧ Retires s.dev e ∧ (fp2Val Fp2Op.fadd (fsRm.get (s.dev.en e).fstat)
      (s.dev.f e rs1) (s.dev.f e rs2)).snd &&& fsTrapEn.get (s.dev.en e).fstat ≠ 0 ∧ esTf.get (s.dev.en e).estat = 0 :=
  ⟨w3, 5, 3, 3, made_inv _, by unfold Retires State.Up; decide +kernel⟩

theorem met_BranchesAndJumps :
    (∃ (s : State) (e : EngineId), s.Inv ∧ s.Up ∧ Retires s.dev e) ∧
    (∃ (s : State) (e : EngineId) (rs1 : GReg) (off : BitVec 16), s.Inv ∧ s.Up ∧ Retires s.dev e ∧ BitVec.toNat (s.dev.g e rs1 + BitVec.signExtend
      32 off) % 4 = 0) :=
  ⟨⟨w0, 5, made_inv _, by unfold Retires State.Up; decide +kernel⟩,
    ⟨w0, 5, 0, 4, made_inv _, by unfold Retires State.Up; decide +kernel⟩⟩

theorem met_ControlRegisters :
    (∃ (s : State) (e : EngineId), s.Inv ∧ s.Up ∧ Retires s.dev e) ∧
    (∃ (s : State) (e : EngineId) (c : CReg), s.Inv ∧ s.Up ∧ Retires s.dev e ∧ c.readOnly = false) ∧
    (∃ (s : State) (e : EngineId) (c : CReg), s.Inv ∧ s.Up ∧ Retires s.dev e ∧ c.readOnly = true ∧ esTf.get (s.dev.en e).estat = 0) :=
  ⟨⟨w0, 5, made_inv _, by unfold Retires State.Up; decide +kernel⟩,
    ⟨w0, 5, CReg.estat, made_inv _, by unfold Retires State.Up; decide +kernel⟩,
    ⟨w0, 5, CReg.ecause, made_inv _, by unfold Retires State.Up; decide +kernel⟩⟩

end Arithmetic

namespace EngineMemory

def r5 (o : Op) : State := made (both run5 o)
/-- window 0 at 0x40000 of 64 KiB onto the memory tier from 0 -/
def win (cache wprot : Nat) : Op := ops [modE 5 fun n => {n with winA := n.winA.set 0 (BitVec.ofNat 32 (4 * 2^16 + 16 * 2^11 + wprot*32 + cache * 2 + 1)), winB := n.winB.set 0 1}, setG 5 3 0x40040]
def line1 : List (Nat × CLine) := [(0x401, {dirty := true, data := List.replicate 64 0x5A})]
def w0 : State := r5 skip
def w5 : State := r5 (setG 5 3 0x9000000)
def w6 : State := r5 (win 0 0)
def w7 : State := r5 (win 0 1)
def w8 : State := r5 (win 1 0)
def w9 : State := r5 (ops [win 1 0, modE 5 fun n => {n with dc := line1}])
def w10 : State := r5 (ops [win 0 0, modE 5 fun n => {n with sbuf := [.mem 0x40000 0x4000 [1] {}]}])
def w12 : State := r5 (ops [win 1 0, modE 5 fun n => {n with dc := line1, sbuf := [.mem 0x40000 0x4000 [1] {}]}])
def w13 : State := r5 (ops [setG 5 3 0x20300, modR 1 fun g => {g with loadReset := false, up := g.up.set 11 {q := [7,8], rd := 0}}])
def w14 : State := r5 (modI fun n => {n with resv := [(5, (itcm 5 + 0x10040)/64)]})
def w15 : State := r5 (modE 5 fun n => {n with pc := 0x80000000})
def w16 : State := r5 (modE 5 fun n => {n with pc := 0x30000})
def w18 : State := r5 (ops [win 1 0, modE 5 fun n => {n with dc := [(0x401, {dirty := false, data := List.replicate 64 0x5A})]}])
def w19 : State := r5 (modE 5 fun n => {n with estat := 4})
def w20 : State := r5 (modE 5 fun n => {n with catchBrk := true})
def w21 : State := r5 (ops [modE 5 fun n => {n with estat := 0x00010000}, setReg (engPg 5) R.ENG_IRQ 1])
def w22 : State := r5 (ops [modE 5 fun n => {n with estat := 0x00010001}, setReg (engPg 5) R.ENG_IRQ 1])
def w23 : State := r5 (modE 5 fun n => {n with nmi := true})
def w24 : State := r5 (modE 5 fun n => {n with storeErr := some (0xC, 0x40)})
def w25 : State := r5 (setF (engPg 5) F.ENG_STAT.state esParked)
def w26 : State := r5 (setF (engPg 5) F.ENG_STAT.state esParking)
def w27 : State := r5 (ops [setReg (engPg 5) 7 0x81000000, setF (engPg 5) F.ENG_WDT.exp 14])
def w28 : State := r5 (ops [setF (engPg 5) F.ENG_WDT.en 1, setF (engPg 5) F.ENG_WDT.action 0])
def w29 : State := r5 (ops [setF (engPg 5) F.ENG_WDT.en 1, setF (engPg 5) F.ENG_WDT.action 1])
def w30 : State := r5 (ops [setF (engPg 5) F.ENG_WDT.en 1, setF (engPg 5) F.ENG_WDT.action 2])
def w31 : State := r5 (ops [setF (rgnPg 1) F.RGN_INFO.loaded 1,
  modR 1 fun g => {g with loadReset := false, down := g.down.set 11 {q := [7,8], rd := 0}}])
def w32 : State := r5 (ops [modR 1 fun g => {g with loadReset := false}, modE 5 fun n => {n with miss := some (0x401, 0x40040)}])

theorem met_LoadsFromTightlyCoupledMemory :
    (∃ (s : State) (e : EngineId) (rs1 : GReg) (off : BitVec 16) (f : LineFound), s.Inv ∧ s.Up ∧ Retires s.dev e ∧ BitVec.toNat (s.dev.g e rs1 +
      BitVec.signExtend 32 off) < 131072 ∧ (s.dev.en e).sbuf = [] ∧ (s.dev.en e).tcmBad = [] ∧ f.c0 = Found.clean) ∧
    (∃ (s : State) (e : EngineId) (rs1 : GReg) (off : BitVec 16) (f : LineFound), s.Inv ∧ s.Up ∧ Retires s.dev e ∧ BitVec.toNat (s.dev.g e rs1 +
      BitVec.signExtend 32 off) < 131072 ∧ (s.dev.en e).sbuf = [] ∧ (s.dev.en e).tcmBad = [] ∧ f.c0 = Found.clean ∧ BitVec.toNat (s.dev.g e rs1 +
      BitVec.signExtend 32 off) % 2 = 0) ∧
    (∃ (s : State) (e : EngineId) (rs1 : GReg) (off : BitVec 16) (f : LineFound), s.Inv ∧ s.Up ∧ Retires s.dev e ∧ BitVec.toNat (s.dev.g e rs1 +
      BitVec.signExtend 32 off) < 131072 ∧ (s.dev.en e).sbuf = [] ∧ (s.dev.en e).tcmBad = [] ∧ f.c0 = Found.clean ∧ BitVec.toNat (s.dev.g e rs1 +
      BitVec.signExtend 32 off) % 4 = 0) :=
  ⟨⟨w0, 5, 0, 0, { }, made_inv _, by unfold Retires State.Up; decide +kernel⟩,
    ⟨w0, 5, 0, 0, { }, made_inv _, by unfold Retires State.Up; decide +kernel⟩,
    ⟨w0, 5, 0, 0, { }, made_inv _, by unfold Retires State.Up; decide +kernel⟩⟩

theorem met_StoresToTightlyCoupledMemory :
    (∃ (s : State) (e : EngineId) (rs1 : GReg) (off : BitVec 16) (f : LineFound), s.Inv ∧ s.Up ∧ Retires s.dev e ∧ BitVec.toNat (s.dev.g e rs1 +
      BitVec.signExtend 32 off) < 131072 ∧ (s.dev.en e).sbuf = [] ∧ (s.dev.en e).tcmBad = [] ∧ f.c0 = Found.clean) ∧
    (∃ (s : State) (e : EngineId) (rs1 : GReg) (off : BitVec 16) (f : LineFound), s.Inv ∧ s.Up ∧ Retires s.dev e ∧ BitVec.toNat (s.dev.g e rs1 +
      BitVec.signExtend 32 off) < 131072 ∧ (s.dev.en e).sbuf = [] ∧ (s.dev.en e).tcmBad = [] ∧ f.c0 = Found.clean ∧ BitVec.toNat (s.dev.g e rs1 +
      BitVec.signExtend 32 off) % 2 = 0) ∧
    (∃ (s : State) (e : EngineId) (rs1 : GReg) (off : BitVec 16) (f : LineFound), s.Inv ∧ s.Up ∧ Retires s.dev e ∧ BitVec.toNat (s.dev.g e rs1 +
      BitVec.signExtend 32 off) < 131072 ∧ (s.dev.en e).sbuf = [] ∧ (s.dev.en e).tcmBad = [] ∧ f.c0 = Found.clean ∧ BitVec.toNat (s.dev.g e rs1 +
      BitVec.signExtend 32 off) % 4 = 0) :=
  ⟨⟨w0, 5, 0, 0, { }, made_inv _, by unfold Retires State.Up; decide +kernel⟩,
    ⟨w0, 5, 0, 0, { }, made_inv _, by unfold Retires State.Up; decide +kernel⟩,
    ⟨w0, 5, 0, 0, { }, made_inv _, by unfold Retires State.Up; decide +kernel⟩⟩

theorem met_MisalignedAccessTraps :
    (∃ (s : State) (e : EngineId) (rs1 : GReg) (off : BitVec 16), s.Inv ∧ s.Up ∧ Retires s.dev e ∧ esTf.get (s.dev.en e).estat = 0 ∧ BitVec.toNat
      (s.dev.g e rs1 + BitVec.signExtend 32 off) % 2 = 1) ∧
    (∃ (s : State) (e : EngineId) (rs1 : GReg) (off : BitVec 16), s.Inv ∧ s.Up ∧ Retires s.dev e ∧ esTf.get (s.dev.en e).estat = 0 ∧ BitVec.toNat
      (s.dev.g e rs1 + BitVec.signExtend 32 off) % 4 ≠ 0) :=
  ⟨⟨w0, 5, 0, 27421, made_inv _, by unfold Retires State.Up; decide +kernel⟩,
    ⟨w0, 5, 0, 27421, made_inv _, by unfold Retires State.Up; decide +kernel⟩⟩

theorem met_FetchAndIllegalTraps :
    (∃ (s : State) (e : EngineId) (w : Word), s.Inv ∧ s.Up ∧ esTf.get (s.dev.en e).estat = 0 ∧ Retires s.dev e ∧ decodeKE32 w = none) ∧
    (∃ (s : State) (e : EngineId), s.Inv ∧ s.Up ∧ esTf.get (s.dev.en e).estat = 0 ∧ s.dev.engBoundary e = true ∧ (s.dev.en e).fetchCan
      FetchFault.window = true) ∧
    (∃ (s : State) (e : EngineId), s.Inv ∧ s.Up ∧ esTf.get (s.dev.en e).estat = 0 ∧ s.dev.engBoundary e = true ∧ (s.dev.en e).fetchCan
      FetchFault.bus = true) ∧
    (∃ (s : State) (e : EngineId), s.Inv ∧ s.Up ∧ esTf.get (s.dev.en e).estat = 0 ∧ s.dev.engBoundary e = true ∧ (s.dev.en e).fetchCan
      FetchFault.data = true) :=
  ⟨⟨w0, 5, 64, made_inv _, by unfold Retires State.Up; decide +kernel⟩,
    ⟨w15, 5, made_inv _, by unfold State.Up; decide +kernel⟩,
    ⟨w16, 5, made_inv _, by unfold State.Up; decide +kernel⟩,
    ⟨w0, 5, made_inv _, by unfold State.Up; decide +kernel⟩⟩

theorem met_DoubleTrapHalts :
    ∃ (s : State) (e : EngineId), s.Inv ∧ s.Up ∧ Retires s.dev e ∧ esTf.get (s.dev.en e).estat = 1 :=
  ⟨w19, 5, made_inv _, by unfold Retires State.Up; decide +kernel⟩

theorem met_LoadReservedStoreConditional :
    (∃ (s : State) (e : EngineId) (rs1 : GReg) (f : LineFound), s.Inv ∧ s.Up ∧ Retires s.dev e ∧ 65536 ≤ BitVec.toNat (s.dev.g e rs1) ∧
      BitVec.toNat (s.dev.g e rs1) < 131072 ∧ BitVec.toNat (s.dev.g e rs1) % 4 = 0 ∧ (s.dev.en e).sbuf = [] ∧ (s.dev.en e).tcmBad = [] ∧ f.c0 =
      Found.clean) ∧
    (∃ (s : State) (e : EngineId) (rs1 : GReg) (f : LineFound), s.Inv ∧ s.Up ∧ Retires s.dev e ∧ 65536 ≤ BitVec.toNat (s.dev.g e rs1) ∧
      BitVec.toNat (s.dev.g e rs1) < 131072 ∧ BitVec.toNat (s.dev.g e rs1) % 4 = 0 ∧ (s.dev.en e).sbuf = [] ∧ (s.dev.en e).tcmBad = [] ∧ f.c0 =
      Found.clean ∧ ((e : Nat), (itcm (e : Nat) + BitVec.toNat (s.dev.g e rs1)) / 64) ∈ s.dev.inn.resv) ∧
    (∃ (s : State) (e : EngineId) (rs1 : GReg) (f : LineFound), s.Inv ∧ s.Up ∧ Retires s.dev e ∧ 65536 ≤ BitVec.toNat (s.dev.g e rs1) ∧
      BitVec.toNat (s.dev.g e rs1) < 131072 ∧ BitVec.toNat (s.dev.g e rs1) % 4 = 0 ∧ (s.dev.en e).sbuf = [] ∧ (s.dev.en e).tcmBad = [] ∧ f.c0 =
      Found.clean ∧ ¬((e : Nat), (itcm (e : Nat) + BitVec.toNat (s.dev.g e rs1)) / 64) ∈ s.dev.inn.resv) :=
  ⟨⟨w0, 5, 3, { }, made_inv _, by unfold Retires State.Up; decide +kernel⟩,
    ⟨w14, 5, 3, { }, made_inv _, by unfold Retires State.Up; decide +kernel⟩,
    ⟨w0, 5, 3, { }, made_inv _, by unfold Retires State.Up; decide +kernel⟩⟩

theorem met_SystemInstructions :
    (∃ (s : State) (e : EngineId), s.Inv ∧ s.Up ∧ Retires s.dev e ∧ (s.dev.en e).sbuf = []) ∧
    (∃ (s : State) (e : EngineId), s.Inv ∧ s.Up ∧ Retires s.dev e ∧ s.dev.irqDue e ≠ 0 ∧ s.dev.irqDue e < 65536) ∧
    (∃ (s : State) (e : EngineId), s.Inv ∧ s.Up ∧ Retires s.dev e ∧ esTf.get (s.dev.en e).estat = 0) ∧
    (∃ (s : State) (e : EngineId), s.Inv ∧ s.Up ∧ Retires s.dev e ∧ esTf.get (s.dev.en e).estat = 0 ∧ (s.dev.en e).catchBrk = false) ∧
    (∃ (s : State) (e : EngineId), s.Inv ∧ s.Up ∧ Retires s.dev e ∧ (s.dev.en e).catchBrk = true ∧ (s.dev.en e).liveRuns = false) ∧
    (∃ (s : State) (e : EngineId), s.Inv ∧ s.Up ∧ Retires s.dev e ∧ (s.dev.en e).liveRuns = false) :=
  ⟨⟨w0, 5, made_inv _, by unfold Retires State.Up; decide +kernel⟩,
    ⟨w21, 5, made_inv _, by unfold Retires State.Up; decide +kernel⟩,
    ⟨w0, 5, made_inv _, by unfold Retires State.Up; decide +kernel⟩,
    ⟨w0, 5, made_inv _, by unfold Retires State.Up; decide +kernel⟩,
    ⟨w20, 5, made_inv _, by unfold Retires State.Up; decide +kernel⟩,
    ⟨w0, 5, made_inv _, by unfold Retires State.Up; decide +kernel⟩⟩

theorem met_DataCacheMaintenance :
    (∃ (s : State) (e : EngineId) (rs1 : GReg) (x : Fin 16) (a : Nat) (c : CLine), s.Inv ∧ s.Up ∧ Retires s.dev e ∧ (s.dev.en e).place
      (BitVec.toNat (s.dev.g e rs1)) = KPlace.window x a ∧ wnWprot.get (s.dev.en e).winA[(x : Nat)] = 0 ∧ (s.dev.en e).cached x a = true ∧
      (s.dev.en e).sbuf.length < 8 ∧ (s.dev.en e).dline (a / 64) = some c ∧ c.dirty = true ∧ (s.dev.en e).sbuf ≠ []) ∧
    (∃ (s : State) (e : EngineId) (rs1 : GReg) (x : Fin 16) (a : Nat) (c : CLine), s.Inv ∧ s.Up ∧ Retires s.dev e ∧ (s.dev.en e).place
      (BitVec.toNat (s.dev.g e rs1)) = KPlace.window x a ∧ wnWprot.get (s.dev.en e).winA[(x : Nat)] = 0 ∧ (s.dev.en e).cached x a = true ∧
      (s.dev.en e).sbuf.length < 8 ∧ (s.dev.en e).dline (a / 64) = some c ∧ c.dirty = false) ∧
    (∃ (s : State) (e : EngineId) (rs1 : GReg) (x : Fin 16) (a : Nat) (c : CLine), s.Inv ∧ s.Up ∧ Retires s.dev e ∧ (s.dev.en e).place
      (BitVec.toNat (s.dev.g e rs1)) = KPlace.window x a ∧ wnWprot.get (s.dev.en e).winA[(x : Nat)] = 0 ∧ (s.dev.en e).cached x a = true ∧
      (s.dev.en e).sbuf.length < 8 ∧ (s.dev.en e).dline (a / 64) = some c) ∧
    (∃ (s : State) (e : EngineId) (rs1 : GReg) (x : Fin 16) (a : Nat), s.Inv ∧ s.Up ∧ Retires s.dev e ∧ (s.dev.en e).place (BitVec.toNat (s.dev.g e
      rs1)) = KPlace.window x a ∧ wnWprot.get (s.dev.en e).winA[(x : Nat)] = 0 ∧ (s.dev.en e).cached x a = true ∧ (s.dev.en e).sbuf.length < 8 ∧
      (s.dev.en e).dline (a / 64) = none) ∧
    (∃ (s : State) (e : EngineId) (rs1 : GReg) (x : Fin 16) (a : Nat), s.Inv ∧ s.Up ∧ Retires s.dev e ∧ (s.dev.en e).place (BitVec.toNat (s.dev.g e
      rs1)) = KPlace.window x a ∧ wnWprot.get (s.dev.en e).winA[(x : Nat)] = 0 ∧ (s.dev.en e).cached x a = false) ∧
    (∃ (s : State) (e : EngineId) (rs1 : GReg) (x : Fin 16) (a : Nat), s.Inv ∧ s.Up ∧ Retires s.dev e ∧ (s.dev.en e).place (BitVec.toNat (s.dev.g e
      rs1)) = KPlace.window x a ∧ wnWprot.get (s.dev.en e).winA[(x : Nat)] = 1 ∧ esTf.get (s.dev.en e).estat = 0) ∧
    (∃ (s : State) (e : EngineId) (rs1 : GReg) (k : Nat), s.Inv ∧ s.Up ∧ Retires s.dev e ∧ (s.dev.en e).place (BitVec.toNat (s.dev.g e rs1)) ∈
      [KPlace.tcm, KPlace.reserved, KPlace.portData k, KPlace.portStat k]) ∧
    (∃ (s : State) (e : EngineId) (rs1 : GReg), s.Inv ∧ s.Up ∧ Retires s.dev e ∧ (s.dev.en e).place (BitVec.toNat (s.dev.g e rs1)) = KPlace.nowhere
      ∧ esTf.get (s.dev.en e).estat = 0) :=
  ⟨⟨w12, 5, 3, 0, 65600, { dirty := true, data := List.replicate 64 90 }, made_inv _, by unfold Retires State.Up; decide +kernel⟩,
    ⟨w18, 5, 3, 0, 65600, { dirty := false, data := List.replicate 64 90 }, made_inv _, by unfold Retires State.Up; decide +kernel⟩,
    ⟨w9, 5, 3, 0, 65600, { dirty := true, data := List.replicate 64 90 }, made_inv _, by unfold Retires State.Up; decide +kernel⟩,
    ⟨w8, 5, 3, 0, 65600, made_inv _, by unfold Retires State.Up; decide +kernel⟩,
    ⟨w6, 5, 3, 0, 65600, made_inv _, by unfold Retires State.Up; decide +kernel⟩,
    ⟨w7, 5, 3, 0, 65600, made_inv _, by unfold Retires State.Up; decide +kernel⟩,
    ⟨w0, 5, 0, 3, made_inv _, by unfold Retires State.Up; decide +kernel⟩,
    ⟨w5, 5, 3, made_inv _, by unfold Retires State.Up; decide +kernel⟩⟩

theorem met_EngineRunAndPark :
    (∃ (s : State) (e : EngineId), s.Inv ∧ s.Up ∧ PageOpen s.dev (engPg e) ∧ s.dev.rgnP (engRgn e) = 0 ∧ s.dev.engState e = esParked ∧ s.dev.fenced
      (engPg e) = false) ∧
    (∃ (s : State) (e : EngineId), s.Inv ∧ s.Up ∧ PageOpen s.dev (engPg e) ∧ s.dev.rgnP (engRgn e) = 0 ∧ s.dev.engState e = esRunning) ∧
    (∃ (s : State) (e : EngineId), s.Inv ∧ s.Up ∧ PageOpen s.dev (engPg e) ∧ s.dev.rgnP (engRgn e) = 0 ∧ s.dev.engState e = esParking ∧ (s.dev.en
      e).sbuf = [] ∧ (s.dev.en e).dc = [] ∧ s.dev.engReads e = 0) :=
  ⟨⟨w25, 5, made_inv _, by unfold PageOpen State.Up; decide +kernel⟩,
    ⟨w0, 5, made_inv _, by unfold PageOpen State.Up; decide +kernel⟩,
    ⟨w26, 5, made_inv _, by unfold PageOpen State.Up; decide +kernel⟩⟩

theorem met_EngineInterrupts :
    (∃ (s : State) (e : EngineId) (c : Nat) (a : Word), s.Inv ∧ s.Up ∧ s.dev.engRuns e = true ∧ c < 256 ∧ (s.dev.en e).storeErr = some (c, a)) ∧
    (∃ (s : State) (e : EngineId) (i : Nat), s.Inv ∧ s.Up ∧ s.dev.engRuns e = true ∧ s.dev.engState e = esRunning ∧ (s.dev.en e).nmi = false ∧
      esIe.get (s.dev.en e).estat = 1 ∧ s.dev.irqLine e = some i) ∧
    (∃ (s : State) (e : EngineId), s.Inv ∧ s.Up ∧ s.dev.engRuns e = true ∧ s.dev.engState e = esRunning ∧ (s.dev.en e).nmi = true) :=
  ⟨⟨w24, 5, 12, 64, made_inv _, by unfold State.Up; decide +kernel⟩,
    ⟨w22, 5, 0, made_inv _, by unfold State.Up; decide +kernel⟩,
    ⟨w23, 5, made_inv _, by unfold State.Up; decide +kernel⟩⟩

theorem met_EngineRegisters :
    (∃ (s : State) (e : EngineId), s.Inv ∧ s.Up ∧ PageOpen s.dev (engPg e)) ∧
    (∃ (s : State) (e : EngineId) (who : Who), s.Inv ∧ s.Up ∧ PageOpen s.dev (engPg e) ∧ s.dev.unlockedFor (engPg e) who = true ∧ s.dev.bit (engPg
      e) F.ENG_WDT.en = false) ∧
    (∃ (s : State) (e : EngineId), s.Inv ∧ s.Up ∧ PageOpen s.dev (engPg e) ∧ s.dev.wdtCounts e = true ∧ s.dev.reg (engPg e) R.ENG_WDTCNT = 0 ∧
      s.dev.fld (engPg e) F.ENG_WDT.action = 0) ∧
    (∃ (s : State) (e : EngineId), s.Inv ∧ s.Up ∧ PageOpen s.dev (engPg e) ∧ s.dev.wdtCounts e = true ∧ s.dev.reg (engPg e) R.ENG_WDTCNT = 0 ∧
      s.dev.fld (engPg e) F.ENG_WDT.action = 1) ∧
    (∃ (s : State) (e : EngineId), s.Inv ∧ s.Up ∧ PageOpen s.dev (engPg e) ∧ s.dev.wdtCounts e = true ∧ s.dev.reg (engPg e) R.ENG_WDTCNT = 0 ∧
      s.dev.fld (engPg e) F.ENG_WDT.action = 2) ∧
    (∃ (s : State) (e : EngineId), s.Inv ∧ s.Up ∧ PageOpen s.dev (engPg e) ∧ s.dev.engState e = esParked) ∧
    (∃ (s : State) (e : EngineId), s.Inv ∧ s.Up ∧ PageOpen s.dev (engPg e) ∧ s.dev.engState e ≠ esParked) :=
  ⟨⟨w0, 5, made_inv _, by unfold PageOpen State.Up; decide +kernel⟩,
    ⟨w27, 5, Who.host, made_inv _, by unfold PageOpen State.Up; decide +kernel⟩,
    ⟨w28, 5, made_inv _, by unfold PageOpen State.Up; decide +kernel⟩,
    ⟨w29, 5, made_inv _, by unfold PageOpen State.Up; decide +kernel⟩,
    ⟨w30, 5, made_inv _, by unfold PageOpen State.Up; decide +kernel⟩,
    ⟨w25, 5, made_inv _, by unfold PageOpen State.Up; decide +kernel⟩,
    ⟨w0, 5, made_inv _, by unfold PageOpen State.Up; decide +kernel⟩⟩

theorem met_StreamingPortsAndFills :
    (∃ (s : State) (r : RegionId) (k : Fin 32) (w : Word) (rest : List Word), s.Inv ∧ s.Up ∧ s.dev.enable r = true ∧ s.dev.running r = true ∧
      (s.dev.rg r).spec = none ∧ (s.dev.rg r).down[(k : Nat)].q = w :: rest ∧ (s.dev.en (Fin.ofNat 256 (4 * (r : Nat) + (k : Nat) / 8))).sbuf = []) ∧
    (∃ (s : State) (r : RegionId) (k : Fin 32), s.Inv ∧ s.Up ∧ s.dev.enable r = true ∧ (s.dev.rg r).loadReset = false ∧ (s.dev.rg r).up[(k :
      Nat)].q.length < 16) ∧
    (∃ (s : State) (r : RegionId) (e : EngineId) (l : Nat) (va : Word) (f : LineFound), s.Inv ∧ s.Up ∧ s.dev.enable r = true ∧ (s.dev.en e).miss =
      some (l, va) ∧ s.dev.engRuns e = true ∧ s.dev.engReturns e = true ∧ (s.dev.en e).sbuf = [] ∧ (s.dev.en e).dc = [] ∧ inTier (64 * l) = true ∧
      s.dev.memWaits false (64 * l) = false ∧ s.dev.memGate (engRgn e) ((e : Nat)) false (64 * l) = Status.ok ∧ f.c0 = Found.clean ∧ f.c1 =
      Found.clean ∧ s.dev.inn.badChunks = []) :=
  ⟨⟨w31, 1, 11, 7, [8], made_inv _, by unfold State.Up; decide +kernel⟩,
    ⟨w13, 1, 0, made_inv _, by unfold State.Up; decide +kernel⟩,
    ⟨w32, 1, 5, 1025, 262208, { }, made_inv _, by unfold State.Up; decide +kernel⟩⟩

theorem met_WindowsAndPorts :
    (∃ (s : State) (e : EngineId) (rs1 : GReg) (off : BitVec 16) (op : LoadOp), s.Inv ∧ s.Up ∧ Retires s.dev e ∧ BitVec.toNat (s.dev.g e rs1 +
      BitVec.signExtend 32 off) % loadSize op = 0 ∧ (s.dev.en e).place (BitVec.toNat (s.dev.g e rs1 + BitVec.signExtend 32 off)) = KPlace.nowhere ∧
      esTf.get (s.dev.en e).estat = 0) ∧
    (∃ (s : State) (e : EngineId) (rs1 : GReg) (off : BitVec 16) (f : LineFound) (op : LoadOp) (x : Fin 16) (t : Nat) (c : CLine), s.Inv ∧ s.Up ∧
      Retires s.dev e ∧ BitVec.toNat (s.dev.g e rs1 + BitVec.signExtend 32 off) % loadSize op = 0 ∧ (s.dev.en e).place (BitVec.toNat (s.dev.g e rs1
      + BitVec.signExtend 32 off)) = KPlace.window x t ∧ (s.dev.en e).cached x t = true ∧ (s.dev.en e).dline (t / 64) = some c ∧ f.c0 ≠
      Found.uncorrectable) ∧
    (∃ (s : State) (e : EngineId) (rs1 : GReg) (off : BitVec 16) (op : LoadOp) (x : Fin 16) (t : Nat), s.Inv ∧ s.Up ∧ Retires s.dev e ∧
      BitVec.toNat (s.dev.g e rs1 + BitVec.signExtend 32 off) % loadSize op = 0 ∧ (s.dev.en e).place (BitVec.toNat (s.dev.g e rs1 +
      BitVec.signExtend 32 off)) = KPlace.window x t ∧ (s.dev.en e).cached x t = true ∧ (s.dev.en e).dline (t / 64) = none ∧ ¬t / 64 ∈ (s.dev.en
      e).fills ∧ s.dev.readRoom e = true) ∧
    (∃ (s : State) (e : EngineId) (rs1 : GReg) (off : BitVec 16) (f : LineFound) (op : LoadOp) (x : Fin 16) (t : Nat), s.Inv ∧ PlainTier s.dev ∧
      s.Up ∧ Retires s.dev e ∧ BitVec.toNat (s.dev.g e rs1 + BitVec.signExtend 32 off) % loadSize op = 0 ∧ (s.dev.en e).place (BitVec.toNat
      (s.dev.g e rs1 + BitVec.signExtend 32 off)) = KPlace.window x t ∧ (s.dev.en e).cached x t = false ∧ (s.dev.en e).sbuf = [] ∧ inTier t = true
      ∧ s.dev.memWaits false t = false ∧ s.dev.memGate (engRgn e) ((e : Nat)) false t = Status.ok ∧ f.c0 = Found.clean ∧ f.c1 = Found.clean) ∧
    (∃ (s : State) (e : EngineId) (rs1 : GReg) (off : BitVec 16) (op : StoreOp), s.Inv ∧ s.Up ∧ Retires s.dev e ∧ BitVec.toNat (s.dev.g e rs1 +
      BitVec.signExtend 32 off) % storeSize op = 0 ∧ (s.dev.en e).place (BitVec.toNat (s.dev.g e rs1 + BitVec.signExtend 32 off)) = KPlace.nowhere
      ∧ esTf.get (s.dev.en e).estat = 0) ∧
    (∃ (s : State) (e : EngineId) (rs1 : GReg) (off : BitVec 16) (op : StoreOp) (x : Fin 16) (t : Nat), s.Inv ∧ s.Up ∧ Retires s.dev e ∧
      BitVec.toNat (s.dev.g e rs1 + BitVec.signExtend 32 off) % storeSize op = 0 ∧ (s.dev.en e).place (BitVec.toNat (s.dev.g e rs1 +
      BitVec.signExtend 32 off)) = KPlace.window x t ∧ wnWprot.get (s.dev.en e).winA[(x : Nat)] = 1 ∧ esTf.get (s.dev.en e).estat = 0) ∧
    (∃ (s : State) (e : EngineId) (rs1 : GReg) (off : BitVec 16) (f : LineFound) (op : StoreOp) (x : Fin 16) (t : Nat) (c : CLine), s.Inv ∧ s.Up ∧
      Retires s.dev e ∧ BitVec.toNat (s.dev.g e rs1 + BitVec.signExtend 32 off) % storeSize op = 0 ∧ (s.dev.en e).place (BitVec.toNat (s.dev.g e
      rs1 + BitVec.signExtend 32 off)) = KPlace.window x t ∧ wnWprot.get (s.dev.en e).winA[(x : Nat)] = 0 ∧ (s.dev.en e).cached x t = true ∧
      (s.dev.en e).dline (t / 64) = some c ∧ f.c0 ≠ Found.uncorrectable) ∧
    (∃ (s : State) (e : EngineId) (rs1 : GReg) (off : BitVec 16) (op : StoreOp) (x : Fin 16) (t : Nat), s.Inv ∧ s.Up ∧ Retires s.dev e ∧
      BitVec.toNat (s.dev.g e rs1 + BitVec.signExtend 32 off) % storeSize op = 0 ∧ (s.dev.en e).place (BitVec.toNat (s.dev.g e rs1 +
      BitVec.signExtend 32 off)) = KPlace.window x t ∧ wnWprot.get (s.dev.en e).winA[(x : Nat)] = 0 ∧ (s.dev.en e).cached x t = false ∧ (s.dev.en
      e).sbuf ≠ [] ∧ (s.dev.en e).sbuf.length < 8) ∧
    (∃ (s : State) (e : EngineId) (rs1 : GReg) (off : BitVec 16) (f : LineFound) (op : StoreOp) (x : Fin 16) (t : Nat), s.Inv ∧ PlainTier s.dev ∧
      s.Up ∧ Retires s.dev e ∧ BitVec.toNat (s.dev.g e rs1 + BitVec.signExtend 32 off) % storeSize op = 0 ∧ (s.dev.en e).place (BitVec.toNat
      (s.dev.g e rs1 + BitVec.signExtend 32 off)) = KPlace.window x t ∧ wnWprot.get (s.dev.en e).winA[(x : Nat)] = 0 ∧ (s.dev.en e).cached x t =
      false ∧ (s.dev.en e).sbuf = [] ∧ inTier t = true ∧ s.dev.memWaits true t = false ∧ s.dev.memGate (engRgn e) ((e : Nat)) true t = Status.ok ∧
      f.c0 = Found.clean ∧ f.c1 = Found.clean) ∧
    (∃ (s : State) (e : EngineId) (rs1 : GReg) (off : BitVec 16) (p : Nat), s.Inv ∧ s.Up ∧ Retires s.dev e ∧ (s.dev.en e).place (BitVec.toNat
      (s.dev.g e rs1 + BitVec.signExtend 32 off)) = KPlace.portData p ∧ (s.dev.rg (Fin.ofNat 64 (engRgn e))).up[↑(fifoIndex e p)].engWords ≠ 0) ∧
    (∃ (s : State) (e : EngineId) (rs1 : GReg) (off : BitVec 16) (p : Nat), s.Inv ∧ s.Up ∧ Retires s.dev e ∧ (s.dev.en e).place (BitVec.toNat
      (s.dev.g e rs1 + BitVec.signExtend 32 off)) = KPlace.portData p ∧ (s.dev.en e).sbuf = [] ∧ 0 < (s.dev.rg (Fin.ofNat 64 (engRgn
      e))).down[↑(fifoIndex e p)].engFree) :=
  ⟨⟨w5, 5, 3, 0, LoadOp.lb, made_inv _, by unfold Retires State.Up; decide +kernel⟩,
    ⟨w9, 5, 3, 0, { }, LoadOp.lb, 0, 65600, { dirty := true, data := List.replicate 64 90 }, made_inv _, by
      unfold Retires State.Up; decide +kernel⟩,
    ⟨w8, 5, 3, 0, LoadOp.lb, 0, 65600, made_inv _, by unfold Retires State.Up; decide +kernel⟩,
    ⟨w6, 5, 3, 0, { }, LoadOp.lb, 0, 65600, made_inv _, made_plain _ (by decide +kernel), by unfold Retires State.Up; decide +kernel⟩,
    ⟨w5, 5, 3, 0, StoreOp.sb, made_inv _, by unfold Retires State.Up; decide +kernel⟩,
    ⟨w7, 5, 3, 0, StoreOp.sb, 0, 65600, made_inv _, by unfold Retires State.Up; decide +kernel⟩,
    ⟨w9, 5, 3, 0, { }, StoreOp.sb, 0, 65600, { dirty := true, data := List.replicate 64 90 }, made_inv _, by
      unfold Retires State.Up; decide +kernel⟩,
    ⟨w10, 5, 3, 0, StoreOp.sb, 0, 65600, made_inv _, by unfold Retires State.Up; decide +kernel⟩,
    ⟨w6, 5, 3, 0, { }, StoreOp.sb, 0, 65600, made_inv _, made_plain _ (by decide +kernel), by unfold Retires State.Up; decide +kernel⟩,
    ⟨w13, 5, 3, 0, 3, made_inv _, by unfold Retires State.Up; decide +kernel⟩,
    ⟨w13, 5, 3, 0, 3, made_inv _, by unfold Retires State.Up; decide +kernel⟩⟩

end EngineMemory

namespace Registers

def p5 := engPg 5
def w0 : State := mp skip
def w1 : State := mp (setF p5 fClkEn 0)
def w4 : State := mp (setF p5 fHalf 1)
def w5 : State := mp (ops [setF p5 fOwner 0x101, setF p5 fHalf 1])
def w7 : State := mp (ops [setF p5 fOwner 0x100, setF p5 fOpen 1])
def w9 : State := mp (ops [setBit p5 wPend 0, setBit p5 wMask 0, setF (routePage 197) F.EVT_CTL.deliver_en 1])
def w10 : State := mp (ops [setBit p5 wPend 0, setBit p5 wMask 0, setF 35 F.HP_RING0CTL.en 1, setF (routePage 197) F.EVT_CTL.deliver_en 1])
def w11 : State := mp (ops [setBit p5 wPend 0, setReg p5 wRaw 1, setF 35 F.HP_RING0CTL.en 1, setF (routePage 197) F.EVT_CTL.deliver_en 1,
  modI fun n => {n with withheld := [197]}])
def w13 : State := mp (ops [setBit p5 wPend 0, setReg p5 wMask 0, setF 35 F.HP_RING0CTL.en 1, setF (routePage 197) F.EVT_CTL.deliver_en 1,
  modI fun n => {n with withheld := [197]}])

theorem met_RegisterWrites :
    (∃ (s : State) (e : EngineId) (who : Who), s.Inv ∧ (∀ (w : Nat), s.dev.regReach who (engPg e) w = true) ∧ s.Up ∧ s.dev.bit (engPg e) fHalf =
      false ∧ PageOpen s.dev (engPg e)) ∧
    (∃ (s : State) (e : EngineId) (who : Who), s.Inv ∧ (∀ (w : Nat), s.dev.regReach who (engPg e) w = true) ∧ s.Up ∧ s.dev.bit (engPg e) fHalf =
      false ∧ s.dev.gated (engPg e) = true) :=
  ⟨⟨w0, 5, Who.host, made_inv _, fun _ => rfl, by unfold PageOpen State.Up; decide +kernel⟩,
    ⟨w1, 5, Who.host, made_inv _, fun _ => rfl, by unfold State.Up; decide +kernel⟩⟩

theorem met_RegisterReads :
    (∃ (s : State) (who : Who) (l : LaneId), s.Inv ∧ (∀ (p w : Nat), s.dev.regReach who p w = true) ∧ s.Up ∧ PageOpen s.dev (lnPg l) ∧
      s.dev.latched who.id (lnPg l) R.LN_EBUF = none) ∧
    (∃ (s : State) (who : Who), s.Inv ∧ (∀ (p w : Nat), s.dev.regReach who p w = true) ∧ s.Up ∧ s.dev.inReset 16 = false ∧ s.dev.gated 16 = false ∧
      s.dev.latched who.id 16 R.TIME_LO = none) :=
  ⟨⟨w0, Who.host, Fin.ofNat 48 0, made_inv _, fun _ _ => rfl, by unfold PageOpen State.Up; decide +kernel⟩,
    ⟨w0, Who.host, made_inv _, fun _ _ => rfl, by unfold State.Up; decide +kernel⟩⟩

theorem met_PageUnlock :
    (∃ (s : State) (who : Who) (p : Fin 1024), s.Inv ∧ (∀ (w : Nat), s.dev.regReach who ((p : Nat)) w = true) ∧ s.Up ∧ (kindOf (p : Nat)).isSome =
      true ∧ s.dev.bit ((p : Nat)) fOpen = false ∧ s.dev.bit ((p : Nat)) fHalf = false) ∧
    (∃ (s : State) (who : Who) (p : Fin 1024), s.Inv ∧ (∀ (w : Nat), s.dev.regReach who ((p : Nat)) w = true) ∧ s.Up ∧ (kindOf (p : Nat)).isSome =
      true ∧ s.dev.bit ((p : Nat)) fOpen = false ∧ s.dev.bit ((p : Nat)) fHalf = true ∧ s.dev.fld ((p : Nat)) fOwner = who.id ∧ s.dev.mayUnlock ((p
      : Nat)) who = true) ∧
    (∃ (s : State) (who : Who) (p : Fin 1024) (key : BitVec 16), s.Inv ∧ (∀ (w : Nat), s.dev.regReach who ((p : Nat)) w = true) ∧ s.Up ∧ (kindOf (p
      : Nat)).isSome = true ∧ s.dev.bit ((p : Nat)) fOpen = false ∧ s.dev.bit ((p : Nat)) fHalf = true ∧ key ≠ 23100 ∧ key ≠ 42435) ∧
    (∃ (s : State) (who : Who) (p : Fin 1024), s.Inv ∧ (∀ (w : Nat), s.dev.regReach who ((p : Nat)) w = true) ∧ s.Up ∧ (kindOf (p : Nat)).isSome =
      true ∧ s.dev.bit ((p : Nat)) fOpen = true ∧ s.dev.bit ((p : Nat)) fHalf = false ∧ s.dev.fld ((p : Nat)) fOwner = who.id) ∧
    (∃ (s : State) (who : Who) (p : Fin 1024), s.Inv ∧ (∀ (w : Nat), s.dev.regReach who ((p : Nat)) w = true) ∧ s.Up ∧ (kindOf (p : Nat)).isSome =
      true ∧ s.dev.bit ((p : Nat)) fOpen = true ∧ s.dev.bit ((p : Nat)) fHalf = false ∧ ¬s.dev.fld ((p : Nat)) fOwner = who.id) ∧
    (∃ (s : State) (who : Who) (p : Fin 1024), s.Inv ∧ (∀ (w : Nat), s.dev.regReach who ((p : Nat)) w = true) ∧ s.Up ∧ (kindOf (p : Nat)).isSome =
      true) :=
  ⟨⟨w0, Who.host, 512 + 5, made_inv _, fun _ => rfl, by unfold State.Up; decide +kernel⟩,
    ⟨w5, Who.steward, 512 + 5, made_inv _, fun _ => rfl, by unfold State.Up; decide +kernel⟩,
    ⟨w4, Who.host, 512 + 5, 7, made_inv _, fun _ => rfl, by unfold State.Up; decide +kernel⟩,
    ⟨w7, Who.host, 512 + 5, made_inv _, fun _ => rfl, by unfold State.Up; decide +kernel⟩,
    ⟨w7, Who.steward, 512 + 5, made_inv _, fun _ => rfl, by unfold State.Up; decide +kernel⟩,
    ⟨w0, Who.host, 512 + 5, made_inv _, fun _ => rfl, by unfold State.Up; decide +kernel⟩⟩

theorem met_GatesAndReset :
    (∃ (s : State) (who : Who) (v : VaultId), s.Inv ∧ (∀ (w : Nat), s.dev.regReach who (vltPg v) w = true) ∧ s.Up) ∧
    (∃ (s : State) (who : Who) (v : VaultId), s.Inv ∧ (∀ (w : Nat), s.dev.regReach who (vltPg v) w = true) ∧ s.Up ∧ PageOpen s.dev (vltPg v)) :=
  ⟨⟨w0, Who.host, 1, made_inv _, fun _ => rfl, by unfold State.Up; decide +kernel⟩,
    ⟨w0, Who.host, 1, made_inv _, fun _ => rfl, by unfold PageOpen State.Up; decide +kernel⟩⟩

theorem met_EventDelivery :
    (∃ (s : State) (who : Who) (e : EngineId), s.Inv ∧ (∀ (w : Nat), s.dev.regReach who (engPg e) w = true) ∧ s.Up ∧ s.dev.gated (engPg e) = false) ∧
    (∃ (s : State) (who : Who) (e : EngineId) (x : Word), s.Inv ∧ (∀ (w : Nat), s.dev.regReach who (engPg e) w = true) ∧ s.Up ∧ s.dev.gated (engPg
      e) = false ∧ s.dev.regBit (engPg e) wPend 0 = true ∧ s.dev.regBit (engPg e) wMask 0 = true ∧ BitVec.getLsbD x 0 = false ∧ s.dev.bit
      (routePage (192 + (e : Nat))) F.EVT_CTL.deliver_en = true ∧ s.dev.canTake (192 + (e : Nat)) = true) ∧
    (∃ (s : State) (who : Who) (e : EngineId) (x : Word), s.Inv ∧ (∀ (w : Nat), s.dev.regReach who (engPg e) w = true) ∧ s.Up ∧ s.dev.gated (engPg
      e) = false ∧ s.dev.regBit (engPg e) wPend 0 = true ∧ s.dev.regBit (engPg e) wMask 0 = true ∧ BitVec.getLsbD x 0 = false ∧ s.dev.bit
      (routePage (192 + (e : Nat))) F.EVT_CTL.deliver_en = true ∧ s.dev.canTake (192 + (e : Nat)) = false) ∧
    (∃ (s : State) (who : Who) (e : EngineId), s.Inv ∧ (∀ (w : Nat), s.dev.regReach who (engPg e) w = true) ∧ s.Up ∧ s.dev.gated (engPg e) = false
      ∧ s.dev.inn.withheld = [192 + (e : Nat)] ∧ s.dev.canTake (192 + (e : Nat)) = true ∧ s.dev.deliverable (192 + (e : Nat)) = true) ∧
    (∃ (s : State) (who : Who) (e : EngineId), s.Inv ∧ (∀ (w : Nat), s.dev.regReach who (engPg e) w = true) ∧ s.Up ∧ s.dev.gated (engPg e) = false
      ∧ s.dev.inn.withheld = [192 + (e : Nat)] ∧ s.dev.canTake (192 + (e : Nat)) = true ∧ s.dev.deliverable (192 + (e : Nat)) = false) :=
  ⟨⟨w0, Who.host, 5, made_inv _, fun _ => rfl, by unfold State.Up; decide +kernel⟩,
    ⟨w10, Who.host, 5, 0, made_inv _, fun _ => rfl, by unfold State.Up; decide +kernel⟩,
    ⟨w9, Who.host, 5, 0, made_inv _, fun _ => rfl, by unfold State.Up; decide +kernel⟩,
    ⟨w13, Who.host, 5, made_inv _, fun _ => rfl, by unfold State.Up; decide +kernel⟩,
    ⟨w11, Who.host, 5, made_inv _, fun _ => rfl, by unfold State.Up; decide +kernel⟩⟩

theorem met_RoutesAndForcedEvents :
    (∃ (s : State) (who : Who) (src : Fin 660) (x : Word), s.Inv ∧ (∀ (p w : Nat), s.dev.regReach who p w = true) ∧ s.Up ∧ srcNmiFixed (src : Nat)
      = false ∧ s.dev.bit (routePage (src : Nat)) fHalf = false ∧ (BitVec.toNat x / 2 ^ 30 ≠ 3 ∨ (src : Nat) < 192 ∧ (src : Nat) % 3 = 2)) ∧
    (∃ (s : State) (who : Who) (src : Fin 660) (x : Word), s.Inv ∧ (∀ (p w : Nat), s.dev.regReach who p w = true) ∧ s.Up ∧ srcNmiFixed (src : Nat)
      = false ∧ s.dev.bit (routePage (src : Nat)) fHalf = false ∧ BitVec.toNat x / 2 ^ 30 = 3 ∧ ¬((src : Nat) < 192 ∧ (src : Nat) % 3 = 2)) ∧
    (∃ (s : State) (who : Who) (src : Fin 660), s.Inv ∧ (∀ (p w : Nat), s.dev.regReach who p w = true) ∧ s.Up ∧ srcNmiFixed (src : Nat) = false ∧
      s.dev.bit (routePage (src : Nat)) fHalf = false) :=
  ⟨⟨w0, Who.host, 192 + 5, 0, made_inv _, fun _ _ => rfl, by unfold State.Up; decide +kernel⟩,
    ⟨w0, Who.host, 192 + 5, 4294967295, made_inv _, fun _ _ => rfl, by unfold State.Up; decide +kernel⟩,
    ⟨w0, Who.host, 192 + 5, made_inv _, fun _ _ => rfl, by unfold State.Up; decide +kernel⟩⟩

end Registers

namespace Contexts

def q0 : SwReq := {cls := .port, slot := 1}
def q3 : SwReq := {cls := .port, slot := 3}
def w0 : State := r1 skip
def w2 : State := mr (fun g => {g with cuts := [75], contend := [(0,75)]})
def w3 : State := r1 (modI fun n => {n with rstTree := (true, true)})
def w6 : State := r1 (ops [setF p1 F.RGN_CTXCFG.port_en 1, modR 1 fun g => {g with held := some q0}])
def w7 : State := r1 (ops [setF p1 F.RGN_CTXSEL.pend 1, setF p1 F.RGN_CTXSEL.next_slot 1, modR 1 fun g => {g with regReq := some 1}])
def w8 : State := mr (fun g => {g with armed := some (1, 1), devtime := 1})
def w10 : State := r1 (ops [modI (fun n => {n with stopAt := some 1, devtime := 7})])
def w13 : State := mr (fun g => {g with held := some q3})
def w14 : State := r1 (ops [modR 1 fun g => {g with held := some q0}, modI fun n => {n with grants := List.replicate 16 0}])
def w15 : State := mr (fun g => {g with committed := some q0})
def w17 : State := mr (fun g => {g with grow := some 12})
def w21 : State := r1 (ops [setF p1 fOwner 0x100, setF p1 fOpen 1])
def w23 : State := mr (fun g => {g with fetch := some ⟨0, 2, false⟩})
def w24 : State := mr (fun g => {g with fetch := some ⟨0, 2, true⟩})
def w25 : State := r1 (ops [setF p1 F.RGN_HAMPER.size 2, setF p1 F.RGN_HAMPER.entries 2, setBytes (hamperEntry 1 4 0) [1, 4],
  modR 1 fun g => {g with fetch := some ⟨0, 2, false⟩}])

theorem met_RegionFaultStates :
    (∃ (s : State) (r : RegionId) (x : Nat), s.Inv ∧ s.Up ∧ PageOpen s.dev (rgnPg r) ∧ 32 ≤ x % 40 ∧ x < 46080 ∧ ¬x ∈ (s.dev.rg r).cuts ∧
      s.dev.running r = true) ∧
    (∃ (s : State) (r : RegionId), s.Inv ∧ s.Up ∧ PageOpen s.dev (rgnPg r) ∧ (s.dev.rg r).contendIn (s.dev.active r) = []) ∧
    (∃ (s : State) (r : RegionId) (x : Nat), s.Inv ∧ s.Up ∧ PageOpen s.dev (rgnPg r) ∧ s.dev.running r = true ∧ (s.dev.rg r).contend =
      [(s.dev.active r, x)]) ∧
    (∃ (s : State) (r : RegionId), s.Inv ∧ s.Up ∧ PageOpen s.dev (rgnPg r) ∧ (s.dev.rg r).test = false) ∧
    (∃ (s : State) (r : RegionId) (i : Fin 288) (j : Fin 288), s.Inv ∧ s.Up ∧ PageOpen s.dev (rgnPg r) ∧ (s.dev.rg r).test = false ∧ ((i : Nat) + 1
      = (j : Nat) ∨ (j : Nat) + 1 = (i : Nat))) ∧
    (∃ (s : State) (r : RegionId) (c : Fin 4) (i : Fin 288) (j : Fin 288), s.Inv ∧ s.Up ∧ PageOpen s.dev (rgnPg r) ∧ (s.dev.rg r).test = false ∧ i
      ≠ j ∧ (¬((i : Nat) + 1 = (j : Nat) ∨ (j : Nat) + 1 = (i : Nat))) ∧ s.dev.depth r = 4 ∧ s.dev.slot r (Fin.ofNat 8 (c : Nat)) = slResident) ∧
    (∃ (s : State) (r : RegionId), s.Inv ∧ s.Up ∧ PageOpen s.dev (rgnPg r)) :=
  ⟨⟨w0, 1, 75, made_inv _, by unfold PageOpen State.Up; decide +kernel⟩,
    ⟨w0, 1, made_inv _, by unfold PageOpen State.Up; decide +kernel⟩,
    ⟨w2, 1, 75, made_inv _, by unfold PageOpen State.Up; decide +kernel⟩,
    ⟨w0, 1, made_inv _, by unfold PageOpen State.Up; decide +kernel⟩,
    ⟨w0, 1, 3, 4, made_inv _, by unfold PageOpen State.Up; decide +kernel⟩,
    ⟨w0, 1, 1, 3, 9, made_inv _, by unfold PageOpen State.Up; decide +kernel⟩,
    ⟨w0, 1, made_inv _, by unfold PageOpen State.Up; decide +kernel⟩⟩

theorem met_ResetTrees :
    (∃ (s : State) (r : RegionId), s.Inv ∧ s.Up ∧ s.dev.running r = true ∧ sparseWf (fun _ => false) (s.dev.rg r).ff = true ∧ s.dev.inn.rstTree =
      (false, false)) ∧
    (∃ (s : State) (r : RegionId), s.Inv ∧ s.Up ∧ s.dev.running r = true ∧ s.dev.inn.rstTree = (true, true)) :=
  ⟨⟨w0, 1, made_inv _, by unfold State.Up; decide +kernel⟩,
    ⟨w3, 1, made_inv _, by unfold State.Up; decide +kernel⟩⟩

theorem met_SwitchRequests :
    (∃ (s : State) (r : RegionId), s.Inv ∧ s.Up ∧ PageOpen s.dev (rgnPg r) ∧ s.dev.running r = true ∧ (s.dev.rg r).spec = none ∧ (s.dev.rg
      r).aborting = none ∧ (s.dev.rg r).held = none ∧ s.dev.bit (rgnPg r) F.RGN_CTXCFG.port_en = true) ∧
    (∃ (s : State) (r : RegionId), s.Inv ∧ s.Up ∧ PageOpen s.dev (rgnPg r) ∧ s.dev.running r = true ∧ (s.dev.rg r).spec = none ∧ (s.dev.rg
      r).aborting = none ∧ (s.dev.rg r).held ≠ none ∧ s.dev.bit (rgnPg r) F.RGN_CTXCFG.port_en = true) ∧
    (∃ (s : State) (r : RegionId), s.Inv ∧ s.Up ∧ PageOpen s.dev (rgnPg r) ∧ s.dev.running r = true ∧ (s.dev.rg r).spec = none ∧ (s.dev.rg
      r).aborting = none) ∧
    (∃ (s : State) (r : RegionId) (slot : SlotId), s.Inv ∧ s.Up ∧ PageOpen s.dev (rgnPg r) ∧ s.dev.running r = true ∧ (s.dev.rg r).spec = none ∧
      (s.dev.rg r).aborting = none ∧ (s.dev.rg r).held = none ∧ (s.dev.rg r).regReq = some slot) :=
  ⟨⟨w0, 1, made_inv _, by unfold PageOpen State.Up; decide +kernel⟩,
    ⟨w6, 1, made_inv _, by unfold PageOpen State.Up; decide +kernel⟩,
    ⟨w0, 1, made_inv _, by unfold PageOpen State.Up; decide +kernel⟩,
    ⟨w7, 1, 1, made_inv _, by unfold PageOpen State.Up; decide +kernel⟩⟩

theorem met_TimedSwitches :
    (∃ (s : State) (r : RegionId) (slot : SlotId) (t : Nat), s.Inv ∧ s.Up ∧ s.dev.inReset (rgnPg r) = false ∧ (s.dev.rg r).spec = none ∧ (s.dev.rg
      r).held = none ∧ s.dev.running r = true ∧ (s.dev.rg r).armed = some (slot, t) ∧ 48 * t ≤ 48 * (s.dev.rg r).devtime + 2 * s.dev.period48 r) ∧
    (∃ (s : State) (r : RegionId) (t : Nat), s.Inv ∧ s.Up ∧ s.dev.inReset (rgnPg r) = false ∧ (s.dev.rg r).spec = none ∧ (s.dev.rg r).held = none ∧
      s.dev.inn.stopAt = some t ∧ t ≤ s.dev.now ∧ s.dev.rgnP (r : Nat) = 0 ∧ (s.dev.rg r).test = false) :=
  ⟨⟨w8, 1, 1, 1, made_inv _, by unfold State.Up; decide +kernel⟩,
    ⟨w10, 1, 1, made_inv _, by unfold State.Up; decide +kernel⟩⟩

theorem met_SwitchEdges :
    (∃ (s : State) (r : RegionId) (q : SwReq), s.Inv ∧ s.Up ∧ s.dev.inReset (rgnPg r) = false ∧ q.opening = none ∧ q.abort = none ∧ (s.dev.rg
      r).held = some q ∧ (s.dev.rg r).committed = none ∧ s.dev.missCause r q = none ∧ s.dev.governorGrants r q = true) ∧
    (∃ (s : State) (r : RegionId) (q : SwReq), s.Inv ∧ s.Up ∧ s.dev.inReset (rgnPg r) = false ∧ q.opening = none ∧ q.abort = none ∧ (s.dev.rg
      r).held = some q ∧ (s.dev.rg r).committed = none ∧ s.dev.missCause r q = none ∧ s.dev.governorGrants r q = false) ∧
    (∃ (s : State) (r : RegionId) (q : SwReq) (c : Nat), s.Inv ∧ s.Up ∧ s.dev.inReset (rgnPg r) = false ∧ q.opening = none ∧ q.abort = none ∧
      (s.dev.rg r).held = some q ∧ (s.dev.rg r).committed = none ∧ s.dev.missCause r q = some c ∧ q.cls ≠ SwClass.stop ∧ q.cls ≠ SwClass.safe) ∧
    (∃ (s : State) (r : RegionId) (q : SwReq), s.Inv ∧ s.Up ∧ s.dev.inReset (rgnPg r) = false ∧ q.opening = none ∧ q.abort = none ∧ (s.dev.rg
      r).committed = some q ∧ s.dev.active r ≠ q.slot ∧ (∀ (k : Nat), k < 8 → (s.dev.cmp k).is cEn = false)) :=
  ⟨⟨w6, 1, q0, made_inv _, by unfold State.Up; decide +kernel⟩,
    ⟨w14, 1, q0, made_inv _, by unfold State.Up; decide +kernel⟩,
    ⟨w13, 1, q3, 2, made_inv _, by unfold State.Up; decide +kernel⟩,
    ⟨w15, 1, q0, made_inv _, by unfold State.Up; decide +kernel⟩⟩

theorem met_HamperAndFetch :
    (∃ (s : State) (r : RegionId) (who : Who) (size : Fin 16), s.Inv ∧ s.Up ∧ PageOpen s.dev (rgnPg r) ∧ s.dev.unlockedFor (rgnPg r) who = true ∧
      (size : Nat) ≤ 12 ∧ (s.dev.rg r).fetch = none ∧ (s.dev.rg r).grow = none) ∧
    (∃ (s : State) (r : RegionId) (size : Fin 16), s.Inv ∧ s.Up ∧ PageOpen s.dev (rgnPg r) ∧ s.dev.depth r ∈ [2, 4, 8] ∧ (s.dev.rg r).grow = some
      (size : Nat)) ∧
    (∃ (s : State) (r : RegionId) (slot : SlotId), s.Inv ∧ s.Up ∧ PageOpen s.dev (rgnPg r) ∧ s.dev.fetchRefusal r slot = none) ∧
    (∃ (s : State) (r : RegionId) (slot : SlotId) (c : Nat), s.Inv ∧ s.Up ∧ PageOpen s.dev (rgnPg r) ∧ s.dev.fetchRefusal r slot = some c) ∧
    (∃ (s : State) (r : RegionId) (f : LineFound) (x : Fetch), s.Inv ∧ s.Up ∧ PageOpen s.dev (rgnPg r) ∧ (s.dev.rg r).fetch = some x ∧
      s.dev.inn.badChunks = [] ∧ f.c0 = Found.clean ∧ f.c1 = Found.clean ∧ s.dev.entryOk r x.entry = true) ∧
    (∃ (s : State) (r : RegionId) (f : LineFound) (x : Fetch), s.Inv ∧ s.Up ∧ PageOpen s.dev (rgnPg r) ∧ (s.dev.rg r).fetch = some x ∧
      s.dev.inn.badChunks = [] ∧ f.c0 = Found.clean ∧ f.c1 = Found.clean ∧ s.dev.entryOk r x.entry = false) ∧
    (∃ (s : State) (r : RegionId) (f : LineFound) (x : Fetch), s.Inv ∧ s.Up ∧ PageOpen s.dev (rgnPg r) ∧ (s.dev.rg r).fetch = some x ∧
      s.dev.inn.badChunks = [] ∧ x.entry < s.dev.fld (rgnPg r) F.RGN_HAMPER.entries ∧ f.c0 = Found.uncorrectable) ∧
    (∃ (s : State) (r : RegionId) (x : Fetch), s.Inv ∧ s.Up ∧ PageOpen s.dev (rgnPg r) ∧ (s.dev.rg r).fetch = some x ∧ s.dev.inn.badChunks = [] ∧
      x.headerOk = true) ∧
    (∃ (s : State) (r : RegionId) (x : Fetch), s.Inv ∧ s.Up ∧ PageOpen s.dev (rgnPg r) ∧ (s.dev.rg r).fetch = some x ∧ s.dev.inn.badChunks = []) :=
  ⟨⟨w21, 1, Who.host, 0, made_inv _, by unfold PageOpen State.Up; decide +kernel⟩,
    ⟨w17, 1, 12, made_inv _, by unfold PageOpen State.Up; decide +kernel⟩,
    ⟨w0, 1, 1, made_inv _, by unfold PageOpen State.Up; decide +kernel⟩,
    ⟨w0, 1, 7, 3, made_inv _, by unfold PageOpen State.Up; decide +kernel⟩,
    ⟨w25, 1, { }, { entry := 0, slot := 2 }, made_inv _, by unfold PageOpen State.Up; decide +kernel⟩,
    ⟨w23, 1, { }, { entry := 0, slot := 2 }, made_inv _, by unfold PageOpen State.Up; decide +kernel⟩,
    ⟨w25, 1, { c0 := Found.uncorrectable }, { entry := 0, slot := 2 }, made_inv _, by unfold PageOpen State.Up; decide +kernel⟩,
    ⟨w24, 1, { entry := 0, slot := 2, headerOk := true }, made_inv _, by unfold PageOpen State.Up; decide +kernel⟩,
    ⟨w23, 1, { entry := 0, slot := 2 }, made_inv _, by unfold PageOpen State.Up; decide +kernel⟩⟩

end Contexts

namespace Speculation

def qo : SwReq := {cls := .port, slot := 0, opening := some 1}
def sp0 : Spec := {pred := 1, prior := 0, ckpt := ⟨[(3,true)],[],0,0,0⟩}
def sp1 : Spec := {sp0 with log := [⟨5,0,40,4,0x123456789⟩]}
def be (c : Bool) (l : Nat) : BorderEntry := ⟨c, l⟩
def sr (x : SpecReg) (n : Nat) : Op := modR 1 fun g => {g with specReg := some (x, n)}
def spo (x : Spec) : Op := modR 1 fun g => {g with spec := some x}
def w0 : State := r1 skip
def w1 : State := r1 (spo sp0)
def w4 : State := r1 (modR 1 fun g => {g with committed := some qo, ff := [(3,true)]})
def w6 : State := r1 (modR 1 fun g => {g with border := [be true 5, be true 6]})
def w9 : State := r1 (ops [spo sp0, setF p1 F.RGN_SPECSTAT.stalled 1, setF p1 F.RGN_SPECWIN.stall_limit 3])
def w10 : State := r1 (sr (.opn 2) 2)
def w11 : State := r1 (ops [sr (.opn 2) 1, setF p1 F.RGN_SPECCTL.pred_slot 1])
def w12 : State := r1 (ops [spo sp1, sr .commit 1])
def w14 : State := r1 (ops [spo sp0, sr .abort 1, setF p1 F.RGN_SPECCTL.corr_slot 2])

theorem met_SpeculationOpens :
    (∃ (s : State) (r : RegionId), s.Inv ∧ s.Up ∧ PageOpen s.dev (rgnPg r) ∧ s.dev.running r = true ∧ s.dev.bit (rgnPg r) F.RGN_SPECCTL.port_en =
      true ∧ (s.dev.rg r).spec = none ∧ (s.dev.rg r).held = none) ∧
    (∃ (s : State) (r : RegionId), s.Inv ∧ s.Up ∧ PageOpen s.dev (rgnPg r) ∧ s.dev.running r = true ∧ s.dev.bit (rgnPg r) F.RGN_SPECCTL.port_en =
      true ∧ (s.dev.rg r).spec ≠ none) ∧
    (∃ (s : State) (r : RegionId) (pred : SlotId), s.Inv ∧ s.Up ∧ PageOpen s.dev (rgnPg r) ∧ s.dev.running r = true ∧ (pred : Nat) < s.dev.depth r) ∧
    (∃ (s : State) (r : RegionId) (src : Nat), s.Inv ∧ s.Up ∧ PageOpen s.dev (rgnPg r) ∧ s.dev.running r = true ∧ (s.dev.rg r).spec = none ∧
      (s.dev.rg r).held = none ∧ (s.dev.rg r).aborting = none ∧ (s.dev.rg r).regReq = none ∧ (s.dev.rg r).specReg = some (SpecReg.opn src, 2)) ∧
    (∃ (s : State) (r : RegionId) (src : Nat), s.Inv ∧ s.Up ∧ PageOpen s.dev (rgnPg r) ∧ s.dev.running r = true ∧ (s.dev.rg r).spec = none ∧
      (s.dev.rg r).held = none ∧ (s.dev.rg r).aborting = none ∧ (s.dev.rg r).regReq = none ∧ (s.dev.rg r).specReg = some (SpecReg.opn src, 1)) ∧
    (∃ (s : State) (r : RegionId) (q : SwReq) (src : Nat), s.Inv ∧ s.Up ∧ PageOpen s.dev (rgnPg r) ∧ s.dev.running r = true ∧ (s.dev.rg
      r).committed = some q ∧ q.opening = some src ∧ src < 4 ∧ q.slot = s.dev.active r) :=
  ⟨⟨w0, 1, made_inv _, by unfold PageOpen State.Up; decide +kernel⟩,
    ⟨w1, 1, made_inv _, by unfold PageOpen State.Up; decide +kernel⟩,
    ⟨w0, 1, 1, made_inv _, by unfold PageOpen State.Up; decide +kernel⟩,
    ⟨w10, 1, 2, made_inv _, by unfold PageOpen State.Up; decide +kernel⟩,
    ⟨w11, 1, 2, made_inv _, by unfold PageOpen State.Up; decide +kernel⟩,
    ⟨w4, 1, qo, 1, made_inv _, by unfold PageOpen State.Up; decide +kernel⟩⟩

theorem met_SpeculationResolves :
    (∃ (s : State) (r : RegionId) (sp : Spec), s.Inv ∧ s.Up ∧ PageOpen s.dev (rgnPg r) ∧ s.dev.running r = true ∧ (s.dev.rg r).spec = some sp ∧
      s.dev.bit (rgnPg r) F.RGN_SPECCTL.port_en = true ∧ (s.dev.rg r).specReg ≠ some (SpecReg.abort, 1)) ∧
    (∃ (s : State) (r : RegionId) (sp : Spec), s.Inv ∧ s.Up ∧ PageOpen s.dev (rgnPg r) ∧ s.dev.running r = true ∧ (s.dev.rg r).spec = some sp) ∧
    (∃ (s : State) (r : RegionId) (sp : Spec), s.Inv ∧ s.Up ∧ PageOpen s.dev (rgnPg r) ∧ s.dev.running r = true ∧ (s.dev.rg r).spec = some sp ∧
      s.dev.bit (rgnPg r) F.RGN_SPECCTL.port_en = true) ∧
    (∃ (s : State) (r : RegionId) (corr : SlotId) (sp : Spec), s.Inv ∧ s.Up ∧ PageOpen s.dev (rgnPg r) ∧ s.dev.running r = true ∧ (s.dev.rg r).spec
      = some sp ∧ (corr : Nat) < s.dev.depth r) ∧
    (∃ (s : State) (r : RegionId) (sp : Spec), s.Inv ∧ s.Up ∧ PageOpen s.dev (rgnPg r) ∧ s.dev.running r = true ∧ (s.dev.rg r).spec = some sp ∧
      s.dev.bit (rgnPg r) F.RGN_SPECSTAT.stalled = false ∧ (s.dev.rg r).specReg = some (SpecReg.commit, 1)) ∧
    (∃ (s : State) (r : RegionId) (sp : Spec), s.Inv ∧ s.Up ∧ PageOpen s.dev (rgnPg r) ∧ s.dev.running r = true ∧ (s.dev.rg r).spec = some sp ∧
      s.dev.bit (rgnPg r) F.RGN_SPECSTAT.stalled = false ∧ (s.dev.rg r).specReg = some (SpecReg.abort, 1)) ∧
    (∃ (s : State) (r : RegionId) (sp : Spec), s.Inv ∧ s.Up ∧ PageOpen s.dev (rgnPg r) ∧ s.dev.running r = true ∧ (s.dev.rg r).spec = some sp ∧
      s.dev.bit (rgnPg r) F.RGN_SPECSTAT.stalled = true ∧ s.dev.fld (rgnPg r) F.RGN_SPECWIN.stall_limit ≠ 0) :=
  ⟨⟨w1, 1, sp0, made_inv _, by unfold PageOpen State.Up; decide +kernel⟩,
    ⟨w1, 1, sp0, made_inv _, by unfold PageOpen State.Up; decide +kernel⟩,
    ⟨w1, 1, sp0, made_inv _, by unfold PageOpen State.Up; decide +kernel⟩,
    ⟨w1, 1, 1, sp0, made_inv _, by unfold PageOpen State.Up; decide +kernel⟩,
    ⟨w12, 1, sp1, made_inv _, by unfold PageOpen State.Up; decide +kernel⟩,
    ⟨w14, 1, sp0, made_inv _, by unfold PageOpen State.Up; decide +kernel⟩,
    ⟨w9, 1, sp0, made_inv _, by unfold PageOpen State.Up; decide +kernel⟩⟩

theorem met_SpeculationBuffers :
    (∃ (s : State) (r : RegionId) (sp : Spec), s.Inv ∧ s.Up ∧ PageOpen s.dev (rgnPg r) ∧ s.dev.running r = true ∧ (s.dev.rg r).spec = some sp) ∧
    (∃ (s : State) (r : RegionId) (sp : Spec), s.Inv ∧ s.Up ∧ PageOpen s.dev (rgnPg r) ∧ s.dev.running r = true ∧ (s.dev.rg r).spec = some sp ∧
      s.dev.enable r = true) ∧
    (∃ (s : State) (r : RegionId), s.Inv ∧ s.Up ∧ PageOpen s.dev (rgnPg r) ∧ s.dev.running r = true ∧ (s.dev.rg r).spec = none ∧ (s.dev.rg
      r).aborting = none ∧ (s.dev.rg r).frozen = false ∧ (s.dev.rg r).specReg = none ∧ (s.dev.rg r).border = []) ∧
    (∃ (s : State) (r : RegionId) (e : BorderEntry) (rest : List BorderEntry), s.Inv ∧ e.lines ≠ (s.dev.rg r).delivered &&& (s.dev.cfg r
      (s.dev.active r)).bufferedMask ∧ s.Up ∧ PageOpen s.dev (rgnPg r) ∧ s.dev.running r = true ∧ (s.dev.rg r).spec = none ∧ (s.dev.rg r).aborting
      = none ∧ (s.dev.rg r).frozen = false ∧ (s.dev.rg r).specReg = none ∧ (s.dev.rg r).border = e :: rest ∧ e.committed = true) :=
  ⟨⟨w1, 1, sp0, made_inv _, by unfold PageOpen State.Up; decide +kernel⟩,
    ⟨w1, 1, sp0, made_inv _, by unfold PageOpen State.Up; decide +kernel⟩,
    ⟨w0, 1, made_inv _, by unfold PageOpen State.Up; decide +kernel⟩,
    ⟨w6, 1, { committed := true, lines := 5 }, [be true 6], made_inv _, (by rw [show (w6.dev.rg 1).delivered = 0 from rfl, Nat.zero_and]; simp), by
      unfold PageOpen State.Up; decide +kernel⟩⟩

end Speculation

namespace Images

def le (n v : Nat) : List Byte := (List.range n).map fun i => BitVec.ofNat 8 (v / 256^i)
def sec (kind region index depth off stored : Nat) (h : List Byte := List.replicate 32 0) : List Byte :=
  le 2 kind ++ [BitVec.ofNat 8 region, BitVec.ofNat 8 index, BitVec.ofNat 8 depth, 0, 0, 0] ++ le 8 off ++ le 4 stored ++ le 4 0 ++ le 8 0 ++ h
/-- header of an image of a kind -/
def img (kind : Nat) (secs : List (List Byte)) (len : Nat) (port := 0xFF) : List Byte :=
  let n := secs.length
  let h := le 4 0x4D494C4D ++ le 2 1 ++ [BitVec.ofNat 8 kind, 0] ++ le 2 0x2405 ++ le 2 1 ++ [2, BitVec.ofNat 8 port] ++ le 2 n ++ le 8 0x77 ++ le 4 5 ++ le 4 0 ++ List.replicate 16 0 ++ le 8 len ++ le 4 0x100 ++ le 4 (0x100 + 64*n) 
  let b := h ++ List.replicate (0x100 - h.length) 0 ++ secs.flatten
  b ++ List.replicate (len - b.length) 0
/-- REGION section of region 1, at 0x1000 -/
def imR (h : List Byte := List.replicate 32 0) : List Byte := img 3 [sec 2 1 0 4 0x1000 64 h] 0x1040
def imC : List Byte := img 3 [sec 2 1 0 4 0x1000 64] 0x1040 0
def ml (l : Loader) : Op := modI fun n => {n with loader := l}
def mL (l : Loader) : State := mp (ml l)
def cmd (op : Nat) : HostCmd := { q := 1, cid := 7, opcode := op, flags := 2, target := 1, haddr := 0x2000, daddr := 0, length := 64, p0 := 0, p1 := 0, zeroOk := true, sqHead := 0}
def ver : Loader := {src := some 2, bytes := imR, headerOk := true, verified := true}
def hdr (_ n t : Nat) : List Byte := le 4 0x4E494843 ++ [BitVec.ofNat 8 n, BitVec.ofNat 8 t] ++ List.replicate 10 0
def rst1 : Op := modR 1 fun g => {g with loadReset := true, rel := some 0x77, relNow := true}
def w0 : State := mp skip
def w1 : State := mp (modI fun n => {n with cmds := [cmd 0x10], host := {n.host with busMaster := true}})
def w2 : State := mL {src := some 2, bytes := imR, headerOk := true}
def w3 : State := mL ver
def w6 : State := mL {ver with writing := true}
def w10 : State := r1 (both rst1 (setF p1 (fSlot 0) slResident))
def w11 : State := r1 rst1
def w12 : State := mp (ops [ml {ver with idx := 1, engines := [5]}, setF (engPg 5) F.ENG_CTL.auto_start 1])
def w13 : State := mL {chainIn := hdr 0 2 3 ++ [1,2]}
def w14 : State := mL {chainIn := hdr 0 2 3 ++ [1,2], src := some 0}
def w15 : State := mL {chain := some (1,3), own := List.replicate 256 0}
def w16 : State := mL {chain := some (2,3), own := imR}
def w17 : State := mL {chainIn := hdr 0 0 3}
def w18 : State := mL {chain := some (1,3), own := imC}
def w19 : State := mL {chain := some (2,3), own := imC}
def w20 : State := mp (ops [ml {chain := some (2,3), own := imC}, setF (lnkPg 0) F.LNK_STAT.state psUp])

theorem met_ImagesAreChecked :
    (∃ (s : State) (q : QueueId) (cid : BitVec 16) (c : HostCmd), s.Inv ∧ s.Up ∧ s.dev.bufferOpen = true ∧ s.dev.cmdAt ((q : Nat)) cid.toNat 16 =
      some c) ∧
    (∃ (s : State) (q : QueueId) (cid : BitVec 16) (c : HostCmd), s.Inv ∧ s.Up ∧ s.dev.bufferOpen = true ∧ s.dev.cmdAt ((q : Nat)) cid.toNat 16 =
      some c ∧ c.zeroOk = true ∧ c.flags = 2 ∧ s.dev.ldr.src = none ∧ c.length < 256) ∧
    (∃ (s : State), s.Inv ∧ s.Up ∧ s.dev.ldr.src = some 2 ∧ s.dev.ldr.rejected = false ∧ s.dev.ldr.headerOk = true ∧ s.dev.ldr.verified = false ∧
      imgSigOff s.dev.ldr.bytes + 3732 ≤ s.dev.ldr.bytes.length ∧ s.dev.forbid = false ∧ manifestOk s.dev.ldr.bytes = true ∧ imgKind
      s.dev.ldr.bytes ≠ 2) ∧
    (∃ (s : State), s.Inv ∧ s.Up ∧ s.dev.ldr.src ≠ none ∧ s.dev.ldr.rejected = false ∧ s.dev.ldr.headerOk = true ∧ s.dev.ldr.verified = true ∧
      s.dev.ldr.writing = false ∧ s.dev.ldr.idx < imgSections s.dev.ldr.bytes ∧ (sectionOf s.dev.ldr.bytes s.dev.ldr.idx).offset + (sectionOf
      s.dev.ldr.bytes s.dev.ldr.idx).stored ≤ s.dev.ldr.bytes.length ∧ s.dev.forbid = false ∧ s.dev.secSkipped (sectionOf s.dev.ldr.bytes
      s.dev.ldr.idx) (secRegions s.dev.ldr.bytes (sectionOf s.dev.ldr.bytes s.dev.ldr.idx)) = false ∧ s.dev.entryFetched (sectionOf s.dev.ldr.bytes
      s.dev.ldr.idx) (s.dev.targets (sectionOf s.dev.ldr.bytes s.dev.ldr.idx) (secRegions s.dev.ldr.bytes (sectionOf s.dev.ldr.bytes
      s.dev.ldr.idx))) = false ∧ (∀ (r : RegionId), r ∈ s.dev.targets (sectionOf s.dev.ldr.bytes s.dev.ldr.idx) (secRegions s.dev.ldr.bytes
      (sectionOf s.dev.ldr.bytes s.dev.ldr.idx)) → (s.dev.rg r).test = false)) :=
  ⟨⟨w1, 1, 7, cmd 16, made_inv _, by unfold State.Up; decide +kernel⟩,
    ⟨w1, 1, 7, cmd 16, made_inv _, by unfold State.Up; decide +kernel⟩,
    ⟨w2, made_inv _, by unfold State.Up; decide +kernel⟩,
    ⟨w3, made_inv _, by unfold State.Up; decide +kernel⟩⟩

theorem met_LoadingRegions :
    (∃ (s : State) (r : RegionId), s.Inv ∧ s.Up ∧ s.dev.ldr.writing = true ∧ (sectionOf s.dev.ldr.bytes s.dev.ldr.idx).kind = 2 ∧ secRegions
      s.dev.ldr.bytes (sectionOf s.dev.ldr.bytes s.dev.ldr.idx) = [r] ∧ s.dev.rgnP (r : Nat) = 0) ∧
    (∃ (s : State) (r : RegionId), s.Inv ∧ s.Up ∧ s.dev.ldr.writing = true ∧ (sectionOf s.dev.ldr.bytes s.dev.ldr.idx).kind = 2 ∧ secRegions
      s.dev.ldr.bytes (sectionOf s.dev.ldr.bytes s.dev.ldr.idx) = [r] ∧ s.dev.rgnP (r : Nat) = 0 ∧ s.dev.ldr.src ≠ none ∧ s.dev.ldr.rejected =
      false ∧ s.dev.ldr.headerOk = true ∧ ¬(r : Nat) ∈ s.dev.ldr.bad ∧ (∀ (y : RegionId), (s.dev.rg y).filled = []) ∧ (s.dev.rg r).loadReset = true
      ∧ (sectionOf s.dev.ldr.bytes s.dev.ldr.idx).depth ∈ [2, 4, 8]) ∧
    (∃ (s : State) (r : RegionId) (id : Nat), s.Inv ∧ s.Up ∧ (s.dev.rg r).rel = some id ∧ (s.dev.rg r).relNow = true ∧ s.dev.rgnP (r : Nat) = 0 ∧
      s.dev.slot r (s.dev.rg r).startSlot = slResident) ∧
    (∃ (s : State) (r : RegionId) (id : Nat), s.Inv ∧ s.Up ∧ (s.dev.rg r).rel = some id ∧ (s.dev.rg r).relNow = true ∧ s.dev.rgnP (r : Nat) = 0 ∧
      s.dev.slot r (s.dev.rg r).startSlot ≠ slResident) ∧
    (∃ (s : State) (e : EngineId), s.Inv ∧ s.Up ∧ s.dev.ldr.src ≠ none ∧ s.dev.ldr.rejected = false ∧ s.dev.ldr.verified = true ∧ s.dev.ldr.writing
      = false ∧ imgSections s.dev.ldr.bytes ≤ s.dev.ldr.idx ∧ s.dev.ldr.failed = false ∧ s.dev.ldr.engines = [(e : Nat)] ∧ s.dev.ldr.badEngines =
      [] ∧ s.dev.bit (engPg e) F.ENG_CTL.auto_start = true ∧ s.dev.engState e = esParked ∧ s.dev.rgnP (engRgn e) = 0 ∧ s.dev.fenced (engPg e) =
      false) ∧
    (∃ (s : State) (r : RegionId), s.Inv ∧ s.Up ∧ PageOpen s.dev (rgnPg r)) :=
  ⟨⟨w6, 1, made_inv _, by unfold State.Up; decide +kernel⟩,
    ⟨w6, 1, made_inv _, by unfold State.Up; decide +kernel⟩,
    ⟨w10, 1, 119, made_inv _, by unfold State.Up; decide +kernel⟩,
    ⟨w11, 1, 119, made_inv _, by unfold State.Up; decide +kernel⟩,
    ⟨w12, 5, made_inv _, by unfold State.Up; decide +kernel⟩,
    ⟨w0, 1, made_inv _, by unfold PageOpen State.Up; decide +kernel⟩⟩

theorem met_ChainStreams :
    (∃ (s : State), s.Inv ∧ s.Up ∧ 16 ≤ s.dev.ldr.chainIn.length ∧ s.dev.ldr.chain = none ∧ numAt s.dev.ldr.chainIn 0 4 = 1313425475 ∧ numAt
      s.dev.ldr.chainIn 4 1 ≠ 0 ∧ numAt s.dev.ldr.chainIn 4 1 ≤ numAt s.dev.ldr.chainIn 5 1 ∧ s.dev.ldr.src = none ∧ s.dev.ldr.chainIn.length <
      272) ∧
    (∃ (s : State), s.Inv ∧ s.Up ∧ 16 ≤ s.dev.ldr.chainIn.length ∧ s.dev.ldr.chain = none ∧ numAt s.dev.ldr.chainIn 0 4 = 1313425475 ∧ numAt
      s.dev.ldr.chainIn 4 1 ≠ 0 ∧ numAt s.dev.ldr.chainIn 4 1 ≤ numAt s.dev.ldr.chainIn 5 1 ∧ (s.dev.ldr.src = some 0 ∨ s.dev.ldr.src = some 1)) ∧
    (∃ (s : State), s.Inv ∧ s.Up ∧ 16 ≤ s.dev.ldr.chainIn.length ∧ s.dev.ldr.chain = none ∧ ¬(numAt s.dev.ldr.chainIn 0 4 = 1313425475 ∧ numAt
      s.dev.ldr.chainIn 4 1 ≠ 0 ∧ numAt s.dev.ldr.chainIn 4 1 ≤ numAt s.dev.ldr.chainIn 5 1)) ∧
    (∃ (s : State), s.Inv ∧ s.Up ∧ (s.dev.ldr.chainIn.length < 16 ∨ s.dev.ldr.chain ≠ none)) ∧
    (∃ (s : State) (k : Nat) (m : Nat), s.Inv ∧ s.Up ∧ s.dev.ldr.chain = some (k, m) ∧ 256 ≤ s.dev.ldr.own.length ∧ s.dev.ldr.forwarded = false ∧
      headerCause s.dev.ldr.own 2 = 1) ∧
    (∃ (s : State) (k : Nat) (m : Nat), s.Inv ∧ s.Up ∧ s.dev.ldr.chain = some (k, m) ∧ 256 ≤ s.dev.ldr.own.length ∧ s.dev.ldr.forwarded = false ∧
      headerCause s.dev.ldr.own 2 ≠ 1 ∧ chainDone s.dev.ldr = true ∧ k = 1 ∧ s.dev.ldr.fwd = []) ∧
    (∃ (s : State) (k : Nat) (m : Nat), s.Inv ∧ s.Up ∧ s.dev.ldr.chain = some (k, m) ∧ 256 ≤ s.dev.ldr.own.length ∧ s.dev.ldr.forwarded = false ∧
      headerCause s.dev.ldr.own 2 ≠ 1 ∧ chainDone s.dev.ldr = true ∧ 1 < k ∧ 12 ≤ imgPort s.dev.ldr.own ∧ s.dev.ldr.fwd = [] ∧ s.dev.ldr.chainIn =
      []) ∧
    (∃ (s : State) (k : Nat) (m : Nat), s.Inv ∧ s.Up ∧ s.dev.ldr.chain = some (k, m) ∧ 256 ≤ s.dev.ldr.own.length ∧ s.dev.ldr.forwarded = false ∧
      headerCause s.dev.ldr.own 2 ≠ 1 ∧ chainDone s.dev.ldr = true ∧ 1 < k ∧ imgPort s.dev.ldr.own < 12 ∧ s.dev.lnkState (Fin.ofNat 12 (imgPort
      s.dev.ldr.own)) ≠ psUp) ∧
    (∃ (s : State) (k : Nat) (m : Nat), s.Inv ∧ s.Up ∧ s.dev.ldr.chain = some (k, m) ∧ 256 ≤ s.dev.ldr.own.length ∧ s.dev.ldr.forwarded = false ∧
      headerCause s.dev.ldr.own 2 ≠ 1 ∧ chainDone s.dev.ldr = true ∧ 1 < k ∧ imgPort s.dev.ldr.own < 12 ∧ s.dev.lnkState (Fin.ofNat 12 (imgPort
      s.dev.ldr.own)) = psUp ∧ s.dev.ldr.fwd = [] ∧ s.dev.ldr.chainIn = []) :=
  ⟨⟨w13, made_inv _, by unfold State.Up; decide +kernel⟩,
    ⟨w14, made_inv _, by unfold State.Up; decide +kernel⟩,
    ⟨w17, made_inv _, by unfold State.Up; decide +kernel⟩,
    ⟨w0, made_inv _, by unfold State.Up; decide +kernel⟩,
    ⟨w15, 1, 3, made_inv _, by unfold State.Up; decide +kernel⟩,
    ⟨w18, 1, 3, made_inv _, by unfold State.Up; decide +kernel⟩,
    ⟨w16, 2, 3, made_inv _, by unfold State.Up; decide +kernel⟩,
    ⟨w19, 2, 3, made_inv _, by unfold State.Up; decide +kernel⟩,
    ⟨w20, 2, 3, made_inv _, by unfold State.Up; decide +kernel⟩⟩

end Images

namespace Vaults

def q (w : Bool) : HeldReq := .vp 9 w 5 (2^64-1) (List.replicate 64 3)
def pk : Packet := {kind := 0, cls := 1, tag := 4, src := 0x144, dev := 0, addr := vaultBase 1 + 64*9, be := 2^64-1, word := 0, data := [], exit := 1, pos := 1, out := true}
def v1 : Nat := vltPg 1
def w0 : State := mp skip
def w1 : State := r1 skip
def w2 : State := mr (fun g => {g with vp := [q false], loadReset := false})
def w4 : State := mr (fun g => {g with vp := [q true]})
def w5 : State := mp (modI fun n => {n with vault := n.vault.set 1 {filling := true}})
def w7 : State := mp (ops [setF v1 fOwner 0x100, setF v1 fOpen 1])
def w8 : State := mp (ops [setF v1 fOwner 0x100, setF v1 fOpen 1,
  modI fun n => {n with vault := n.vault.set 1 {remap := n.vault[1].remap.set 5 (some (3, 9))}}])
def w10 : State := mp (modI fun n => {n with net := [pk]})
def w11 : State := mr (fun g => {g with vpEnded := [q false]})

theorem met_VerticalPort :
    (∃ (s : State) (r : RegionId) (tag : Fin 32), s.Inv ∧ s.Up ∧ s.dev.running r = true ∧ s.dev.enable r = true ∧ (s.dev.rg r).spec = none ∧
      (s.dev.rg r).vp.length < 32 ∧ (∀ (x : HeldReq), x ∈ (s.dev.rg r).vp → x.vpTag ≠ some (tag : Nat))) ∧
    (∃ (s : State) (r : RegionId) (tag : Fin 32), s.Inv ∧ s.Up ∧ s.dev.running r = true ∧ s.dev.enable r = true ∧ (s.dev.rg r).spec = none ∧
      (s.dev.rg r).vp.length < 32 ∧ (∃ x, x ∈ (s.dev.rg r).vp ∧ x.vpTag = some (tag : Nat))) ∧
    (∃ (s : State) (r : RegionId) (line : Fin 1048576) (write : Bool) (tag : Fin 32) (be : Nat) (data : List Byte), s.Inv ∧ s.Up ∧ s.dev.enable r =
      true ∧ (s.dev.vlt r).filling = false ∧ (s.dev.rg r).vp = [HeldReq.vp ((line : Nat)) write ((tag : Nat)) be data] ∧ (s.dev.rg r).vpEnded = []
      ∧ s.dev.inn.badChunks = [] ∧ write = false) ∧
    (∃ (s : State) (r : RegionId) (line : Fin 1048576) (write : Bool) (tag : Fin 32) (be : Nat) (data : List Byte), s.Inv ∧ s.Up ∧ s.dev.enable r =
      true ∧ (s.dev.vlt r).filling = false ∧ (s.dev.rg r).vp = [HeldReq.vp ((line : Nat)) write ((tag : Nat)) be data] ∧ (s.dev.rg r).vpEnded = []
      ∧ s.dev.inn.badChunks = [] ∧ write = true ∧ be = 2 ^ 64 - 1 ∧ s.dev.inHamper (vaultBase (r : Nat) + 64 * (line : Nat)) = false ∧
      s.dev.remapOf r (line : Nat) = none ∧ s.dev.sliceTested r (line : Nat) = false) ∧
    (∃ (s : State) (r : RegionId) (line : Fin 1048576) (tag : Fin 32) (be : Nat) (data : List Byte), s.Inv ∧ s.Up ∧ (s.dev.vlt r).filling = false ∧
      (s.dev.rg r).vpEnded = [HeldReq.vp ((line : Nat)) false ((tag : Nat)) be data] ∧ s.dev.inn.badChunks = [] ∧ PageOpen s.dev (niPg r)) :=
  ⟨⟨w1, 1, 5, made_inv _, by unfold State.Up; decide +kernel⟩,
    ⟨w2, 1, 5, made_inv _, by unfold State.Up; decide +kernel⟩,
    ⟨w2, 1, 9, false, 5, 2 ^ 64 - 1, List.replicate 64 3, made_inv _, by unfold State.Up; decide +kernel⟩,
    ⟨w4, 1, 9, true, 5, 2 ^ 64 - 1, List.replicate 64 3, made_inv _, by unfold State.Up; decide +kernel⟩,
    ⟨w11, 1, 9, 5, 2 ^ 64 - 1, List.replicate 64 3, made_inv _, by unfold PageOpen State.Up; decide +kernel⟩⟩

theorem met_VaultUpkeep :
    (∃ (s : State) (v : VaultId), s.Inv ∧ s.Up ∧ (s.dev.vlt v).filling = true ∧ s.dev.inReset (vltPg v) = false) ∧
    (∃ (s : State) (v : VaultId), s.Inv ∧ s.Up ∧ s.dev.bit (vltPg v) F.VLT_SCRUB.en = true ∧ s.dev.bit (vltPg v) F.VLT_SCRUBPOS.spare = false ∧
      s.dev.fld (vltPg v) F.VLT_SCRUBPOS.line < 1048575 ∧ s.dev.inn.badChunks = []) ∧
    (∃ (s : State) (v : VaultId), s.Inv ∧ s.Up ∧ PageOpen s.dev (vltPg v)) ∧
    (∃ (s : State) (who : Who) (v : VaultId) (e : Fin 8) (slot : Fin 64) (line : Fin 1048576), s.Inv ∧ s.Up ∧ PageOpen s.dev (vltPg v) ∧
      s.dev.unlockedFor (vltPg v) who = true ∧ s.dev.remapRefused v e (slot : Nat) (line : Nat) = false) ∧
    (∃ (s : State) (who : Who) (v : VaultId) (e : Fin 8) (slot : Fin 64) (line : Fin 1048576), s.Inv ∧ s.Up ∧ PageOpen s.dev (vltPg v) ∧
      s.dev.unlockedFor (vltPg v) who = true ∧ s.dev.remapRefused v e (slot : Nat) (line : Nat) = true) ∧
    (∃ (s : State) (who : Who) (v : VaultId) (e : Fin 8) (slot : Fin 64) (line : Fin 1048576), s.Inv ∧ s.Up ∧ PageOpen s.dev (vltPg v) ∧
      s.dev.unlockedFor (vltPg v) who = true ∧ (s.dev.vlt v).remap[(e : Nat)] = some ((slot : Nat), (line : Nat)) ∧ s.dev.sliceTested v (line :
      Nat) = false) ∧
    (∃ (s : State) (v : VaultId) (line : Fin 1048576) (pk : Packet), s.Inv ∧ s.Up ∧ s.dev.inn.net = [pk] ∧ pk.out = true ∧ pk.pos = (v : Nat) ∧
      pk.exit = 1 ∧ pk.kind = 0 ∧ pk.addr = vaultBase (v : Nat) + 64 * (line : Nat) ∧ pk.dbg = false ∧ (s.dev.vlt v).filling = false ∧
      s.dev.memTarget pk.src false (vaultBase (v : Nat) + 64 * (line : Nat)) = Status.ok ∧ s.dev.inn.badChunks = []) :=
  ⟨⟨w5, 1, made_inv _, by unfold State.Up; decide +kernel⟩,
    ⟨w0, 1, made_inv _, by unfold State.Up; decide +kernel⟩,
    ⟨w0, 1, made_inv _, by unfold PageOpen State.Up; decide +kernel⟩,
    ⟨w7, Who.host, 1, Fin.ofNat 8 0, 1, 9, made_inv _, by unfold PageOpen State.Up; decide +kernel⟩,
    ⟨w8, Who.host, 1, Fin.ofNat 8 0, 1, 9, made_inv _, by unfold PageOpen State.Up; decide +kernel⟩,
    ⟨w8, Who.host, 1, Fin.ofNat 8 5, 3, 9, made_inv _, by unfold PageOpen State.Up; decide +kernel⟩,
    ⟨w10, 1, 9, pk, made_inv _, by unfold State.Up; decide +kernel⟩⟩

end Vaults

namespace Dma

def v1 : Nat := vltPg 1
def d1 (f : Fld) : Fld := fDma f (1:Fin 4)
def desc : List Byte := Word.bytesOfNat 8 0x4000 ++ Word.bytesOfNat 8 0x4002000 ++ Word.bytesOfNat 4 64 ++ List.replicate 44 0
def mv (f : VaultS → VaultS) : Op := modI fun n => {n with vault := n.vault.set 1 (f n.vault[1])}
def md (f : DmaS → DmaS) : Op := mv fun x => {x with dma := x.dma.set 1 (f x.dma[1])}
def bs0 : Op := setF v1 F.VLT_DMABASE.base 8
def w0 : State := mp skip
def w1 : State := mp (setDmaState 1 1 1)
def w2 : State := mp (setDmaState 1 1 2)
def w4 : State := mp (both (setDmaState 1 1 1) (md fun x => {x with desc := some desc}))
def w5 : State := mp (both (setDmaState 1 1 1) (mv fun x => {x with closing := true}))
def w6 : State := mp (ops [setDmaState 1 1 1, bs0, setF v1 (d1 F.VLT_DMA0.tail) 1, withD fun d => setBytes (d.dmaDesc 1 1) desc])
def w7 : State := mp (ops [setDmaState 1 1 1, md fun x => {x with fail := some (3, 7)}])

theorem met_DmaChannels :
    (∃ (s : State) (v : VaultId), s.Inv ∧ s.Up ∧ PageOpen s.dev (vltPg v)) ∧
    (∃ (s : State) (v : VaultId) (c : DmaId), s.Inv ∧ s.Up ∧ PageOpen s.dev (vltPg v) ∧ (s.dev.dmaState v c = 0 ∨ s.dev.dmaState v c = 3)) ∧
    (∃ (s : State) (v : VaultId) (c : DmaId), s.Inv ∧ s.Up ∧ PageOpen s.dev (vltPg v) ∧ s.dev.dmaState v c = 1) ∧
    (∃ (s : State) (v : VaultId) (c : DmaId), s.Inv ∧ s.Up ∧ PageOpen s.dev (vltPg v) ∧ s.dev.dmaState v c = 2) ∧
    (∃ (s : State) (v : VaultId) (c : DmaId), s.Inv ∧ s.Up ∧ PageOpen s.dev (vltPg v) ∧ (s.dev.vlt v).closing = true ∧ s.dev.dmaState v c = 1 ∧
      (s.dev.dma v c).desc = none ∧ (s.dev.dma v c).fail = none) ∧
    (∃ (s : State) (v : VaultId) (c : DmaId), s.Inv ∧ s.Up ∧ PageOpen s.dev (vltPg v) ∧ (s.dev.vlt v).closing = false ∧ s.dev.dmaState v c = 1 ∧
      (s.dev.dma v c).desc = none ∧ (s.dev.dma v c).fail = none ∧ s.dev.dmaHead v c ≠ s.dev.fld (vltPg v) (fDma F.VLT_DMA0.tail c) ∧ (∀ (i : Nat),
      i < 4 → s.dev.inHamper (vaultBase (v : Nat) + s.dev.dmaRing v 0 + 4096 * i) = false) ∧ s.dev.memWaits false (s.dev.dmaDesc v c) = false ∧
      s.dev.memGate ((v : Nat)) (Who.dma v c).id false (s.dev.dmaDesc v c) = Status.ok ∧ s.dev.inn.badChunks = [] ∧ badDescriptor (List.map (fun i
      => s.dev.tierByte (s.dev.dmaDesc v c + i)) (List.range 64)) = false) ∧
    (∃ (s : State) (v : VaultId) (c : DmaId) (k : Nat) (y : Nat), s.Inv ∧ s.Up ∧ PageOpen s.dev (vltPg v) ∧ (s.dev.dma v c).fail = some (k, y) ∧ k
      < 16 ∧ s.dev.dmaOut v c = 0 ∧ s.dev.memWaits true (s.dev.dmaDesc v c + 32) = false) :=
  ⟨⟨w0, 1, made_inv _, by unfold PageOpen State.Up; decide +kernel⟩,
    ⟨w0, 1, 1, made_inv _, by unfold PageOpen State.Up; decide +kernel⟩,
    ⟨w1, 1, 1, made_inv _, by unfold PageOpen State.Up; decide +kernel⟩,
    ⟨w2, 1, 1, made_inv _, by unfold PageOpen State.Up; decide +kernel⟩,
    ⟨w5, 1, 1, made_inv _, by unfold PageOpen State.Up; decide +kernel⟩,
    ⟨w6, 1, 1, made_inv _, by unfold PageOpen State.Up; decide +kernel⟩,
    ⟨w7, 1, 1, 3, 7, made_inv _, by unfold PageOpen State.Up; decide +kernel⟩⟩

theorem met_DmaCopies :
    ∃ (s : State) (v : VaultId) (c : DmaId) (x : List Byte), s.Inv ∧ (∀ (y : Nat), y < 2 ^ 32 → s.dev.tierCell y = y) ∧ s.Up ∧ PageOpen s.dev
      (vltPg v) ∧ (s.dev.dma v c).desc = some x ∧ (s.dev.dma v c).fail = none ∧ (s.dev.dma v c).done = 0 ∧ (s.dev.vlt v).closing = false ∧
      Word.natOfBytes (List.take 8 (List.drop 0 x)) ≠ Word.natOfBytes (List.take 8 (List.drop 8 x)) ∧ Word.natOfBytes (List.take 4 (List.drop 16
      x)) = 64 ∧ Word.natOfBytes (List.take 8 (List.drop 0 x)) % 64 = 0 ∧ Word.natOfBytes (List.take 8 (List.drop 0 x)) < 2 ^ 32 ∧ Word.natOfBytes
      (List.take 8 (List.drop 8 x)) % 64 = 0 ∧ Word.natOfBytes (List.take 8 (List.drop 8 x)) < 2 ^ 32 ∧ Word.natOfBytes (List.take 8 (List.drop 8
      x)) ≠ s.dev.dmaDesc v c ∧ s.dev.inn.badChunks = [] ∧ s.dev.memWaits false (Word.natOfBytes (List.take 8 (List.drop 0 x))) = false ∧
      s.dev.memWaits true (Word.natOfBytes (List.take 8 (List.drop 8 x))) = false ∧ s.dev.memWaits true (s.dev.dmaDesc v c + 32) = false ∧
      s.dev.memGate ((v : Nat)) (Who.dma v c).id false (Word.natOfBytes (List.take 8 (List.drop 0 x))) = Status.ok ∧ s.dev.memGate ((v : Nat))
      (Who.dma v c).id true (Word.natOfBytes (List.take 8 (List.drop 8 x))) = Status.ok ∧ s.dev.memGate ((v : Nat)) (Who.dma v c).id true
      (s.dev.dmaDesc v c + 32) = Status.ok :=
  ⟨w4, 1, 1, desc, made_inv _, (made_plain _ (by decide +kernel)).2, by unfold PageOpen State.Up; decide +kernel⟩

end Dma

namespace Net

def ni : Nat := niPg 1
def fq : FabReq := {kind := .read, cls := 1, tag := 3, dev := 0, addr := 0x40, be := 2^64-1, word := 0, data := []}
def pn (x : FabReq) (r : Bool) : FabPend := {req := x, since := 0, router := 0, seq := 2, retry := r}
def pk : Packet := {kind := 0, cls := 1, tag := 3, src := 0x141, dev := 0, addr := 0x40, be := 2^64-1, word := 7, data := [1,2], pos := 1}
def dirs : List Packet := [{pk with dirs := [1, 2]}, {pk with dirs := [2]}, {pk with dirs := [3]}, {pk with dirs := [4]}, {pk with exit := 1}, {pk with kind := 7, out := true, seq := 2, pos := 1},
  {pk with kind := 3, out := true}]
def nt (p : Packet) : Op := modI fun n => {n with net := [p]}
def off (x : Nat) : Op := setF (320+1) F.NI_RTRCTL.dis x
def full : List (Nat × Packet) := (List.range 8).map fun i => (i, {pk with kind := 3, out := true})
def w0 : State := r1 skip
def w1 : State := mr (fun g => {g with spec := some {pred := 1, prior := 0, ckpt := ⟨[(3,true)],[],0,0,0⟩}})
def w2 : State := mr (fun g => {g with outbox := [.net fq]})
def w4 : State := mr (fun g => {g with pend := [pn fq false]})
def w5 : State := mr (fun g => {g with pend := [pn fq true]})
def w8 : State := r1 (nt {pk with dirs := [1, 2]})
def w12 : State := r1 (nt {pk with exit := 1})
def w13 : State := r1 (nt {pk with kind := 7, out := true, seq := 2, pos := 1})
def w14 : State := r1 (nt {pk with kind := 3, out := true})
def w15 : State := r1 (ops [nt {pk with dirs := [1, 2]}, off 0x7F])
def w27 : State := r1 (ops [nt {pk with kind := 7, out := true, seq := 2, pos := 1}, modR 1 fun g => {g with pend := [pn fq false]}])
def w30 : State := r1 (setReg ni 321 0xF0000005)
def w33 : State := r1 (ops [nt {pk with kind := 3, out := true}, setF ni F.NI_CTL.nt_en 1, modR 1 fun g => {g with tq := full}])
def w35 : State := mr (fun g => {g with taken := [(5,{pk with kind := 3, out := true})]})

theorem met_FabricRequests :
    (∃ (s : State) (r : RegionId) (q : FabReq), s.Inv ∧ s.Up ∧ s.dev.running r = true ∧ s.dev.enable r = true ∧ (s.dev.rg r).spec = none ∧
      (s.dev.rg r).tagUsed q.tag = false) ∧
    (∃ (s : State) (r : RegionId) (sp : Spec), s.Inv ∧ s.Up ∧ s.dev.running r = true ∧ s.dev.enable r = true ∧ (s.dev.rg r).spec = some sp) ∧
    (∃ (s : State) (r : RegionId) (q : FabReq) (m : Nat) (x : Nat), s.Inv ∧ s.Up ∧ (s.dev.rg r).outbox = [HeldReq.net q] ∧ ¬(r : Nat) ∈
      s.dev.inn.closing ∧ s.dev.domOn (r : Nat) = true ∧ (∀ (y : FabPend), y ∈ (s.dev.rg r).pend → y.req.tag ≠ q.tag) ∧ (∀ (y : Nat × Nat × List
      Byte), y ∈ (s.dev.rg r).nrq → y.fst ≠ (q.tag : Nat)) ∧ s.dev.bucketOk r q.cls = true ∧ s.dev.fabDest r q = some (m, x) ∧ q.kind =
      FabKind.read) ∧
    (∃ (s : State) (r : RegionId) (x : FabPend) (tag : Fin 32), s.Inv ∧ s.Up ∧ (s.dev.rg r).pend = [x] ∧ x.req.tag = tag) ∧
    (∃ (s : State) (r : RegionId) (x : FabPend) (m : Nat) (y : Nat), s.Inv ∧ s.Up ∧ (s.dev.rg r).pend = [x] ∧ x.retry = true ∧ ¬(r : Nat) ∈
      s.dev.inn.closing ∧ s.dev.domOn (r : Nat) = true ∧ s.dev.bucketOk r x.req.cls = true ∧ s.dev.fabDest r x.req = some (m, y) ∧ x.req.kind =
      FabKind.read) ∧
    (∃ (s : State), s.Inv ∧ s.Up) :=
  ⟨⟨w0, 1, fq, made_inv _, by unfold State.Up; decide +kernel⟩,
    ⟨w1, 1, { pred := 1, prior := 0, ckpt := { ff := [(3, true)], arith := [], pinOut := 0, pinOe := 0, bcell := 0 } }, made_inv _, by
      unfold State.Up; decide +kernel⟩,
    ⟨w2, 1, fq, 0, 1, made_inv _, by unfold State.Up; decide +kernel⟩,
    ⟨w4, 1, pn fq false, 3, made_inv _, by unfold State.Up; decide +kernel⟩,
    ⟨w5, 1, pn fq true, 0, 1, made_inv _, by unfold State.Up; decide +kernel⟩,
    ⟨w0, made_inv _, by unfold State.Up; decide +kernel⟩⟩

theorem met_PacketsTravel :
    (∃ (s : State) (n : RegionId) (pk : Packet) (t : Nat) (ts : List Nat) (m : Nat), s.Inv ∧ s.Up ∧ s.dev.inn.net = [pk] ∧ pk.pos = (n : Nat) ∧
      pk.out = false ∧ pk.kind < 3 ∧ pk.kind ≠ 2 ∧ pk.dirs = t :: ts ∧ s.dev.portOff ((n : Nat)) t = false ∧ hop ((n : Nat)) t = some m) ∧
    (∃ (s : State) (n : RegionId) (pk : Packet) (t : Nat) (ts : List Nat), s.Inv ∧ s.Up ∧ s.dev.inn.net = [pk] ∧ pk.pos = (n : Nat) ∧ pk.out =
      false ∧ pk.kind < 3 ∧ pk.kind ≠ 2 ∧ pk.dirs = t :: ts ∧ s.dev.portOff ((n : Nat)) t = true) ∧
    (∃ (s : State) (n : RegionId) (pk : Packet), s.Inv ∧ s.Up ∧ s.dev.inn.net = [pk] ∧ pk.pos = (n : Nat) ∧ pk.out = false ∧ pk.kind < 3 ∧ pk.kind
      ≠ 2 ∧ pk.dirs = [] ∧ pk.exit = 1 ∧ s.dev.portOff ((n : Nat)) 5 = false ∧ s.dev.exitOff ((n : Nat)) 1 = false) ∧
    (∃ (s : State) (n : RegionId) (r : RegionId) (pk : Packet) (x : FabPend), s.Inv ∧ s.Up ∧ s.dev.inn.net = [pk] ∧ pk.pos = (n : Nat) ∧ pk.out =
      true ∧ pk.kind = 7 ∧ pk.src = 320 + (r : Nat) ∧ s.dev.running r = true ∧ s.dev.enable r = true ∧ (s.dev.rg r).nrq = [] ∧ (s.dev.rg r).pend =
      [x] ∧ (x.req.tag : Nat) = pk.tag ∧ x.seq = pk.seq ∧ x.retry = false ∧ pk.status = 0) ∧
    (∃ (s : State) (n : RegionId) (r : RegionId) (pk : Packet), s.Inv ∧ s.Up ∧ s.dev.inn.net = [pk] ∧ pk.pos = (n : Nat) ∧ pk.out = true ∧ pk.kind
      = 7 ∧ pk.src = 320 + (r : Nat) ∧ (s.dev.rg r).pend = [] ∧ PageOpen s.dev (niPg r)) :=
  ⟨⟨w8, 1, { pk with dirs := [1, 2] }, 1, [2], 2, made_inv _, by unfold State.Up; decide +kernel⟩,
    ⟨w15, 1, { pk with dirs := [1, 2] }, 1, [2], made_inv _, by unfold State.Up; decide +kernel⟩,
    ⟨w12, 1, { pk with exit := 1 }, made_inv _, by unfold State.Up; decide +kernel⟩,
    ⟨w27, 1, 1, { pk with kind := 7, pos := 1, out := true, seq := 2 }, pn fq false, made_inv _, by unfold State.Up; decide +kernel⟩,
    ⟨w13, 1, 1, { pk with kind := 7, pos := 1, out := true, seq := 2 }, made_inv _, by unfold PageOpen State.Up; decide +kernel⟩⟩

theorem met_WaymarksAndMessages :
    (∃ (s : State) (r : RegionId) (e : Fin 64), s.Inv ∧ s.Up ∧ PageOpen s.dev (niPg r) ∧ wmCheck ((r : Nat)) ((e : Nat)) (BitVec.toNat (s.dev.reg
      (niPg r) (320 + (e : Nat)))) = 0) ∧
    (∃ (s : State) (r : RegionId) (e : Fin 64), s.Inv ∧ s.Up ∧ PageOpen s.dev (niPg r) ∧ wmCheck ((r : Nat)) ((e : Nat)) (BitVec.toNat (s.dev.reg
      (niPg r) (320 + (e : Nat)))) ≠ 0) ∧
    (∃ (s : State) (r : RegionId), s.Inv ∧ s.Up ∧ PageOpen s.dev (niPg r)) ∧
    (∃ (s : State) (r : RegionId) (pk : Packet) (i : Nat), s.Inv ∧ s.Up ∧ s.dev.inn.net = [pk] ∧ pk.out = true ∧ pk.pos = (r : Nat) ∧ pk.exit = 0 ∧
      pk.kind = 3 ∧ (s.dev.rg r).test = false ∧ (s.dev.rg r).loadReset = false ∧ s.dev.bit (niPg r) F.NI_CTL.nt_en = true ∧ (s.dev.rg r).freeNt =
      some i) ∧
    (∃ (s : State) (r : RegionId) (pk : Packet), s.Inv ∧ s.Up ∧ s.dev.inn.net = [pk] ∧ pk.out = true ∧ pk.pos = (r : Nat) ∧ pk.exit = 0 ∧ pk.kind =
      3 ∧ (s.dev.rg r).test = false ∧ (s.dev.rg r).loadReset = false ∧ s.dev.bit (niPg r) F.NI_CTL.nt_en = true ∧ (s.dev.rg r).freeNt = none) ∧
    (∃ (s : State) (r : RegionId) (pk : Packet) (i : Nat) (rest : List (Nat × Packet)), s.Inv ∧ s.Up ∧ s.dev.running r = true ∧ s.dev.enable r =
      true ∧ pk.kind = 3 ∧ (s.dev.rg r).tq = (i, pk) :: rest) ∧
    (∃ (s : State) (r : RegionId) (pk : Packet) (id : Fin 8), s.Inv ∧ s.Up ∧ s.dev.running r = true ∧ s.dev.enable r = true ∧ pk.kind = 3 ∧
      (s.dev.rg r).taken = [((id : Nat), pk)] ∧ (s.dev.rg r).spec = none) :=
  ⟨⟨w0, 1, 1, made_inv _, by unfold PageOpen State.Up; decide +kernel⟩,
    ⟨w30, 1, 1, made_inv _, by unfold PageOpen State.Up; decide +kernel⟩,
    ⟨w0, 1, made_inv _, by unfold PageOpen State.Up; decide +kernel⟩,
    ⟨w14, 1, { pk with kind := 3, out := true }, 0, made_inv _, by unfold State.Up; decide +kernel⟩,
    ⟨w33, 1, { pk with kind := 3, out := true }, made_inv _, by unfold State.Up; decide +kernel⟩,
    ⟨w33, 1, { pk with kind := 3, out := true }, 0, full.tail, made_inv _, by unfold State.Up; decide +kernel⟩,
    ⟨w35, 1, { pk with kind := 3, out := true }, 5, made_inv _, by unfold State.Up; decide +kernel⟩⟩

end Net

namespace HostSide

def hp (o : Op) : State := mp (ops [setF 0 F.DEV_STAT.ready 1, setF 17 F.PWR_STRAPS.pcie_en 1, modI fun n => {n with host := {n.host with crs := false}}, o])
def hh (f : HostS → HostS) : Op := modI fun n => {n with host := f n.host}
def bm : Op := hh fun h => {h with busMaster := true}
def up : Op := ops [setF 32 F.HP_LINK.up 1, bm]
def en : Op := ops [up, setF 32 F.HP_CTL.en 1, setF 33 (F.HP_SQ0.state.at 1) 1, setF 33 (F.HP_SQ0.size.at 1) 16, hh fun h => {h with queues := h.queues.set 1 {sqBase := 0x1000, cqBase := 0x3000, tail := 2}}]
def rd : HostRead := {tag := 3, who := 0x101, addr := 0x40, n := 4}
def cmd (op : Nat) : HostCmd := { q := 1, cid := 7, opcode := op, flags := 2, target := 1, haddr := 0x2000, daddr := 0, length := 64, p0 := 0, p1 := 0, zeroOk := true, sqHead := 0}
def cst (cs : List HostCmd) : Op := modI fun n => {n with cmds := cs}
def bar : BarRead := {id := 2, addr := 0x40, n := 8}
def nopE : Vector Byte 64 := Vector.replicate 64 0
def mkPowered (o : Op) : State := hp o
def w0 : State := mkPowered skip
def w1 : State := mkPowered up
def w5 : State := mkPowered (ops [up, setF 0 F.DEV_STAT.ready 0])
def w6 : State := mkPowered (ops [up, hh fun h => {h with reads := [rd]}])
def w7 : State := mkPowered (ops [bm, modI fun n => {n with msixMasked := [5]}, setBit 34 R.HP_VECPEND0 5])
def w8 : State := mkPowered (modI fun n => {n with closing := [5]})
def w9 : State := mkPowered (ops [up, hh fun h => {h with bars := [bar]}])
def w10 : State := mkPowered (ops [up, setF 32 F.HP_AQ_SIZE.size 16, setReg 32 R.HP_AQ_SQBASE_LO 0x5000])
def w11 : State := mkPowered en
def w12 : State := mkPowered (ops [en, setF 80 F.LNK_PROXY.en 1])
def w13 : State := mkPowered (ops [up, modI fun n => {n with quiet := true}])
def w15 : State := mkPowered (ops [en, setF 35 (ringF F.HP_RING0CTL.en 0) 1, setF 35 (ringF F.HP_RING0CTL.size 0) 16])
def w16 : State := mkPowered (ops [en, cst [{cmd 0 with ended := some (0,5), order := 3}]])
def w17 : State := mkPowered (ops [en, cst [{cmd 0 with ended := some (0,5), order := 3, deleted := true}]])
def w18 : State := mkPowered (ops [en, hh fun h => {h with queues := h.queues.set 1 {unsig := 2}}])

theorem met_HostLinkAndResets :
    (∃ (s : State), s.Inv ∧ s.Up ∧ s.dev.portPower = true ∧ s.dev.inReset 32 = false ∧ s.dev.host.perst = false ∧ s.dev.bit 17 F.PWR_STRAPS.pcie_en
      = true) ∧
    (∃ (s : State), s.Inv ∧ s.Up ∧ s.dev.portPower = true ∧ s.dev.inReset 32 = false ∧ s.dev.host.perst = false ∧ s.dev.bit 32 F.HP_LINK.up = true
      ∧ s.dev.bit 0 F.DEV_STAT.ready = false) ∧
    (∃ (s : State), s.Inv ∧ s.Up ∧ s.dev.portPower = true ∧ s.dev.inReset 32 = false ∧ s.dev.host.perst = false ∧ s.dev.bit 32 F.HP_LINK.up = true
      ∧ s.dev.bit 0 F.DEV_STAT.ready = true ∧ s.dev.host.crs = false) ∧
    (∃ (s : State), s.Inv ∧ s.Up ∧ s.dev.portPower = true ∧ s.dev.inReset 32 = false) ∧
    (∃ (s : State) (x : HostRead), s.Inv ∧ s.Up ∧ s.dev.portPower = true ∧ s.dev.inReset 32 = false ∧ s.dev.hostOpen x.tag = some x) ∧
    (∃ (s : State) (x : HostRead), s.Inv ∧ s.Up ∧ s.dev.portPower = true ∧ s.dev.inReset 32 = false ∧ s.dev.hostOpen x.tag = some x ∧ s.dev.proxied
      = false ∧ BitVec.toNat (s.dev.reg 32 R.HP_CTO) ≠ 4294967295) ∧
    (∃ (s : State) (tag : Nat), s.Inv ∧ s.Up ∧ s.dev.portPower = true ∧ s.dev.inReset 32 = false ∧ s.dev.hostOpen tag = none) ∧
    (∃ (s : State) (v : Fin 256), s.Inv ∧ s.Up ∧ s.dev.portPower = true ∧ s.dev.inReset 32 = false ∧ s.dev.proxied = false ∧ s.dev.host.busMaster =
      true ∧ s.dev.regBit 34 (R.HP_VECPEND0 + (v : Nat) / 32) ((v : Nat) % 32) = true) ∧
    (∃ (s : State) (k : Fin 79), s.Inv ∧ s.Up ∧ s.dev.portPower = true ∧ s.dev.inReset 32 = false ∧ (k : Nat) ∈ s.dev.inn.closing ∧ s.dev.inn.net =
      []) :=
  ⟨⟨w0, made_inv _, by unfold State.Up; decide +kernel⟩,
    ⟨w5, made_inv _, by unfold State.Up; decide +kernel⟩,
    ⟨w1, made_inv _, by unfold State.Up; decide +kernel⟩,
    ⟨w0, made_inv _, by unfold State.Up; decide +kernel⟩,
    ⟨w6, rd, made_inv _, by unfold State.Up; decide +kernel⟩,
    ⟨w6, rd, made_inv _, by unfold State.Up; decide +kernel⟩,
    ⟨w0, 0, made_inv _, by unfold State.Up; decide +kernel⟩,
    ⟨w7, 5, made_inv _, by unfold State.Up; decide +kernel⟩,
    ⟨w8, 5, made_inv _, by unfold State.Up; decide +kernel⟩⟩

theorem met_HostRequestsAndQueues_1 :
    (∃ (s : State) (e : EngineId), s.Inv ∧ s.Up ∧ s.dev.portPower = true ∧ s.dev.inReset 32 = false ∧ s.dev.barOpen = true ∧ PageOpen s.dev (engPg
      e) ∧ s.dev.bit (engPg e) fHalf = false ∧ s.dev.latched Who.host.id (engPg e) R.ENG_BOOT = none) ∧
    (∃ (s : State) (a : BitVec 40) (n : Nat) (m : Nat) (x : Nat), s.Inv ∧ s.Up ∧ s.dev.portPower = true ∧ s.dev.inReset 32 = false ∧ s.dev.barOpen
      = true ∧ 0 < n ∧ a.toNat % 64 + n ≤ 64 ∧ s.dev.bar2Ok a.toNat n = true ∧ destOf a.toNat = some (m, x)) ∧
    (∃ (s : State) (b : BarRead), s.Inv ∧ s.Up ∧ s.dev.portPower = true ∧ s.dev.inReset 32 = false ∧ s.dev.host.bars = [b]) ∧
    (∃ (s : State), s.Inv ∧ s.Up ∧ s.dev.portPower = true ∧ s.dev.inReset 32 = false ∧ s.dev.gated 32 = false ∧ s.dev.bit 32 F.HP_CTL.en = false ∧
      s.dev.inn.quiet = false ∧ 2 ≤ s.dev.fld 32 F.HP_AQ_SIZE.size ∧ s.dev.fld 32 F.HP_AQ_SIZE.size ≤ 4096) ∧
    (∃ (s : State), s.Inv ∧ s.Up ∧ s.dev.portPower = true ∧ s.dev.inReset 32 = false ∧ s.dev.gated 32 = false ∧ s.dev.bit 32 F.HP_CTL.en = true) ∧
    (∃ (s : State) (q : QueueId) (v : Word), s.Inv ∧ s.Up ∧ s.dev.portPower = true ∧ s.dev.inReset 32 = false ∧ s.dev.gated 32 = false ∧
      s.dev.proxied = true ∧ s.dev.sqState q = 1 ∧ BitVec.toNat v < s.dev.sqSize q) :=
  ⟨⟨w1, 5, made_inv _, by unfold PageOpen State.Up; decide +kernel⟩,
    ⟨w1, 64, 3, 0, 1, made_inv _, by unfold State.Up; decide +kernel⟩,
    ⟨w9, bar, made_inv _, by unfold State.Up; decide +kernel⟩,
    ⟨w10, made_inv _, by unfold State.Up; decide +kernel⟩,
    ⟨w11, made_inv _, by unfold State.Up; decide +kernel⟩,
    ⟨w12, 1, 3, made_inv _, by unfold State.Up; decide +kernel⟩⟩

theorem met_HostRequestsAndQueues_2 :
    (∃ (s : State), s.Inv ∧ s.Up ∧ s.dev.portPower = true ∧ s.dev.inReset 32 = false ∧ s.dev.inn.quiet = true ∧ (∀ (c : HostCmd), c ∈
      s.dev.inn.cmds → c.ended.isSome = true)) ∧
    (∃ (s : State) (q : QueueId) (v : Word), s.Inv ∧ s.Up ∧ s.dev.portPower = true ∧ s.dev.inReset 32 = false ∧ s.dev.sqState q = 1 ∧ BitVec.toNat
      v < s.dev.sqSize q) ∧
    (∃ (s : State) (q : QueueId), s.Inv ∧ s.Up ∧ s.dev.portPower = true ∧ s.dev.inReset 32 = false ∧ s.dev.sqState q = 0) ∧
    (∃ (s : State) (q : QueueId) (v : Word), s.Inv ∧ s.Up ∧ s.dev.portPower = true ∧ s.dev.inReset 32 = false ∧ s.dev.sqState q ≠ 0 ∧ BitVec.toNat
      v < s.dev.sqSize q ∧ BitVec.toNat v < 4096) ∧
    (∃ (s : State) (v : Word) (r : RingId), s.Inv ∧ s.Up ∧ s.dev.portPower = true ∧ s.dev.inReset 32 = false ∧ s.dev.bit 35 (ringF F.HP_RING0CTL.en
      (r : Nat)) = true ∧ BitVec.toNat v < 4096 ∧ BitVec.toNat v < s.dev.fld 35 (ringF F.HP_RING0CTL.size (r : Nat))) ∧
    (∃ (s : State) (q : QueueId) (v : Vector Byte 64), s.Inv ∧ s.Up ∧ s.dev.portPower = true ∧ s.dev.inReset 32 = false ∧ s.dev.queueNext = some q
      ∧ s.dev.bit 32 F.HP_CTL.en = true ∧ (List.filter (fun c => c.ended.isNone) s.dev.inn.cmds).length < 64 ∧ s.dev.inn.net = [] ∧ s.dev.proxied =
      false ∧ s.dev.host.busMaster = true ∧ s.dev.sqHead q < s.dev.sqSize q ∧ s.dev.sqSize q ≤ 4096 ∧ (cmdOf ((q : Nat)) (nextIndex (s.dev.sqHead
      q) (s.dev.sqSize q)) v.toList).flags % 2 = 0 ∧ knownOp (cmdOf ((q : Nat)) (nextIndex (s.dev.sqHead q) (s.dev.sqSize q)) v.toList).opcode =
      true ∧ (adminOp (cmdOf ((q : Nat)) (nextIndex (s.dev.sqHead q) (s.dev.sqSize q)) v.toList).opcode = true → q = 0) ∧ (cmdOf ((q : Nat))
      (nextIndex (s.dev.sqHead q) (s.dev.sqSize q)) v.toList).zeroOk = true) :=
  ⟨⟨w13, made_inv _, by unfold State.Up; decide +kernel⟩,
    ⟨w11, 1, 3, made_inv _, by unfold State.Up; decide +kernel⟩,
    ⟨w0, 1, made_inv _, by unfold State.Up; decide +kernel⟩,
    ⟨w11, 1, 3, made_inv _, by unfold State.Up; decide +kernel⟩,
    ⟨w15, 3, Fin.ofNat 4 0, made_inv _, by unfold State.Up; decide +kernel⟩,
    ⟨w11, 1, nopE, made_inv _, by unfold State.Up; decide +kernel⟩⟩

theorem met_HostRequestsAndQueues_3 :
    (∃ (s : State) (q : QueueId), s.Inv ∧ s.Up ∧ s.dev.portPower = true ∧ s.dev.inReset 32 = false ∧ s.dev.queueNext = some q ∧ s.dev.bit 32
      F.HP_CTL.en = true ∧ (List.filter (fun c => c.ended.isNone) s.dev.inn.cmds).length < 64 ∧ s.dev.inn.net = [] ∧ s.dev.proxied = false ∧
      s.dev.host.busMaster = true ∧ s.dev.sqHead q < s.dev.sqSize q ∧ s.dev.sqSize q ≤ 4096) ∧
    (∃ (s : State) (q : QueueId) (c : HostCmd) (st : Nat) (res : Nat), s.Inv ∧ s.Up ∧ s.dev.portPower = true ∧ s.dev.inReset 32 = false ∧
      s.dev.endedFirst q = some c ∧ c.ended = some (st, res) ∧ s.dev.inn.quiet = false ∧ c.aborted = false ∧ s.dev.cqFull q = false ∧ s.dev.proxied
      = false ∧ s.dev.host.busMaster = true ∧ s.dev.cqTail q < s.dev.sqSize q ∧ s.dev.sqSize q ≤ 4096 ∧ c.deleted = true) ∧
    (∃ (s : State) (q : QueueId) (c : HostCmd) (st : Nat) (res : Nat), s.Inv ∧ s.Up ∧ s.dev.portPower = true ∧ s.dev.inReset 32 = false ∧
      s.dev.endedFirst q = some c ∧ c.ended = some (st, res) ∧ s.dev.inn.quiet = false ∧ c.aborted = false ∧ s.dev.cqFull q = false ∧ s.dev.proxied
      = false ∧ s.dev.host.busMaster = true ∧ s.dev.cqTail q < s.dev.sqSize q ∧ s.dev.sqSize q ≤ 4096 ∧ c.deleted = false ∧ s.dev.sqState q ≠ 3) ∧
    (∃ (s : State) (q : QueueId), s.Inv ∧ s.Up ∧ s.dev.portPower = true ∧ s.dev.inReset 32 = false ∧ 0 < (s.dev.hq q).unsig ∧ s.dev.proxied = false
      ∧ s.dev.host.busMaster = true ∧ ¬s.dev.fld 34 (F.HP_CQVEC0.vector.at (q : Nat)) ∈ s.dev.inn.msixMasked) :=
  ⟨⟨w11, 1, made_inv _, by unfold State.Up; decide +kernel⟩,
    ⟨w17, 1, { cmd 0 with ended := some (0, 5), order := 3, deleted := true }, 0, 5, made_inv _, by unfold State.Up; decide +kernel⟩,
    ⟨w16, 1, { cmd 0 with ended := some (0, 5), order := 3 }, 0, 5, made_inv _, by unfold State.Up; decide +kernel⟩,
    ⟨w18, 1, made_inv _, by unfold State.Up; decide +kernel⟩⟩

end HostSide

namespace Commands

def hp (o : Op) : State := mp (ops [setF 0 F.DEV_STAT.ready 1, modI fun n => {n with host := {n.host with crs := false}}, o])
def hh (f : HostS → HostS) : Op := modI fun n => {n with host := f n.host}
def bm : Op := hh fun h => {h with busMaster := true}
def cmd (op t : Nat) : HostCmd := { q := 1, cid := 7, opcode := op, flags := 0, target := t, haddr := 0x2000, daddr := thermosBase + 0x80000, length := 64, p0 := 1, p1 := 0x4000, zeroOk := true, sqHead := 0}
def cst (cs : List HostCmd) : Op := modI fun n => {n with cmds := cs}
def up : Op := ops [bm, run1, setF 33 (F.HP_SQ0.state.at 1) 1]
def cL (op p : Nat) : HostCmd := {cmd op p with length := 4 * ((arrayWords p).getD 0)}
def w0 : State := hp (ops [up, cst [(cmd 0 0)]])
def w1 : State := hp (ops [up, cst [(cmd 1 3)]])
def w3 : State := hp (ops [up, cst [(cmd 3 0)]])
def w4 : State := hp (ops [up, cst [{cmd 0x11 1 with p0 := 0x200}]])
def w5 : State := hp (ops [up, cst [{cmd 0x12 1 with p0 := 1}]])
def w6 : State := hp (ops [up, cst [(cmd 0x13 1)]])
def w7 : State := hp (ops [up, cst [(cmd 0x20 0)]])
def w8 : State := hp (ops [up, cst [(cmd 0x21 0)]])
def w9 : State := hp (ops [up, cst [(cmd 0x30 5)]])
def w10 : State := hp (ops [up, cst [{cmd 0x40 0 with length := 0x10000}]])
def w13 : State := hp (ops [up, cst [{cmd 0x50 385 with p0 := 1}]])
def w18 : State := hp (ops [up, cst [(cL 0x51 96)]])
def w19 : State := hp (ops [up, cst [(cL 0x52 96)]])
def w22 : State := hp (ops [up, cst [(cmd 0x60 1)]])
def w23 : State := hp (ops [up, setF 33 (F.HP_SQ0.state.at 3) 1, cst [cmd 2 3]])
def w24 : State := hp (ops [up, setF 33 (F.HP_SQ0.state.at 3) 1, cst [cmd 2 3, {cmd 0 0 with q := 3}]])

theorem met_HostCommands_1 :
    (∃ (s : State) (q : QueueId) (cid : BitVec 16) (c : HostCmd), s.Inv ∧ s.Up ∧ s.dev.cmdAt ((q : Nat)) cid.toNat 0 = some c) ∧
    (∃ (s : State) (q : QueueId) (cid : BitVec 16) (c : HostCmd), s.Inv ∧ s.Up ∧ s.dev.cmdAt ((q : Nat)) cid.toNat 1 = some c ∧ c.target ≠ 0 ∧
      c.target < 16 ∧ 2 ≤ c.length ∧ c.length ≤ 4096 ∧ c.haddr % 4096 = 0 ∧ c.p1 % 2 ^ 64 % 4096 = 0 ∧ s.dev.sqState (Fin.ofNat 16 c.target) = 0) ∧
    (∃ (s : State) (q : QueueId) (cid : BitVec 16) (c : HostCmd), s.Inv ∧ s.Up ∧ s.dev.cmdAt ((q : Nat)) cid.toNat 2 = some c ∧ c.target ≠ 0 ∧
      c.target < 16 ∧ c.target ≠ (q : Nat) ∧ s.dev.sqState (Fin.ofNat 16 c.target) = 1 ∧ (∀ (x : HostCmd), x ∈ s.dev.inn.cmds → x.q ≠ ↑(Fin.ofNat
      16 c.target))) ∧
    (∃ (s : State) (q : QueueId) (cid : BitVec 16) (c : HostCmd), s.Inv ∧ s.Up ∧ s.dev.cmdAt ((q : Nat)) cid.toNat 2 = some c ∧ c.target ≠ 0 ∧
      c.target < 16 ∧ c.target ≠ (q : Nat) ∧ s.dev.sqState (Fin.ofNat 16 c.target) = 1 ∧ (∃ x, x ∈ s.dev.inn.cmds ∧ x.q = ↑(Fin.ofNat 16
      c.target))) ∧
    (∃ (s : State) (q : QueueId) (cid : BitVec 16) (c : HostCmd), s.Inv ∧ s.Up ∧ s.dev.cmdAt ((q : Nat)) cid.toNat 3 = some c ∧ s.dev.proxied =
      false ∧ s.dev.host.busMaster = true ∧ c.aborted = false) ∧
    (∃ (s : State) (q : QueueId) (cid : BitVec 16) (c : HostCmd), s.Inv ∧ s.Up ∧ s.dev.cmdAt ((q : Nat)) cid.toNat 17 = some c ∧ c.target < 64 ∧
      s.dev.domOn ↑(Fin.ofNat 64 c.target) = true ∧ (s.dev.rg (Fin.ofNat 64 c.target)).test = false ∧ PageOpen s.dev (rgnPg (Fin.ofNat 64
      c.target)) ∧ s.dev.fetchRefusal (Fin.ofNat 64 c.target) (Fin.ofNat 8 (c.p0 / 2 ^ 8 % 8)) = none) :=
  ⟨⟨w0, 1, 7, cmd 0 0, made_inv _, by unfold State.Up; decide +kernel⟩,
    ⟨w1, 1, 7, cmd 1 3, made_inv _, by unfold State.Up; decide +kernel⟩,
    ⟨w23, 1, 7, cmd 2 3, made_inv _, by unfold State.Up; decide +kernel⟩,
    ⟨w24, 1, 7, cmd 2 3, made_inv _, by unfold State.Up; decide +kernel⟩,
    ⟨w3, 1, 7, cmd 3 0, made_inv _, by unfold State.Up; decide +kernel⟩,
    ⟨w4, 1, 7, { cmd 17 1 with p0 := 512 }, made_inv _, by unfold PageOpen State.Up; decide +kernel⟩⟩

theorem met_HostCommands_2 :
    (∃ (s : State) (q : QueueId) (cid : BitVec 16) (c : HostCmd), s.Inv ∧ s.Up ∧ s.dev.cmdAt ((q : Nat)) cid.toNat 18 = some c ∧ c.target < 64 ∧
      s.dev.domOn ↑(Fin.ofNat 64 c.target) = true ∧ (s.dev.rg (Fin.ofNat 64 c.target)).test = false ∧ PageOpen s.dev (rgnPg (Fin.ofNat 64
      c.target))) ∧
    (∃ (s : State) (q : QueueId) (cid : BitVec 16) (c : HostCmd), s.Inv ∧ s.Up ∧ s.dev.cmdAt ((q : Nat)) cid.toNat 19 = some c ∧ c.target < 64 ∧
      s.dev.domOn ↑(Fin.ofNat 64 c.target) = true ∧ (s.dev.rg (Fin.ofNat 64 c.target)).test = false ∧ PageOpen s.dev (rgnPg (Fin.ofNat 64
      c.target))) ∧
    (∃ (s : State) (q : QueueId) (cid : BitVec 16) (c : HostCmd) (bs : List Byte), s.Inv ∧ s.Up ∧ thermosBase ≤ c.daddr ∧ c.daddr + c.length ≤
      thermosBase + 4194304 ∧ 0 < c.length ∧ c.daddr % 64 + c.length ≤ 64 ∧ s.dev.cmdAt ((q : Nat)) cid.toNat 32 = some c ∧ s.dev.bufferOpen = true
      ∧ s.dev.cmdRefusal true c.daddr c.length = none ∧ s.dev.memWaits true c.daddr = false ∧ s.dev.memGate 3 256 true c.daddr = Status.ok ∧
      bs.length = c.length) ∧
    (∃ (s : State) (q : QueueId) (cid : BitVec 16) (c : HostCmd), s.Inv ∧ s.Up ∧ thermosBase ≤ c.daddr ∧ c.daddr + c.length ≤ thermosBase + 4194304
      ∧ 0 < c.length ∧ c.daddr % 64 + c.length ≤ 64 ∧ s.dev.cmdAt ((q : Nat)) cid.toNat 33 = some c ∧ s.dev.proxied = false ∧ s.dev.host.busMaster
      = true ∧ c.aborted = false ∧ s.dev.cmdRefusal false c.daddr c.length = none ∧ s.dev.memWaits false c.daddr = false ∧ s.dev.memGate 3 256
      false c.daddr = Status.ok) ∧
    (∃ (s : State) (q : QueueId) (cid : BitVec 16) (c : HostCmd), s.Inv ∧ s.Up ∧ s.dev.cmdAt ((q : Nat)) cid.toNat 48 = some c ∧ c.target < 256 ∧
      s.dev.domOn (engRgn (Fin.ofNat 256 c.target)) = true ∧ s.dev.rgnP (engRgn (Fin.ofNat 256 c.target)) = 0 ∧ s.dev.engState (Fin.ofNat 256
      c.target) = esParked ∧ PageOpen s.dev (engPg (Fin.ofNat 256 c.target)) ∧ c.p0 % 4 = 1 ∧ s.dev.inn.withheld = []) ∧
    (∃ (s : State) (q : QueueId) (cid : BitVec 16) (c : HostCmd), s.Inv ∧ s.Up ∧ s.dev.cmdAt ((q : Nat)) cid.toNat 64 = some c ∧ s.dev.lcs ≠ 3 ∧
      s.dev.reportLen ≤ c.length ∧ s.dev.stw.att = none) :=
  ⟨⟨w5, 1, 7, { cmd 18 1 with p0 := 1 }, made_inv _, by unfold PageOpen State.Up; decide +kernel⟩,
    ⟨w6, 1, 7, cmd 19 1, made_inv _, by unfold PageOpen State.Up; decide +kernel⟩,
    ⟨w7, 1, 7, cmd 32 0, List.replicate 64 7, made_inv _, by unfold State.Up; decide +kernel⟩,
    ⟨w8, 1, 7, cmd 33 0, made_inv _, by unfold State.Up; decide +kernel⟩,
    ⟨w9, 1, 7, cmd 48 5, made_inv _, by unfold PageOpen State.Up; decide +kernel⟩,
    ⟨w10, 1, 7, { cmd 64 0 with length := 65536 }, made_inv _, by unfold State.Up; decide +kernel⟩⟩

theorem met_HostCommands_3 :
    (∃ (s : State) (q : QueueId) (cid : BitVec 16) (c : HostCmd) (i : Fin 4), s.Inv ∧ s.Up ∧ s.dev.cmdAt ((q : Nat)) cid.toNat 80 = some c ∧
      s.dev.freeTest = some i ∧ s.dev.domOn (pageDomain c.target) = true ∧ (∀ (x : TestRun), x ∈ s.dev.testRuns → x.page ≠ c.target) ∧
      s.dev.testRefusal (c.p0 % 256) c.target = 0) ∧
    (∃ (s : State) (q : QueueId) (cid : BitVec 16) (c : HostCmd), s.Inv ∧ s.Up ∧ s.dev.calRefusal c = none ∧ s.dev.cmdAt ((q : Nat)) cid.toNat 81 =
      some c ∧ s.dev.proxied = false ∧ s.dev.host.busMaster = true ∧ c.aborted = false) ∧
    (∃ (s : State) (q : QueueId) (cid : BitVec 16) (c : HostCmd) (bs : List Byte), s.Inv ∧ s.Up ∧ s.dev.calRefusal c = none ∧ s.dev.cmdAt ((q :
      Nat)) cid.toNat 82 = some c ∧ s.dev.bufferOpen = true ∧ (∀ (i : Nat), i < c.length / 4 → arrayWordOk c.target i ((wordsOf (c.length / 4)
      bs).getD i 0) = true)) ∧
    (∃ (s : State) (q : QueueId) (cid : BitVec 16) (c : HostCmd), s.Inv ∧ s.Up ∧ s.dev.cmdAt ((q : Nat)) cid.toNat 96 = some c ∧ c.target < 64 ∧
      c.p0 % 8 = 1 ∧ s.dev.rgnP ↑(Fin.ofNat 64 c.target) = 0 ∧ s.dev.rgnRefusal (Fin.ofNat 64 c.target) 1 = 0) :=
  ⟨⟨w13, 1, 7, { cmd 80 385 with p0 := 1 }, 0, made_inv _, by unfold State.Up; decide +kernel⟩,
    ⟨w18, 1, 7, cL 81 96, made_inv _, by unfold State.Up; decide +kernel⟩,
    ⟨w19, 1, 7, cL 82 96, List.replicate 64 0, made_inv _, by unfold State.Up; decide +kernel⟩,
    ⟨w22, 1, 7, cmd 96 1, made_inv _, by unfold State.Up; decide +kernel⟩⟩

end Commands

namespace Links

def g2 : Nat := lnkPg 2
def st (n : Nat) : Op := setF g2 F.LNK_STAT.state n
def lkm (f : LinkS → LinkS) : Op := modI fun n => {n with link := n.link.set 2 (f n.link[2])}
def fr (t : Nat) : Frame := {ftype := t, dst := 0, src := 3, etag := 9, addr := 0x40, be := 2^64-1, data := [1,2,3]}
def pk : Packet := {kind := 0, cls := 1, tag := 4, src := 0x144, dev := 3, addr := 0x40, be := 2^64-1, word := 0, data := [], exit := 1, pos := 1, out := true}
def ready : Op := forAll (portLanes 2) fun l => ops [setF (lnPg l) F.LN_STAT.state lsReady, setF (lnPg l) F.LN_STAT.peer_ready 1]
def idn : Op := modI fun n => {n with stw := {n.stw with identity := true}}
def keyng : Op := ops [st psKeying, setF g2 F.LNK_KEYSTAT.state 2]
def w0 : State := mp (st psDown)
def w1 : State := mp (ops [st psUp, setF g2 F.LNK_CTL.en 1])
def w2 : State := mp (ops [st psTrain, ready, setF g2 F.LNK_CTL.en 1])
def w3 : State := mp (ops [st psParam, setF g2 F.LNK_CTL.enc_req 0])
def w4 : State := mp (ops [idn, st psParam, setF g2 F.LNK_CTL.enc_req 0])
def w5 : State := mp (ops [idn, keyng, lkm fun k => {k with rxSeq := 5}])
def w6 : State := mp (ops [st psUp, lkm fun k => {k with replay := [(5, fr 1), (6, fr 2)], attempts := 4}])
def w7 : State := mp (ops [st psUp, lkm fun k => {k with replay := [(5, fr 1), (6, fr 2)], attempts := 2}])
def w10 : State := mp (ops [st psUp, setF g2 F.LNK_STAT.enc 1, setN64 g2 R.LNK_FRAMECTR_LO (15*2^36), setF g2 F.LNK_KEYSTAT.state 1])
def w11 : State := mp (ops [st psUp, lkm fun k => {k with waiting := true}])
def w12 : State := mp (ops [setReg 80 512 0x1000000F, setReg 80 (512+128) 0x1000000F])
def w15 : State := mp (ops [st psUp, lkm fun k => {k with rxSeq := 5, etags := [(9, pk)]}])
def w17 : State := mp (ops [st psUp, setF (lnkPg 3) F.LNK_STAT.state psUp, lkm fun k => {k with rxSeq := 5}])

theorem met_GulegPorts_1 :
    (∃ (s : State) (p : PortId), s.Inv ∧ s.Up ∧ PageOpen s.dev (lnkPg p) ∧ s.dev.lnkState p ≠ psAbsent ∧ s.dev.eth = false ∧ (∀ (l : LaneId), l ∈
      portLanes p → s.dev.underTest l = false) ∧ s.dev.bit (lnkPg p) F.LNK_CTL.en = false) ∧
    (∃ (s : State) (p : PortId), s.Inv ∧ s.Up ∧ PageOpen s.dev (lnkPg p) ∧ s.dev.lnkState p ≠ psAbsent ∧ s.dev.eth = false ∧ (∀ (l : LaneId), l ∈
      portLanes p → s.dev.underTest l = false) ∧ s.dev.bit (lnkPg p) F.LNK_CTL.en = true) ∧
    (∃ (s : State) (p : PortId), s.Inv ∧ s.Up ∧ PageOpen s.dev (lnkPg p) ∧ s.dev.lnkState p = psUp) ∧
    (∃ (s : State) (p : PortId) (x : Vector (Fin 4 × Fin 32) 4), s.Inv ∧ s.Up ∧ PageOpen s.dev (lnkPg p) ∧ s.dev.lnkState p = psTrain ∧
      s.dev.lanesReady p = true ∧ (∀ (i : Fin 4), (x[i.val]).2.val ≤ 16)) ∧
    (∃ (s : State) (p : PortId) (x : Vector (Fin 4 × Fin 32) 4), s.Inv ∧ s.Up ∧ PageOpen s.dev (lnkPg p) ∧ s.dev.lnkState p = psTrain ∧
      s.dev.lanesReady p = true ∧ (∃ i : Fin 4, 16 < (x[i.val]).2.val)) ∧
    (∃ (s : State) (p : PortId), s.Inv ∧ s.Up ∧ PageOpen s.dev (lnkPg p) ∧ s.dev.lnkState p = psParam ∧ s.dev.bit (lnkPg p) F.LNK_CTL.enc_req =
      false) :=
  ⟨⟨w0, 2, made_inv _, by unfold PageOpen State.Up; decide +kernel⟩,
    ⟨w1, 2, made_inv _, by unfold PageOpen State.Up; decide +kernel⟩,
    ⟨w1, 2, made_inv _, by unfold PageOpen State.Up; decide +kernel⟩,
    ⟨w2, 2, Vector.replicate 4 (2, 3), made_inv _, by unfold PageOpen State.Up; decide +kernel⟩,
    ⟨w2, 2, Vector.replicate 4 (2, 20), made_inv _, by unfold PageOpen State.Up; decide +kernel⟩,
    ⟨w3, 2, made_inv _, by unfold PageOpen State.Up; decide +kernel⟩⟩

theorem met_GulegPorts_2 :
    (∃ (s : State) (p : PortId), s.Inv ∧ s.Up ∧ PageOpen s.dev (lnkPg p) ∧ s.dev.lnkState p = psParam ∧ s.dev.bit (lnkPg p) F.LNK_CTL.enc_req =
      false ∧ s.dev.stw.identity = true) ∧
    (∃ (s : State) (p : PortId), s.Inv ∧ s.Up ∧ PageOpen s.dev (lnkPg p) ∧ s.dev.lnkState p = psParam ∧ s.dev.bit (lnkPg p) F.LNK_CTL.enc_req =
      false ∧ s.dev.stw.identity = false) ∧
    (∃ (s : State) (p : PortId) (a : Nat) (x : Frame), s.Inv ∧ s.Up ∧ PageOpen s.dev (lnkPg p) ∧ (s.dev.lk p).replay = (a, x) :: (s.dev.lk
      p).replay.tail ∧ (s.dev.lnkState p = psUp ∨ s.dev.lnkState p = psKeying)) ∧
    (∃ (s : State) (p : PortId), s.Inv ∧ s.Up ∧ PageOpen s.dev (lnkPg p) ∧ (s.dev.lk p).replay ≠ [] ∧ s.dev.lnkState p = psUp ∧ 4 ≤ (s.dev.lk
      p).attempts) ∧
    (∃ (s : State) (p : PortId), s.Inv ∧ s.Up ∧ PageOpen s.dev (lnkPg p) ∧ (s.dev.lk p).replay ≠ [] ∧ s.dev.lnkState p = psUp ∧ (s.dev.lk
      p).attempts < 4 ∧ s.dev.now < (s.dev.lk p).since + 8000) ∧
    (∃ (s : State) (p : PortId), s.Inv ∧ s.Up ∧ PageOpen s.dev (lnkPg p) ∧ s.dev.lnkState p = psUp ∧ (s.dev.lk p).waiting = false) :=
  ⟨⟨w4, 2, made_inv _, by unfold PageOpen State.Up; decide +kernel⟩,
    ⟨w3, 2, made_inv _, by unfold PageOpen State.Up; decide +kernel⟩,
    ⟨w6, 2, 5, fr 1, made_inv _, by unfold PageOpen State.Up; decide +kernel⟩,
    ⟨w6, 2, made_inv _, by unfold PageOpen State.Up; decide +kernel⟩,
    ⟨w7, 2, made_inv _, by unfold PageOpen State.Up; decide +kernel⟩,
    ⟨w1, 2, made_inv _, by unfold PageOpen State.Up; decide +kernel⟩⟩

theorem met_GulegPorts_3 :
    (∃ (s : State) (p : PortId), s.Inv ∧ s.Up ∧ PageOpen s.dev (lnkPg p) ∧ s.dev.lnkState p = psUp ∧ (s.dev.lk p).waiting = false ∧ s.dev.fld 80
      F.LNK_DEV.tparent ≠ (p : Nat)) ∧
    (∃ (s : State) (p : PortId) (seq : Nat), s.Inv ∧ s.Up ∧ PageOpen s.dev (lnkPg p) ∧ s.dev.lnkState p = psKeying ∧ s.dev.fld (lnkPg p)
      F.LNK_KEYSTAT.state = 2 ∧ (s.dev.lk p).rxSeq = seq % 4096 ∧ (s.dev.lk p).waiting = false) ∧
    (∃ (s : State) (p : PortId), s.Inv ∧ s.Up ∧ PageOpen s.dev (lnkPg p) ∧ s.dev.lnkState p = psUp ∧ s.dev.bit (lnkPg p) F.LNK_STAT.enc = true ∧ 15
      * 2 ^ 36 ≤ s.dev.frameCtr p ∧ s.dev.fld (lnkPg p) F.LNK_KEYSTAT.state = 1) ∧
    (∃ (s : State) (p : PortId), s.Inv ∧ s.Up ∧ PageOpen s.dev (lnkPg p) ∧ (s.dev.lk p).waiting = true) ∧
    (∃ (s : State) (p : PortId) (m : Bool) (e : Fin 128), s.Inv ∧ s.Up ∧ PageOpen s.dev (lnkPg p) ∧ PageOpen s.dev 80 ∧ linkWmCheck (BitVec.toNat
      (s.dev.reg 80 (512 + ((if m = true then 128 else 0) + (e : Nat))))) = 0) ∧
    (∃ (s : State) (p : PortId) (m : Bool) (e : Fin 128), s.Inv ∧ s.Up ∧ PageOpen s.dev (lnkPg p) ∧ PageOpen s.dev 80 ∧ linkWmCheck (BitVec.toNat
      (s.dev.reg 80 (512 + ((if m = true then 128 else 0) + (e : Nat))))) ≠ 0) :=
  ⟨⟨w1, 2, made_inv _, by unfold PageOpen State.Up; decide +kernel⟩,
    ⟨w5, 2, 5, made_inv _, by unfold PageOpen State.Up; decide +kernel⟩,
    ⟨w10, 2, made_inv _, by unfold PageOpen State.Up; decide +kernel⟩,
    ⟨w11, 2, made_inv _, by unfold PageOpen State.Up; decide +kernel⟩,
    ⟨w0, 2, true, 0, made_inv _, by unfold PageOpen State.Up; decide +kernel⟩,
    ⟨w12, 2, true, 0, made_inv _, by unfold PageOpen State.Up; decide +kernel⟩⟩

theorem met_GulegFrames :
    (∃ (s : State) (p : PortId) (f : Frame) (seq : Nat), s.Inv ∧ s.Up ∧ PageOpen s.dev (lnkPg p) ∧ s.dev.lnkState p = psUp ∧ (s.dev.lk p).waiting =
      false ∧ (s.dev.lk p).rxSeq = seq % 4096 ∧ f.dst = s.dev.devnum ∧ f.hops = 0 ∧ f.ftype = 1 ∧ f.kind = 0 ∧ (s.dev.lk p).held.length < 256 ∧
      s.dev.remoteOk p f = true) ∧
    (∃ (s : State) (p : PortId) (f : Frame) (seq : Nat) (q : PortId) (t : Nat) (x : Packet), s.Inv ∧ s.Up ∧ PageOpen s.dev (lnkPg p) ∧
      s.dev.lnkState p = psUp ∧ (s.dev.lk p).waiting = false ∧ (s.dev.lk p).rxSeq = seq % 4096 ∧ f.dst = s.dev.devnum ∧ f.hops = 0 ∧ f.ftype = 2 ∧
      f.kind = 7 ∧ s.dev.etagOf p f.src f.etag = some (q, t, x) ∧ isPosted x.kind = false) ∧
    (∃ (s : State) (p : PortId) (f : Frame) (seq : Nat), s.Inv ∧ s.Up ∧ PageOpen s.dev (lnkPg p) ∧ s.dev.lnkState p = psUp ∧ (s.dev.lk p).waiting =
      false ∧ (s.dev.lk p).rxSeq = seq % 4096 ∧ f.dst = s.dev.devnum ∧ f.hops = 0 ∧ f.ftype = 2 ∧ f.kind = 7 ∧ s.dev.etagOf p f.src f.etag = none) ∧
    (∃ (s : State) (p : PortId) (f : Frame) (seq : Nat) (r : RegionId) (i : Nat), s.Inv ∧ s.Up ∧ PageOpen s.dev (lnkPg p) ∧ s.dev.lnkState p = psUp
      ∧ (s.dev.lk p).waiting = false ∧ (s.dev.lk p).rxSeq = seq % 4096 ∧ f.dst = s.dev.devnum ∧ f.hops = 0 ∧ f.ftype = 7 ∧ f.kind = 8 ∧ f.init =
      320 + (r : Nat) ∧ statusCause f.status = some i ∧ PageOpen s.dev (niPg r)) ∧
    (∃ (s : State) (p : PortId) (f : Frame) (seq : Nat) (q : PortId), s.Inv ∧ s.Up ∧ PageOpen s.dev (lnkPg p) ∧ s.dev.lnkState p = psUp ∧ (s.dev.lk
      p).waiting = false ∧ (s.dev.lk p).rxSeq = seq % 4096 ∧ f.hops ≠ 0 ∧ f.ftype ∈ [1, 2, 7] ∧ frameFits f = true ∧ s.dev.egress f = some q) ∧
    (∃ (s : State) (p : PortId) (seq : Nat), s.Inv ∧ s.Up ∧ PageOpen s.dev (lnkPg p) ∧ s.dev.lnkState p = psUp ∧ (s.dev.lk p).waiting = false ∧
      (s.dev.lk p).rxSeq = seq % 4096 ∧ s.dev.ldr.chain = none ∧ s.dev.ldr.src = none ∧ s.dev.ldr.lost = false) ∧
    (∃ (s : State) (p : PortId) (f : Frame), s.Inv ∧ s.Up ∧ PageOpen s.dev (lnkPg p) ∧ s.dev.lnkState p = psUp ∧ (s.dev.lk p).waiting = false ∧
      f.dst = s.dev.devnum ∧ f.hops = 0 ∧ f.ftype = 1 ∧ f.kind = 0 ∧ (s.dev.lk p).held.length < 256) ∧
    (∃ (s : State) (p : PortId) (t : Fin 4096) (x : Packet), s.Inv ∧ s.Up ∧ PageOpen s.dev (lnkPg p) ∧ s.dev.lnkState p = psUp ∧ (s.dev.lk
      p).waiting = false ∧ (s.dev.lk p).etags = [((t : Nat), x)] ∧ isPosted x.kind = false) :=
  ⟨⟨w1, 2, fr 1, 0, made_inv _, by unfold PageOpen State.Up; decide +kernel⟩,
    ⟨w15, 2, { fr 2 with kind := 7 }, 5, 2, 9, pk, made_inv _, by unfold PageOpen State.Up; decide +kernel⟩,
    ⟨w1, 2, { fr 2 with kind := 7 }, 0, made_inv _, by unfold PageOpen State.Up; decide +kernel⟩,
    ⟨w1, 2, { fr 7 with kind := 8, status := 3, init := 321 }, 0, 1, 0, made_inv _, by unfold PageOpen State.Up; decide +kernel⟩,
    ⟨w17, 2, { fr 1 with hops := 1, ports := 3 }, 5, 3, made_inv _, by unfold PageOpen State.Up; decide +kernel⟩,
    ⟨w1, 2, 0, made_inv _, by unfold PageOpen State.Up; decide +kernel⟩,
    ⟨w1, 2, fr 1, made_inv _, by unfold PageOpen State.Up; decide +kernel⟩,
    ⟨w15, 2, 9, pk, made_inv _, by unfold PageOpen State.Up; decide +kernel⟩⟩

end Links

namespace LanesOf

def p6 : Nat := lnPg 6
def st (n : Nat) : Op := setF p6 F.LN_STAT.state n
def pst (n : Nat) : Op := setF (lnkPg 1) F.LNK_STAT.state n
def w0 : State := mp (st 0)
def w2 : State := mp (both (st 0) (pst psUp))
def w4 : State := mp (st 1)
def w8 : State := mp (st 2)
def w9 : State := mp (both (st 2) (pst psTrain))
def w10 : State := mp (both (st 2) (pst psUp))
def w16 : State := mp (st 4)
def w20 : State := mp (st 5)
def w21 : State := mp (both (st 5) (pst psTrain))
def w22 : State := mp (both (st 5) (pst psUp))
def w24 : State := mp (st 6)
def w26 : State := mp (both (st 6) (pst psUp))
def w33 : State := mp (setF p6 F.LN_TEST.gen 2)
def w34 : State := mp (setF 91 F.LNK_CTL.en 1)

theorem met_SerialLanes_1 :
    (∃ (s : State) (l : LaneId), s.Inv ∧ s.Up ∧ PageOpen s.dev (lnPg l) ∧ s.dev.lnState l = lsPll ∧ ¬(l : Nat) / 12 ∈ s.dev.inn.refLost) ∧
    (∃ (s : State) (l : LaneId), s.Inv ∧ s.Up ∧ PageOpen s.dev (lnPg l) ∧ s.dev.lnState l = lsCdr) ∧
    (∃ (s : State) (l : LaneId), s.Inv ∧ s.Up ∧ PageOpen s.dev (lnPg l) ∧ s.dev.lnState l = lsRelock) ∧
    (∃ (s : State) (l : LaneId) (x : Adapted), s.Inv ∧ s.Up ∧ PageOpen s.dev (lnPg l) ∧ s.dev.lnState l = lsAdapt ∧ ¬(l : Nat) ∈ s.dev.inn.calNew ∧
      x.width ≤ 64 ∧ x.height < 1024) ∧
    (∃ (s : State) (l : LaneId), s.Inv ∧ s.Up ∧ PageOpen s.dev (lnPg l) ∧ s.dev.lnState l = lsReady ∧ (s.dev.lanePort l).isSome = true ∧ s.dev.bit
      (lnPg l) F.LN_STAT.peer_ready = false) ∧
    (∃ (s : State) (l : LaneId), s.Inv ∧ s.Up ∧ PageOpen s.dev (lnPg l) ∧ lsCdr ≤ s.dev.lnState l ∧ s.dev.lnState l ≤ lsRelock ∧ s.dev.bit (lnPg l)
      F.LN_STAT.peer_ready = false ∧ (∀ (q : PortId), s.dev.lanePort l = some q → s.dev.lnkState q = psTrain) ∧ (s.dev.lanePort l).isSome = true) :=
  ⟨⟨w4, 6, made_inv _, by unfold PageOpen State.Up; decide +kernel⟩,
    ⟨w8, 6, made_inv _, by unfold PageOpen State.Up; decide +kernel⟩,
    ⟨w24, 6, made_inv _, by unfold PageOpen State.Up; decide +kernel⟩,
    ⟨w16, 6, { ctle := 5, taps := 78187493530, cdr := 7, width := 33, height := 100 }, made_inv _, by unfold PageOpen State.Up; decide +kernel⟩,
    ⟨w20, 6, made_inv _, by unfold PageOpen State.Up; decide +kernel⟩,
    ⟨w9, 6, made_inv _, by unfold PageOpen State.Up; decide +kernel⟩⟩

theorem met_SerialLanes_2 :
    (∃ (s : State) (l : LaneId), s.Inv ∧ s.Up ∧ PageOpen s.dev (lnPg l) ∧ s.dev.lnState l = lsReady ∧ (∀ (q : PortId), s.dev.lanePort l = some q →
      s.dev.lnkState q = psUp)) ∧
    (∃ (s : State) (l : LaneId), s.Inv ∧ s.Up ∧ PageOpen s.dev (lnPg l) ∧ s.dev.lnState l = lsReady ∧ (∀ (q : PortId), s.dev.lanePort l = some q →
      s.dev.lnkState q = psTrain)) ∧
    (∃ (s : State) (l : LaneId), s.Inv ∧ s.Up ∧ PageOpen s.dev (lnPg l) ∧ s.dev.lnState l = lsReady) ∧
    (∃ (s : State) (l : LaneId), s.Inv ∧ s.Up ∧ PageOpen s.dev (lnPg l) ∧ s.dev.lnState l = lsReady ∧ (s.dev.lanePort l).isSome = true) ∧
    (∃ (s : State) (l : LaneId), s.Inv ∧ s.Up ∧ PageOpen s.dev (lnPg l) ∧ s.dev.lnState l = lsReady ∧ s.dev.bit (lnPg l) F.LN_EYETHR.scan_en =
      true) ∧
    (∃ (s : State) (l : LaneId), s.Inv ∧ s.Up ∧ PageOpen s.dev (lnPg l) ∧ s.dev.lnState l = lsRelock ∧ (∀ (q : PortId), s.dev.lanePort l = some q →
      s.dev.lnkState q = psUp)) :=
  ⟨⟨w22, 6, made_inv _, by unfold PageOpen State.Up; decide +kernel⟩,
    ⟨w21, 6, made_inv _, by unfold PageOpen State.Up; decide +kernel⟩,
    ⟨w20, 6, made_inv _, by unfold PageOpen State.Up; decide +kernel⟩,
    ⟨w20, 6, made_inv _, by unfold PageOpen State.Up; decide +kernel⟩,
    ⟨w20, 6, made_inv _, by unfold PageOpen State.Up; decide +kernel⟩,
    ⟨w26, 6, made_inv _, by unfold PageOpen State.Up; decide +kernel⟩⟩

theorem met_SerialLanes_3 :
    (∃ (s : State) (l : LaneId), s.Inv ∧ s.Up ∧ PageOpen s.dev (lnPg l) ∧ lsCdr ≤ s.dev.lnState l ∧ s.dev.lnState l ≤ lsRelock ∧ (∀ (q : PortId),
      s.dev.lanePort l = some q → s.dev.lnkState q = psUp)) ∧
    (∃ (s : State) (l : LaneId) (g : Fin 4), s.Inv ∧ s.Up ∧ PageOpen s.dev (lnPg l) ∧ (l : Nat) / 12 = (g : Nat) ∧ ¬(g : Nat) ∈ s.dev.inn.refLost ∧
      lsPll ≤ s.dev.lnState l ∧ s.dev.lnState l ≤ lsRelock) ∧
    (∃ (s : State) (l : LaneId) (g : Fin 4), s.Inv ∧ s.Up ∧ PageOpen s.dev (lnPg l) ∧ (l : Nat) / 12 = (g : Nat)) ∧
    (∃ (s : State) (l : LaneId) (a : Fin 16) (b : Fin 64) (c : Fin 32), s.Inv ∧ s.Up ∧ PageOpen s.dev (lnPg l) ∧ (a : Nat) + (b : Nat) + (c : Nat)
      ≤ 63 ∧ 24 ≤ (b : Nat)) ∧
    (∃ (s : State) (l : LaneId) (a : Fin 16) (b : Fin 64) (c : Fin 32), s.Inv ∧ s.Up ∧ PageOpen s.dev (lnPg l) ∧ ¬((a : Nat) + (b : Nat) + (c :
      Nat) ≤ 63 ∧ 24 ≤ (b : Nat))) ∧
    (∃ (s : State) (l : LaneId) (loop : Fin 4) (gen : Fin 8) (chk : Fin 8), s.Inv ∧ s.Up ∧ PageOpen s.dev (lnPg l) ∧ (loop : Nat) ≠ 0 ∧ (gen : Nat)
      ≤ 4 ∧ (chk : Nat) ≤ 4 ∧ s.dev.ownerUp l = false ∧ (∀ (q : PortId), s.dev.lanePort l = some q → s.dev.lnkState q = psTrain)) :=
  ⟨⟨w10, 6, made_inv _, by unfold PageOpen State.Up; decide +kernel⟩,
    ⟨w4, 6, 0, made_inv _, by unfold PageOpen State.Up; decide +kernel⟩,
    ⟨w0, 6, 0, made_inv _, by unfold PageOpen State.Up; decide +kernel⟩,
    ⟨w0, 6, 3, 30, 3, made_inv _, by unfold PageOpen State.Up; decide +kernel⟩,
    ⟨w0, 6, 3, 30, 31, made_inv _, by unfold PageOpen State.Up; decide +kernel⟩,
    ⟨w9, 6, 1, 1, 1, made_inv _, by unfold PageOpen State.Up; decide +kernel⟩⟩

theorem met_SerialLanes_4 :
    (∃ (s : State) (l : LaneId) (loop : Fin 4) (gen : Fin 8) (chk : Fin 8), s.Inv ∧ s.Up ∧ PageOpen s.dev (lnPg l) ∧ (loop : Nat) ≠ 0 ∧ (gen : Nat)
      ≤ 4 ∧ (chk : Nat) ≤ 4 ∧ s.dev.ownerUp l = true) ∧
    (∃ (s : State) (l : LaneId), s.Inv ∧ s.Up ∧ PageOpen s.dev (lnPg l) ∧ s.dev.fld (lnPg l) F.LN_TEST.gen ≠ 0) ∧
    (∃ (s : State) (l : LaneId), s.Inv ∧ s.Up ∧ PageOpen s.dev (lnPg l)) ∧
    (∃ (s : State) (l : LaneId) (eth : Bool), s.Inv ∧ s.Up ∧ PageOpen s.dev (lnPg l) ∧ l = 44 ∧ s.dev.eth ≠ eth ∧ s.dev.bit 91 F.LNK_CTL.en = false
      ∧ s.dev.bit 41 F.ETH_CTL.en = false ∧ s.dev.bit 42 F.ETH_CTL.en = false) ∧
    (∃ (s : State) (l : LaneId) (eth : Bool), s.Inv ∧ s.Up ∧ PageOpen s.dev (lnPg l) ∧ l = 44 ∧ s.dev.eth ≠ eth ∧ s.dev.bit 91 F.LNK_CTL.en = true) :=
  ⟨⟨w2, 6, 1, 1, 1, made_inv _, by unfold PageOpen State.Up; decide +kernel⟩,
    ⟨w33, 6, made_inv _, by unfold PageOpen State.Up; decide +kernel⟩,
    ⟨w0, 6, made_inv _, by unfold PageOpen State.Up; decide +kernel⟩,
    ⟨w0, 44, true, made_inv _, by unfold PageOpen State.Up; decide +kernel⟩,
    ⟨w34, 44, true, made_inv _, by unfold PageOpen State.Up; decide +kernel⟩⟩

end LanesOf

namespace Ext

def x0 : Nat := extPg 0
def xm (f : ExtS → ExtS) : Op := modI fun n => {n with ext := n.ext.set 0 (f n.ext[0])}
def cm (f : CryS → CryS) : Op := modI fun n => {n with cry := f n.cry}
def live (m : Nat) : Op := ops [setF x0 F.EXT_STAT.state 3, setF x0 F.EXT_STAT.mode m, setF x0 F.EXT_STAT.size 16]
def pk (k : Nat) (be : Nat := 2^64-1) : Packet := {kind := k, cls := 1, tag := 4, src := 0x144, dev := 0, addr := extBase + 0x80, be := be, word := 0, data := List.replicate 64 7, exit := 2, pos := chanRouter 0, out := true}
def nt (p : Packet) : Op := modI fun n => {n with net := [p]}
def w0 : State := mp (ops [live mBlanket, nt (pk 0), setBytes (extBase + 0x80) [1,2,3]])
def w1 : State := mp (ops [live mBlanket, nt (pk 1), setBytes (extBase + 0x80) [1,2,3]])
def w2 : State := mp (ops [live mBlanket, nt (pk 1 5), setBytes (extBase + 0x80) [1,2,3]])
def w3 : State := mp (ops [live mFull, nt (pk 0), setBytes (extBase + 0x80) [1,2,3]])
def w4 : State := mp (ops [live mFull, nt (pk 1), setBytes (extBase + 0x80) [1,2,3]])
def w7 : State := mp (setF x0 F.EXT_STAT.state 1)
def w9 : State := mp (ops [live 2, setF x0 F.EXT_SWEEP.sweeping 1])
def w11 : State := mp (ops [live 2, setF x0 F.EXT_SWEEP.sweeping 1, xm fun x => {x with bound := 2^22}])
def w15 : State := mp (ops [live 2, cm fun c => {c with count := c.count.set 0 (15*2^40)}])
def w16 : State := mp (ops [live 1, setF 38 fClkEn 1, setF 39 fClkEn 1])
def w17 : State := mp (ops [live 2, setF 38 fClkEn 1])
def w18 : State := mp (ops [live 1, setF 38 fClkEn 1, setF 39 fClkEn 1, modI fun n => {n with stw := {n.stw with memKeys := true}}])
def w19 : State := mp (ops [live 2, setF 38 F.CRY_STAT.busy 1, setF 38 F.CRY_STAT.region 1,
  cm fun c => {c with count := c.count.set 0 (15*2^40), own := 2^24, passed := 2^18}])
def w20 : State := mp (ops [live 2, setF 38 F.CRY_STAT.busy 1, setF 38 F.CRY_STAT.region 1, setF 38 F.CRY_RSTAT.boundary 9,
  cm fun c => {c with forced := true}])

theorem met_ExternalMemory :
    (∃ (s : State) (c : ChanId) (pk : Packet) (f : LineFound), s.Inv ∧ s.Up ∧ s.dev.inReset (extPg c) = false ∧ s.dev.inn.net = [pk] ∧ pk.out =
      true ∧ pk.pos = chanRouter c ∧ pk.exit = 2 ∧ inExt (pk.addr / 64 * 64) = true ∧ extChan (pk.addr / 64 * 64) = c ∧ s.dev.extBlocked c (extOff
      (pk.addr / 64 * 64)) = none ∧ pk.kind = 0 ∧ s.dev.extReadStatus c (extOff (pk.addr / 64 * 64)) f.ext = Status.ok) ∧
    (∃ (s : State) (c : ChanId) (pk : Packet) (f : LineFound), s.Inv ∧ s.Up ∧ s.dev.inReset (extPg c) = false ∧ s.dev.inn.net = [pk] ∧ pk.out =
      true ∧ pk.pos = chanRouter c ∧ pk.exit = 2 ∧ inExt (pk.addr / 64 * 64) = true ∧ extChan (pk.addr / 64 * 64) = c ∧ s.dev.extBlocked c (extOff
      (pk.addr / 64 * 64)) = none ∧ pk.kind = 0 ∧ f.ext = ExtFound.bad ∧ s.dev.extChecked c (extOff (pk.addr / 64 * 64)) = true ∧ ¬extOff (pk.addr
      / 64 * 64) / 64 ∈ (s.dev.ext c).poison) ∧
    (∃ (s : State) (c : ChanId) (pk : Packet) (f : LineFound) (l : Fin 3), s.Inv ∧ s.Up ∧ s.dev.inReset (extPg c) = false ∧ s.dev.inn.net = [pk] ∧
      pk.out = true ∧ pk.pos = chanRouter c ∧ pk.exit = 2 ∧ inExt (pk.addr / 64 * 64) = true ∧ extChan (pk.addr / 64 * 64) = c ∧ s.dev.extBlocked c
      (extOff (pk.addr / 64 * 64)) = none ∧ pk.kind = 1 ∧ s.dev.extStalled c (extOff (pk.addr / 64 * 64)) = false ∧ s.dev.unswept c (extOff
      (pk.addr / 64 * 64) / 4096) = false ∧ pk.be = 2 ^ 64 - 1 ∧ s.dev.counterBad c f.ext = some l) ∧
    (∃ (s : State) (c : ChanId) (pk : Packet) (f : LineFound), s.Inv ∧ s.Up ∧ s.dev.inReset (extPg c) = false ∧ s.dev.inn.net = [pk] ∧ pk.out =
      true ∧ pk.pos = chanRouter c ∧ pk.exit = 2 ∧ inExt (pk.addr / 64 * 64) = true ∧ extChan (pk.addr / 64 * 64) = c ∧ s.dev.extBlocked c (extOff
      (pk.addr / 64 * 64)) = none ∧ pk.kind = 1 ∧ s.dev.extStalled c (extOff (pk.addr / 64 * 64)) = false ∧ s.dev.unswept c (extOff (pk.addr / 64 *
      64) / 4096) = false ∧ pk.be = 2 ^ 64 - 1 ∧ pk.data.length = 64 ∧ s.dev.counterBad c f.ext = none) ∧
    (∃ (s : State) (c : ChanId) (pk : Packet) (f : LineFound), s.Inv ∧ s.Up ∧ s.dev.inReset (extPg c) = false ∧ s.dev.inn.net = [pk] ∧ pk.out =
      true ∧ pk.pos = chanRouter c ∧ pk.exit = 2 ∧ inExt (pk.addr / 64 * 64) = true ∧ extChan (pk.addr / 64 * 64) = c ∧ s.dev.extBlocked c (extOff
      (pk.addr / 64 * 64)) = none ∧ pk.kind = 1 ∧ s.dev.extStalled c (extOff (pk.addr / 64 * 64)) = false ∧ s.dev.unswept c (extOff (pk.addr / 64 *
      64) / 4096) = false ∧ pk.be < 2 ^ 64 - 1 ∧ s.dev.extReadStatus c (extOff (pk.addr / 64 * 64)) f.ext = Status.ok) ∧
    (∃ (s : State) (c : ChanId) (mib : Nat) (m1 : Nat) (m2 : Nat) (m3 : Nat) (k : Nat), s.Inv ∧ s.Up ∧ s.dev.inReset (extPg c) = false ∧ s.dev.fld
      (extPg c) F.EXT_STAT.state = 1 ∧ (trainedRate (s.dev.fld (extPg c) F.EXT_CFG.max_rate) (s.dev.fld (extPg c) F.EXT_CFG.margin_min) fun i => if
      (i : Nat) = 0 then m1 else if (i : Nat) = 1 then m2 else m3) = some k ∧ mib ≠ 0) ∧
    (∃ (s : State) (c : ChanId) (mib : Nat) (m1 : Nat) (m2 : Nat) (m3 : Nat), s.Inv ∧ s.Up ∧ s.dev.inReset (extPg c) = false ∧ s.dev.fld (extPg c)
      F.EXT_STAT.state = 1 ∧ ((trainedRate (s.dev.fld (extPg c) F.EXT_CFG.max_rate) (s.dev.fld (extPg c) F.EXT_CFG.margin_min) fun i => if (i :
      Nat) = 0 then m1 else if (i : Nat) = 1 then m2 else m3) = none ∨ mib = 0)) ∧
    (∃ (s : State) (c : ChanId) (code : Fin 8), s.Inv ∧ s.Up ∧ s.dev.inReset (extPg c) = false ∧ s.dev.fld (extPg c) F.EXT_TEMP.code < (code :
      Nat)) ∧
    (∃ (s : State) (c : ChanId), s.Inv ∧ s.Up ∧ s.dev.inReset (extPg c) = false ∧ s.dev.bit (extPg c) F.EXT_SWEEP.sweeping = true ∧ (s.dev.ext
      c).bound < s.dev.extGib c * 2 ^ 18) ∧
    (∃ (s : State) (c : ChanId), s.Inv ∧ s.Up ∧ s.dev.inReset (extPg c) = false ∧ s.dev.bit (extPg c) F.EXT_SWEEP.sweeping = true ∧ s.dev.extGib c
      * 2 ^ 18 ≤ (s.dev.ext c).bound) ∧
    (∃ (s : State) (c : ChanId), s.Inv ∧ s.Up ∧ s.dev.inReset (extPg c) = false ∧ s.dev.gated (extPg c) = false) ∧
    (∃ (s : State) (c : ChanId), s.Inv ∧ s.Up ∧ s.dev.inReset (extPg c) = false ∧ PageOpen s.dev 39) :=
  ⟨⟨w0, 0, pk 0, { }, made_inv _, by unfold State.Up; decide +kernel⟩,
    ⟨w3, 0, pk 0, { ext := ExtFound.bad }, made_inv _, by unfold State.Up; decide +kernel⟩,
    ⟨w4, 0, pk 1, { ext := ExtFound.counter 1 }, Fin.ofNat 3 1, made_inv _, by unfold State.Up; decide +kernel⟩,
    ⟨w1, 0, pk 1, { }, made_inv _, by unfold State.Up; decide +kernel⟩,
    ⟨w2, 0, pk 1 5, { }, made_inv _, by unfold State.Up; decide +kernel⟩,
    ⟨w7, 0, 9, 0, 0, 60, 3, made_inv _, by unfold State.Up; decide +kernel⟩,
    ⟨w7, 0, 0, 0, 0, 0, made_inv _, by unfold State.Up; decide +kernel⟩,
    ⟨w0, 0, 1, made_inv _, by unfold State.Up; decide +kernel⟩,
    ⟨w9, 0, made_inv _, by unfold State.Up; decide +kernel⟩,
    ⟨w11, 0, made_inv _, by unfold State.Up; decide +kernel⟩,
    ⟨w0, 0, made_inv _, by unfold State.Up; decide +kernel⟩,
    ⟨w16, 0, made_inv _, by unfold PageOpen State.Up; decide +kernel⟩⟩

theorem met_KeyRegions :
    (∃ (s : State) (who : Who), s.Inv ∧ s.Up ∧ s.dev.inReset 38 = false ∧ s.dev.gated 38 = false ∧ who ≠ Who.steward) ∧
    (∃ (s : State), s.Inv ∧ s.Up ∧ s.dev.inReset 38 = false ∧ s.dev.gated 38 = false ∧ s.dev.stw.memKeys = false) ∧
    (∃ (s : State), s.Inv ∧ s.Up ∧ s.dev.inReset 38 = false ∧ s.dev.gated 38 = false ∧ s.dev.stw.memKeys = true ∧ s.dev.fld 36 F.EXT_STAT.state = 3
      ∧ s.dev.extMode 0 = mBlanket) ∧
    (∃ (s : State) (k : Fin 32), s.Inv ∧ s.Up ∧ s.dev.inReset 38 = false ∧ s.dev.regionInUse (k : Nat) = true ∧ s.dev.rambling = false ∧ 15 * 2 ^
      40 ≤ s.dev.kCount (k : Nat)) ∧
    (∃ (s : State) (k : Fin 32), s.Inv ∧ s.Up ∧ s.dev.inReset 38 = false ∧ s.dev.regionInUse (k : Nat) = true ∧ s.dev.rambling = false ∧
      s.dev.gated 38 = false) ∧
    (∃ (s : State) (k : Fin 32), s.Inv ∧ s.Up ∧ s.dev.inReset 38 = false ∧ s.dev.regionInUse (k : Nat) = true ∧ s.dev.rambling = true ∧
      s.dev.ramRegion ≠ (k : Nat) ∧ s.dev.inn.cry.queue = [] ∧ 15 * 2 ^ 40 ≤ s.dev.kCount (k : Nat)) ∧
    (∃ (s : State), s.Inv ∧ s.Up ∧ s.dev.inReset 38 = false ∧ s.dev.rambling = true ∧ s.dev.fld 38 F.CRY_RSTAT.boundary < 2 ^ 18 - 1 ∧
      s.dev.inn.cry.passed < 2 ^ 18 ∧ ¬s.dev.ramPage ∈ (s.dev.ext (regionChan s.dev.ramRegion)).lost) ∧
    (∃ (s : State), s.Inv ∧ s.Up ∧ s.dev.inReset 38 = false ∧ s.dev.rambling = true ∧ 2 ^ 18 ≤ s.dev.inn.cry.passed ∧ s.dev.inn.cry.queue = []) :=
  ⟨⟨w16, Who.host, made_inv _, by unfold State.Up; decide +kernel⟩,
    ⟨w16, made_inv _, by unfold State.Up; decide +kernel⟩,
    ⟨w18, made_inv _, by unfold State.Up; decide +kernel⟩,
    ⟨w15, 0, made_inv _, by unfold State.Up; decide +kernel⟩,
    ⟨w17, 0, made_inv _, by unfold State.Up; decide +kernel⟩,
    ⟨w19, 0, made_inv _, by unfold State.Up; decide +kernel⟩,
    ⟨w20, made_inv _, by unfold State.Up; decide +kernel⟩,
    ⟨w19, made_inv _, by unfold State.Up; decide +kernel⟩⟩

end Ext

namespace Io

def b1 : Nat := ioPg 1
def g3 : Nat := serPg 3
def e1 : Nat := ethPg 1
def sem (f : SerS → SerS) : Op := modI fun n => {n with ser := n.ser.set 3 (f n.ser[3])}
def mcm (f : MacS → MacS) : Op := modI fun n => {n with mac := n.mac.set 1 (f n.mac[1])}
def clk : Op := ops [setF g3 fClkEn 1, setF e1 fClkEn 1, setF (mbPg 1) fClkEn 1, setF b1 fClkEn 1, setF 40 fClkEn 1]
def fill (n : Nat) : List Word := List.replicate n 5
def fop (p : Bool) : FlashOp := {program := p, addr := 0x10000, data := [1,2,3]}
def eo : Op := ops [setF 140 F.LN_ETHSEL.eth 1]
def eUp : Op := ops [eo, setF e1 F.ETH_STAT.up 1, setF e1 F.ETH_CTL.en 1, modI fun n => {n with rgn := n.rgn.set 62 {n.rgn[62] with loadReset := false}}]
def mac0 : List Byte := [0xFF,0xFF,0xFF,0xFF,0xFF,0xFF] ++ List.replicate 60 3
def tx0 : TxFrame := {data := mac0, ts := none}
def gcl : Op := ops [setF e1 F.ETH_GCLCTL.en 1, setReg e1 256 0xFF000064, setReg e1 257 0x0F000064, mcm fun x => {x with len := 2, cycle := 150, cycleAt := 0}]
def w0 : State := mp (both clk skip)
def w2 : State := mp (both clk (ops [setF b1 F.IO_DLYSEL.pin 5, modI fun n => {n with tapGoal := [(48+5, 9)]}]))
def w4 : State := mp (both clk (sem fun q => {q with tx := [3,4], rx := [3,5]}))
def w5 : State := mp (both clk (sem fun q => {q with tx := fill 64}))
def w6 : State := mp (both clk (ops [setF g3 F.SER_CTL.mode 1, setF g3 F.SER_FMT.bits 8]))
def w7 : State := mp (both clk (ops [setF g3 F.SER_CTL.mode 1, sem fun q => {q with rx := fill 64, tx := [3,4]}]))
def w8 : State := mp (both clk (ops [setF g3 F.SER_CTL.mode 3, setF g3 F.SER_SPI.wlen 7, sem fun q => {q with tx := [3,4]}]))
def w10 : State := mp (both clk (ops [setF (mbPg 1) F.MB_CTL.en 1]))
def w11 : State := mp (both clk (ops [setF (mbPg 1) F.MB_CTL.en 1, modI fun n => {n with mb := n.mb.set 1 (some (5,1,2))}]))
def w12 : State := mp (both clk eo)
def w13 : State := mp (both clk eUp)
def w14 : State := mp (both clk (ops [eUp, mcm fun x => {x with rx := List.replicate 1024 {data := [1], err := false, ts := 0}}]))
def w15 : State := mp (both clk (ops [eUp, mcm fun x => {x with tx := x.tx.set 5 [tx0, tx0]}]))
def w16 : State := mp (both clk (ops [eUp, mcm fun x => {x with rx := [{data := mac0, err := false, ts := 0}]}]))
def w18 : State := mp (both clk (setReg e1 R.ETH_GCLBASE_LO 500))
def w19 : State := mp (both clk (mcm fun x => {x with change := some (0, 2, 5)}))
def w20 : State := mp (both clk (ops [gcl, modI fun n => {n with devtime := 300}]))
def w22 : State := mp (both clk (ops [setF 40 F.FL_ADDR.addr 0x20000, setF 40 fOpen 1, setF 40 fOwner 0x101]))
def w23 : State := mp (both clk (ops [setF 40 F.FL_ADDR.addr 0x20001, setF 40 fOpen 1, setF 40 fOwner 0x101]))
def w24 : State := mp (both clk (modI fun n => {n with flash := some (fop true)}))

theorem met_BanksSerialPortsBuses :
    (∃ (s : State) (b : BankId), s.Inv ∧ s.Up ∧ s.dev.inReset (ioPg b) = false) ∧
    (∃ (s : State) (b : BankId), s.Inv ∧ s.Up ∧ s.dev.inReset (ioPg b) = false ∧ s.dev.gated (ioPg b) = false ∧ s.dev.fld (ioPg b) F.IO_DLYSEL.pin
      < 48 ∧ s.dev.tap (48 * (b : Nat) + s.dev.fld (ioPg b) F.IO_DLYSEL.pin) = s.dev.tapGoal (48 * (b : Nat) + s.dev.fld (ioPg b) F.IO_DLYSEL.pin)) ∧
    (∃ (s : State) (b : BankId), s.Inv ∧ s.Up ∧ s.dev.inReset (ioPg b) = false ∧ s.dev.gated (ioPg b) = false ∧ s.dev.fld (ioPg b) F.IO_DLYSEL.pin
      < 48 ∧ s.dev.tap (48 * (b : Nat) + s.dev.fld (ioPg b) F.IO_DLYSEL.pin) ≠ s.dev.tapGoal (48 * (b : Nat) + s.dev.fld (ioPg b) F.IO_DLYSEL.pin)) ∧
    (∃ (s : State) (p : SerialId), s.Inv ∧ s.Up ∧ PageOpen s.dev (serPg p) ∧ (s.dev.se p).tx.length < 64) ∧
    (∃ (s : State) (p : SerialId), s.Inv ∧ s.Up ∧ PageOpen s.dev (serPg p) ∧ 64 ≤ (s.dev.se p).tx.length) ∧
    (∃ (s : State) (p : SerialId) (w : Word) (rest : List Word) (who : Who), s.Inv ∧ s.Up ∧ PageOpen s.dev (serPg p) ∧ who ≠ Who.debugger ∧
      (s.dev.se p).rx = w :: rest) ∧
    (∃ (s : State) (p : SerialId), s.Inv ∧ s.Up ∧ PageOpen s.dev (serPg p) ∧ s.dev.serMode p = 1 ∧ (s.dev.se p).rx.length < 64) ∧
    (∃ (s : State) (p : SerialId), s.Inv ∧ s.Up ∧ PageOpen s.dev (serPg p) ∧ s.dev.serMode p = 1 ∧ 64 ≤ (s.dev.se p).rx.length) ∧
    (∃ (s : State) (p : SerialId) (w : Word) (rest : List Word) (ctsN : Bool), s.Inv ∧ s.Up ∧ PageOpen s.dev (serPg p) ∧ (s.dev.se p).tx = w ::
      rest ∧ s.dev.serMode p = 1 ∧ (s.dev.bit (serPg p) F.SER_CTL.flow = false ∨ ctsN = false)) ∧
    (∃ (s : State) (p : SerialId) (w : Word) (rest : List Word), s.Inv ∧ s.Up ∧ PageOpen s.dev (serPg p) ∧ (s.dev.se p).tx = w :: rest ∧
      s.dev.serMode p = 3 ∧ (s.dev.se p).rx.length < 64) ∧
    (∃ (s : State) (m : Fin 4) (x : Fin 8) (y : Fin 8), s.Inv ∧ s.Up ∧ PageOpen s.dev (mbPg m) ∧ s.dev.bit (mbPg m) F.MB_STAT.busy = false ∧
      s.dev.bit (mbPg m) F.MB_CTL.en = true ∧ (x : Nat) ≤ 4 ∧ (y : Nat) ≤ 4) ∧
    (∃ (s : State) (m : Fin 4) (z : Nat × Nat × Nat) (r : Fin 4), s.Inv ∧ s.Up ∧ PageOpen s.dev (mbPg m) ∧ s.dev.inn.mb[(m : Nat)] = some z ∧ r =
      0) ∧
    (∃ (s : State) (m : Fin 4) (z : Nat × Nat × Nat) (r : Fin 4), s.Inv ∧ s.Up ∧ PageOpen s.dev (mbPg m) ∧ s.dev.inn.mb[(m : Nat)] = some z ∧ r ≠
      0) ∧
    (∃ (s : State) (m : Fin 4) (z : Nat × Nat × Nat), s.Inv ∧ s.Up ∧ PageOpen s.dev (mbPg m) ∧ s.dev.inn.mb[(m : Nat)] = some z) :=
  ⟨⟨w0, 1, made_inv _, by unfold State.Up; decide +kernel⟩,
    ⟨w0, 1, made_inv _, by unfold State.Up; decide +kernel⟩,
    ⟨w2, 1, made_inv _, by unfold State.Up; decide +kernel⟩,
    ⟨w0, 3, made_inv _, by unfold PageOpen State.Up; decide +kernel⟩,
    ⟨w5, 3, made_inv _, by unfold PageOpen State.Up; decide +kernel⟩,
    ⟨w4, 3, 3, [5], Who.host, made_inv _, by unfold PageOpen State.Up; decide +kernel⟩,
    ⟨w6, 3, made_inv _, by unfold PageOpen State.Up; decide +kernel⟩,
    ⟨w7, 3, made_inv _, by unfold PageOpen State.Up; decide +kernel⟩,
    ⟨w7, 3, 3, [4], true, made_inv _, by unfold PageOpen State.Up; decide +kernel⟩,
    ⟨w8, 3, 3, [4], made_inv _, by unfold PageOpen State.Up; decide +kernel⟩,
    ⟨w10, 1, 0, 0, made_inv _, by unfold PageOpen State.Up; decide +kernel⟩,
    ⟨w11, 1, (5, (fun y => (1, y)) 2), 0, made_inv _, by unfold PageOpen State.Up; decide +kernel⟩,
    ⟨w11, 1, (5, (fun y => (1, y)) 2), 1, made_inv _, by unfold PageOpen State.Up; decide +kernel⟩,
    ⟨w11, 1, (5, (fun y => (1, y)) 2), made_inv _, by unfold PageOpen State.Up; decide +kernel⟩⟩

theorem met_EthernetAndFlash_1 :
    (∃ (s : State) (m : MacId) (rate : Fin 4), s.Inv ∧ s.Up ∧ PageOpen s.dev (ethPg m) ∧ s.dev.bit (ethPg m) F.ETH_CTL.en = false ∧ s.dev.eth =
      true ∧ (rate : Nat) < 2 ∧ s.dev.underTest (Fin.ofNat 48 (44 + (m : Nat))) = false) ∧
    (∃ (s : State) (m : MacId), s.Inv ∧ s.Up ∧ PageOpen s.dev (ethPg m) ∧ s.dev.bit (ethPg m) F.ETH_CTL.en = false ∧ s.dev.eth = false) ∧
    (∃ (s : State) (m : MacId) (bs : List Byte), s.Inv ∧ s.Up ∧ PageOpen s.dev (ethPg m) ∧ s.dev.bit (ethPg m) F.ETH_STAT.up = true ∧ s.dev.bit
      (ethPg m) F.ETH_CTL.en = true ∧ s.dev.macTakes m bs = true ∧ (s.dev.mc m).fill + rxUnits bs.length ≤ 1024) ∧
    (∃ (s : State) (m : MacId) (bs : List Byte), s.Inv ∧ s.Up ∧ PageOpen s.dev (ethPg m) ∧ s.dev.bit (ethPg m) F.ETH_STAT.up = true ∧ s.dev.bit
      (ethPg m) F.ETH_CTL.en = true ∧ s.dev.macTakes m bs = true ∧ 1024 < (s.dev.mc m).fill + rxUnits bs.length) ∧
    (∃ (s : State) (m : MacId) (q : Fin 8) (f : TxFrame) (rest : List TxFrame), s.Inv ∧ s.Up ∧ PageOpen s.dev (ethPg m) ∧ s.dev.bit (ethPg m)
      F.ETH_STAT.up = true ∧ s.dev.bit (ethPg m) F.ETH_CTL.en = true ∧ (∀ (k : Fin 8), (s.dev.mc m).tx[(k : Nat)] = if k = q then f :: rest else
      []) ∧ s.dev.slope m (q : Nat) = 0 ∧ s.dev.gclOn m = false ∧ (s.dev.mc m).busy ≤ s.dev.now) :=
  ⟨⟨w12, 1, 1, made_inv _, by unfold PageOpen State.Up; decide +kernel⟩,
    ⟨w0, 1, made_inv _, by unfold PageOpen State.Up; decide +kernel⟩,
    ⟨w13, 1, mac0, made_inv _, by unfold PageOpen State.Up; decide +kernel⟩,
    ⟨w14, 1, mac0, made_inv _, by unfold PageOpen State.Up; decide +kernel⟩,
    ⟨w15, 1, 5, tx0, [tx0], made_inv _, by unfold PageOpen State.Up; decide +kernel⟩⟩

theorem met_EthernetAndFlash_2 :
    (∃ (s : State) (m : MacId) (f : RxFrame) (rest : List RxFrame), s.Inv ∧ s.Up ∧ PageOpen s.dev (ethPg m) ∧ s.dev.clientOk m = true ∧
      s.dev.enable (macClient m) = true ∧ (s.dev.mc m).rx = f :: rest) ∧
    (∃ (s : State) (m : MacId) (q : Fin 8), s.Inv ∧ s.Up ∧ PageOpen s.dev (ethPg m) ∧ s.dev.clientOk m = true ∧ s.dev.enable (macClient m) = true ∧
      txBytes (s.dev.mc m).tx[(q : Nat)] + 16 ≤ 16384) ∧
    (∃ (s : State) (m : MacId), s.Inv ∧ s.Up ∧ PageOpen s.dev (ethPg m) ∧ s.dev.now < s.dev.reg64 (ethPg m) R.ETH_GCLBASE_LO) ∧
    (∃ (s : State) (m : MacId) (t : Nat) (n : Nat) (c : Nat), s.Inv ∧ s.Up ∧ PageOpen s.dev (ethPg m) ∧ (s.dev.mc m).change = some (t, n, c) ∧ t ≤
      s.dev.now) ∧
    (∃ (s : State) (m : MacId), s.Inv ∧ s.Up ∧ PageOpen s.dev (ethPg m) ∧ s.dev.gclOn m = true ∧ (s.dev.mc m).cycle ≠ 0 ∧ (s.dev.mc m).cycleAt +
      s.dev.gclEnd m (s.dev.mc m).entry ≤ s.dev.now) :=
  ⟨⟨w16, 1, { data := mac0, err := false, ts := 0 }, [], made_inv _, by unfold PageOpen State.Up; decide +kernel⟩,
    ⟨w13, 1, 5, made_inv _, by unfold PageOpen State.Up; decide +kernel⟩,
    ⟨w18, 1, made_inv _, by unfold PageOpen State.Up; decide +kernel⟩,
    ⟨w19, 1, 0, 2, 5, made_inv _, by unfold PageOpen State.Up; decide +kernel⟩,
    ⟨w20, 1, made_inv _, by unfold PageOpen State.Up; decide +kernel⟩⟩

theorem met_EthernetAndFlash_3 :
    (∃ (s : State) (who : Who), s.Inv ∧ s.Up ∧ PageOpen s.dev 40 ∧ s.dev.bit 40 F.FL_STAT.busy = false ∧ s.dev.unlockedFor 40 who = true ∧
      flashWriter who (s.dev.fld 40 F.FL_ADDR.addr) = true ∧ s.dev.fld 40 F.FL_ADDR.addr % 256 = 0) ∧
    (∃ (s : State) (who : Who), s.Inv ∧ s.Up ∧ PageOpen s.dev 40 ∧ s.dev.bit 40 F.FL_STAT.busy = false ∧ s.dev.unlockedFor 40 who = true ∧
      flashWriter who (s.dev.fld 40 F.FL_ADDR.addr) = true ∧ s.dev.fld 40 F.FL_ADDR.addr % 256 ≠ 0) ∧
    (∃ (s : State) (who : Who), s.Inv ∧ s.Up ∧ PageOpen s.dev 40 ∧ s.dev.bit 40 F.FL_STAT.busy = false ∧ s.dev.unlockedFor 40 who = true ∧
      flashWriter who (s.dev.fld 40 F.FL_ADDR.addr) = true) ∧
    (∃ (s : State) (who : Who), s.Inv ∧ s.Up ∧ PageOpen s.dev 40 ∧ s.dev.bit 40 F.FL_STAT.busy = false ∧ (flashWriter who (s.dev.fld 40
      F.FL_ADDR.addr) = false ∨ s.dev.unlockedFor 40 who = false)) ∧
    (∃ (s : State) (f : FlashOp), s.Inv ∧ s.Up ∧ s.dev.inn.flash = some f ∧ f.addr < 134217728) :=
  ⟨⟨w22, Who.steward, made_inv _, by unfold PageOpen State.Up; decide +kernel⟩,
    ⟨w23, Who.steward, made_inv _, by unfold PageOpen State.Up; decide +kernel⟩,
    ⟨w22, Who.steward, made_inv _, by unfold PageOpen State.Up; decide +kernel⟩,
    ⟨w0, Who.host, made_inv _, by unfold PageOpen State.Up; decide +kernel⟩,
    ⟨w24, fop true, made_inv _, by unfold State.Up; decide +kernel⟩⟩

end Io

namespace Clock

def clk : Op := ops [setF 13 fClkEn 1, setF 14 fClkEn 1, setF 15 fClkEn 1, setF 16 fClkEn 1]
def w0 : State := mp (both clk skip)
def w2 : State := mp (both clk (modI fun n => {n with pllOn := true}))
def w3 : State := mp (both clk (setF 14 (fGrpPend 1) 1))
def w5 : State := mp (both clk (ops [setB 14 (fOnOscf 0) false]))
def w7 : State := mp (both clk (ops [setB 14 (fOnOscf 0) false, setB 14 (fOnOscf 1) false, setF 15 F.CLK_OSCF.ready 0,
  setReg 13 R.CLK_MONCTL 7]))
def w8 : State := mp (both clk (ops [setF 14 (fGrpPend 1) 1, setF 14 (fSrc 1) 1, setF 15 F.CLK_OSCF.ready 1, setF 13 F.CLK_PLL.lock 1]))
def w12 : State := mp (both clk (ops [modI fun n => {n with clkForcing := 6}]))

theorem met_ClocksFailOver_1 :
    (∃ (s : State), s.Inv ∧ s.Up ∧ s.dev.inReset 13 = false ∧ s.dev.gated 13 = false ∧ s.dev.onKroot = 0) ∧
    (∃ (s : State), s.Inv ∧ s.Up ∧ s.dev.inReset 13 = false ∧ s.dev.gated 13 = false ∧ s.dev.onKroot ≠ 0) ∧
    (∃ (s : State), s.Inv ∧ s.Up ∧ s.dev.inReset 13 = false ∧ s.dev.gated 13 = false) ∧
    (∃ (s : State), s.Inv ∧ s.Up ∧ s.dev.inReset 13 = false ∧ s.dev.inn.pllOn = true ∧ s.dev.bit 13 F.CLK_PLL.lock = false) ∧
    (∃ (s : State) (t : Fin 4) (n : Fin 1024), s.Inv ∧ gradeMin ≤ (n : Nat) ∧ s.Up ∧ s.dev.inReset 13 = false ∧ PageOpen s.dev 14 ∧ s.dev.fld 14
      (F.CLK_GRP1.divmin.at (t : Nat)) ≤ (n : Nat)) :=
  ⟨⟨w0, made_inv _, by unfold State.Up; decide +kernel⟩,
    ⟨w5, made_inv _, by unfold State.Up; decide +kernel⟩,
    ⟨w0, made_inv _, by unfold State.Up; decide +kernel⟩,
    ⟨w2, made_inv _, by unfold State.Up; decide +kernel⟩,
    ⟨w0, 1, 1000, made_inv _, by unfold gradeMin; split <;> decide, by unfold PageOpen State.Up; decide +kernel⟩⟩

theorem met_ClocksFailOver_2 :
    (∃ (s : State) (n : Fin 1024), s.Inv ∧ (n : Nat) < gradeMin ∧ s.Up ∧ s.dev.inReset 13 = false ∧ PageOpen s.dev 14) ∧
    (∃ (s : State) (g : Fin 5) (o : Bool), s.Inv ∧ s.Up ∧ s.dev.inReset 13 = false ∧ PageOpen s.dev 14 ∧ s.dev.bit 14 (fGrpPend g) = false ∧
      s.dev.onOscf g ≠ o) ∧
    (∃ (s : State) (g : Fin 5), s.Inv ∧ s.Up ∧ s.dev.inReset 13 = false ∧ PageOpen s.dev 14 ∧ s.dev.bit 14 (fGrpPend g) = true) ∧
    (∃ (s : State) (g : Fin 5), s.Inv ∧ s.Up ∧ s.dev.inReset 13 = false ∧ s.dev.bit 14 (fGrpPend g) = true ∧ s.dev.switchRuns g = true) ∧
    (∃ (s : State) (kr : Bool), s.Inv ∧ s.Up ∧ s.dev.inReset 13 = false ∧ s.dev.regBit 13 R.CLK_MONCTL (if kr = true then 1 else 0) = true ∧
      s.dev.onKroot ≠ 0) :=
  ⟨⟨w0, 5, made_inv _, by unfold gradeMin; split <;> decide, by unfold PageOpen State.Up; decide +kernel⟩,
    ⟨w0, 1, false, made_inv _, by unfold PageOpen State.Up; decide +kernel⟩,
    ⟨w3, 1, made_inv _, by unfold PageOpen State.Up; decide +kernel⟩,
    ⟨w8, 1, made_inv _, by unfold State.Up; decide +kernel⟩,
    ⟨w5, true, made_inv _, by unfold State.Up; decide +kernel⟩⟩

theorem met_ClocksFailOver_3 :
    (∃ (s : State), s.Inv ∧ s.Up ∧ s.dev.inReset 13 = false ∧ s.dev.inn.clkForcing ≠ 0) ∧
    (∃ (s : State), s.Inv ∧ s.Up ∧ s.dev.inReset 13 = false ∧ s.dev.regBit 13 R.CLK_MONCTL 2 = true) ∧
    (∃ (s : State), s.Inv ∧ s.Up ∧ s.dev.inReset 13 = false ∧ s.dev.bit 15 F.CLK_OSCF.ready = false) ∧
    (∃ (s : State), s.Inv ∧ s.Up ∧ s.dev.inReset 13 = false ∧ PageOpen s.dev 15) ∧
    (∃ (s : State), s.Inv ∧ s.Up ∧ s.dev.inReset 13 = false ∧ s.dev.onOscf 0 = false ∧ s.dev.bit 15 F.CLK_OSCF.ready = true ∧ s.dev.fld 15
      F.CLK_TRIMCTL.ref ≠ 3 ∧ s.dev.inn.oscGoal = none) :=
  ⟨⟨w12, made_inv _, by unfold State.Up; decide +kernel⟩,
    ⟨w0, made_inv _, by unfold State.Up; decide +kernel⟩,
    ⟨w7, made_inv _, by unfold State.Up; decide +kernel⟩,
    ⟨w0, made_inv _, by unfold PageOpen State.Up; decide +kernel⟩,
    ⟨w5, made_inv _, by unfold State.Up; decide +kernel⟩⟩

end Clock

namespace Time

def md (f : Inner → Inner) : Op := modI f
def w0 : State := mp (both (setF 16 fClkEn 1) skip)
def w1 : State := mp (both (setF 16 fClkEn 1) (setF 16 F.TIME_CTL.sw_steer 1))
def w4 : State := mp (both (setF 16 fClkEn 1) (ops [setF 16 F.TIME_CTL.sw_steer 1, setF 80 F.LNK_DEV.tparent 0xF,
  setReg 16 R.TIME_STEP_LO 0xFFFFFF00, setReg 16 (R.TIME_STEP_LO+1) 0xFFFFFFFF]))
def w5 : State := mp (both (setF 16 fClkEn 1) (md fun n => {n with hold := 55, devtime := 99}))

theorem met_DeviceTime :
    (∃ (s : State), s.Inv ∧ s.Up ∧ PageOpen s.dev 16) ∧
    (∃ (s : State) (v : Word), s.Inv ∧ s.Up ∧ PageOpen s.dev 16 ∧ s.dev.adjusted = true ∧ -200000 ≤ BitVec.toInt v ∧ BitVec.toInt v ≤ 200000) ∧
    (∃ (s : State), s.Inv ∧ s.Up ∧ PageOpen s.dev 16 ∧ s.dev.adjusted = false) ∧
    (∃ (s : State), s.Inv ∧ s.Up ∧ PageOpen s.dev 16 ∧ s.dev.adjusted = true ∧ s.dev.inn.hold = 0 ∧ s.dev.inn.devfrac < nsUnit ∧ s.dev.inn.devtime
      < 2 ^ 64 ∧ 0 ≤ (BitVec.ofNat 64 (s.dev.reg64 16 R.TIME_STEP_LO)).toInt) ∧
    (∃ (s : State), s.Inv ∧ s.Up ∧ PageOpen s.dev 16 ∧ s.dev.adjusted = true ∧ s.dev.inn.hold = 0 ∧ s.dev.inn.devfrac < nsUnit ∧ s.dev.inn.devtime
      < 2 ^ 64 ∧ -1000000000 ≤ (BitVec.ofNat 64 (s.dev.reg64 16 R.TIME_STEP_LO)).toInt ∧ (BitVec.ofNat 64 (s.dev.reg64 16 R.TIME_STEP_LO)).toInt <
      0) ∧
    (∃ (s : State), s.Inv ∧ s.Up ∧ PageOpen s.dev 16 ∧ s.dev.inn.hold ≠ 0 ∧ s.dev.inn.hold ≤ s.dev.sysCycle48 * 1000000000) ∧
    (∃ (s : State), s.Inv ∧ s.Up ∧ PageOpen s.dev 16 ∧ s.dev.steer = 0) ∧
    (∃ (s : State), s.Inv ∧ s.Up ∧ PageOpen s.dev 16 ∧ s.dev.steer = 2) :=
  ⟨⟨w0, made_inv _, by unfold PageOpen State.Up; decide +kernel⟩,
    ⟨w1, 5, made_inv _, by unfold PageOpen State.Up; decide +kernel⟩,
    ⟨w0, made_inv _, by unfold PageOpen State.Up; decide +kernel⟩,
    ⟨w1, made_inv _, by unfold PageOpen State.Up; decide +kernel⟩,
    ⟨w4, made_inv _, by unfold PageOpen State.Up; decide +kernel⟩,
    ⟨w5, made_inv _, by unfold PageOpen State.Up; decide +kernel⟩,
    ⟨w0, made_inv _, by unfold PageOpen State.Up; decide +kernel⟩,
    ⟨w1, made_inv _, by unfold PageOpen State.Up; decide +kernel⟩⟩

end Time

namespace Rails

def ph (p : Phase) : Op := modI fun n => {n with phase := p}
def pw (f : Power → Power) : Op := modI fun n => {n with pow := f n.pow}
def w0 : State := mp skip
def w1 : State := mp (ph .off)
def w2 : State := mp (ph .seq)
def w3 : State := mp (ops [ph .seq, setF 17 F.PWR_STRAPS.pwr_seq 1, forAll (List.range 8) fun x => setF 19 (fReg F.PWR_REG0.en x) 1])
def w4 : State := mp (ops [ph .seq, pw fun w => {w with waking := true}])
def w5 : State := mp (ops [ph .seq, pw fun w => {w with turned := [2,1,0]}])
def w9 : State := mp (pw fun w => {w with pmb := some (5, 6, 1, 2)})

theorem met_RailsAndRegulators :
    (∃ (s : State), s.Inv ∧ s.dev.inn.phase = Phase.off) ∧
    (∃ (s : State), s.Inv ∧ s.dev.inn.phase ≠ Phase.off) ∧
    (∃ (s : State), s.Inv ∧ s.dev.inn.phase = Phase.seq ∧ s.dev.seqNext = none ∧ s.dev.pow.waking = false) ∧
    (∃ (s : State), s.Inv ∧ s.dev.inn.phase = Phase.seq ∧ s.dev.seqNext = none ∧ s.dev.pow.waking = true) ∧
    (∃ (s : State) (x : Nat), s.Inv ∧ s.dev.inn.phase = Phase.seq ∧ s.dev.seqNext = some x ∧ x < 8) ∧
    (∃ (s : State) (c : Fin 4) (x : Nat) (xs : List Nat), s.Inv ∧ s.dev.inn.phase = Phase.seq ∧ c ≠ 0 ∧ s.dev.pow.turned = x :: xs ∧ x < 8) ∧
    (∃ (s : State), s.Inv ∧ s.Up ∧ s.dev.inReset 17 = false) ∧
    (∃ (s : State) (x : Fin 8) (y : Fin 8), s.Inv ∧ s.Up ∧ s.dev.inReset 17 = false ∧ PageOpen s.dev 19 ∧ s.dev.bit 19 F.PWR_PMBSTAT.busy = false ∧
      s.dev.bit 19 F.PWR_PMBCTL.en = true ∧ (x : Nat) ≤ 4 ∧ (y : Nat) ≤ 4) ∧
    (∃ (s : State) (z : Nat × Nat × Nat × Nat), s.Inv ∧ s.Up ∧ s.dev.inReset 17 = false ∧ s.dev.pow.pmb = some z) :=
  ⟨⟨w1, made_inv _, by decide +kernel⟩,
    ⟨w0, made_inv _, by decide +kernel⟩,
    ⟨w2, made_inv _, by decide +kernel⟩,
    ⟨w4, made_inv _, by decide +kernel⟩,
    ⟨w3, 0, made_inv _, by decide +kernel⟩,
    ⟨w5, 1, 2, [1, 0], made_inv _, by decide +kernel⟩,
    ⟨w0, made_inv _, by unfold State.Up; decide +kernel⟩,
    ⟨w0, 1, 1, made_inv _, by unfold PageOpen State.Up; decide +kernel⟩,
    ⟨w9, (5, 6, 1, 2), made_inv _, by unfold State.Up; decide +kernel⟩⟩

end Rails

namespace PowerOf

def ph (p : Phase) : Op := modI fun n => {n with phase := p}
def pw (f : Power → Power) : Op := modI fun n => {n with pow := f n.pow}
def w0 : State := mp skip
def w1 : State := mp run1
def w2 : State := mp (ops [run1, modR 1 fun g => {g with powGoal := some 1}])
def w3 : State := mp (pw fun w => {w with ramping := [70]})
def w4 : State := mp (ops [run1, modR 1 fun g => {g with rebuild := true}])
def w5 : State := mp (pw fun w => {w with p3 := true})
def w6 : State := mp (pw fun w => {w with saving := some 5})
def w7 : State := mp (ops [ph .p3, modI fun n => {n with wakeDue := some 3}])
def w9 : State := mp (setReg 18 R.PWR_DOMCTL 0x5FFF)

theorem met_PowerStates :
    (∃ (s : State) (k : Fin 15) (v : BitVec 15), s.Inv ∧ s.Up ∧ s.dev.inReset 17 = false ∧ PageOpen s.dev 18 ∧ (∀ (i : Fin 15), ((v.getLsbD (i :
      Nat) == s.dev.regBit 18 R.PWR_DOMCTL (i : Nat)) = true) = (i ≠ k)) ∧ s.dev.domRefusal (64 + (k : Nat)) (v.getLsbD (k : Nat)) = 0 ∧ v.getLsbD
      (k : Nat) = true ∧ s.dev.pow.ramping = []) ∧
    (∃ (s : State) (k : Fin 15) (v : BitVec 15), s.Inv ∧ s.Up ∧ s.dev.inReset 17 = false ∧ PageOpen s.dev 18 ∧ (∀ (i : Fin 15), ((v.getLsbD (i :
      Nat) == s.dev.regBit 18 R.PWR_DOMCTL (i : Nat)) = true) = (i ≠ k)) ∧ s.dev.domRefusal (64 + (k : Nat)) (v.getLsbD (k : Nat)) = 0 ∧ v.getLsbD
      (k : Nat) = false) ∧
    (∃ (s : State) (k : Fin 79), s.Inv ∧ s.Up ∧ s.dev.inReset 17 = false ∧ s.dev.pow.ramping = [(k : Nat)] ∧ s.dev.pow.waiting = []) ∧
    (∃ (s : State) (r : RegionId), s.Inv ∧ s.Up ∧ s.dev.inReset 17 = false ∧ PageOpen s.dev 18 ∧ s.dev.rgnP (r : Nat) = 0 ∧ s.dev.rgnRefusal r 1 =
      0) ∧
    (∃ (s : State) (r : RegionId) (st : Fin 4), s.Inv ∧ s.Up ∧ s.dev.inReset 17 = false ∧ PageOpen s.dev 18 ∧ (st : Nat) < 3 ∧ s.dev.rgnRefusal r
      (st : Nat) ≠ 0) ∧
    (∃ (s : State) (r : RegionId), s.Inv ∧ s.Up ∧ s.dev.inReset 17 = false ∧ (s.dev.rg r).powGoal = some 1 ∧ s.dev.rgnP (r : Nat) = 0 ∧
      s.dev.quietRegion r = true ∧ s.dev.inn.stopAt = none) ∧
    (∃ (s : State) (r : RegionId) (slot : SlotId), s.Inv ∧ s.Up ∧ s.dev.inReset 17 = false ∧ PageOpen s.dev 17 ∧ (s.dev.rg r).rebuild = true ∧
      s.dev.rgnP (r : Nat) = 0 ∧ s.dev.rgnMoving (r : Nat) = false ∧ s.dev.slot r slot = slResident) ∧
    (∃ (s : State) (r : RegionId) (slot : SlotId), s.Inv ∧ s.Up ∧ s.dev.inReset 17 = false ∧ PageOpen s.dev 17 ∧ (s.dev.rg r).rebuild = true ∧
      s.dev.rgnP (r : Nat) = 0 ∧ s.dev.rgnMoving (r : Nat) = false ∧ s.dev.slot r slot ≠ slResident) ∧
    (∃ (s : State), s.Inv ∧ s.Up ∧ s.dev.inReset 17 = false ∧ PageOpen s.dev 17 ∧ s.dev.p3Refusal = 0) ∧
    (∃ (s : State), s.Inv ∧ s.Up ∧ s.dev.inReset 17 = false ∧ s.dev.pow.p3 = true ∧ s.dev.bit 17 F.PWR_DEVCTL.p3_stop = false) ∧
    (∃ (s : State), s.Inv ∧ s.Up ∧ s.dev.inReset 17 = false ∧ s.dev.pow.saving.isSome = true) ∧
    (∃ (s : State) (k : Nat), s.Inv ∧ s.dev.inn.phase = Phase.p3 ∧ s.dev.wakeSource = some k ∧ k < 8) :=
  ⟨⟨w9, 13, 32767, made_inv _, by unfold PageOpen State.Up; decide +kernel⟩,
    ⟨w0, 13, ↑32767 ^^^ ↑(1 <<< 13), made_inv _, by unfold PageOpen State.Up; decide +kernel⟩,
    ⟨w3, 70, made_inv _, by unfold State.Up; decide +kernel⟩,
    ⟨w1, 1, made_inv _, by unfold PageOpen State.Up; decide +kernel⟩,
    ⟨w0, 1, 1, made_inv _, by unfold PageOpen State.Up; decide +kernel⟩,
    ⟨w2, 1, made_inv _, by unfold State.Up; decide +kernel⟩,
    ⟨w4, 1, Fin.ofNat 8 1, made_inv _, by unfold PageOpen State.Up; decide +kernel⟩,
    ⟨w4, 1, Fin.ofNat 8 0, made_inv _, by unfold PageOpen State.Up; decide +kernel⟩,
    ⟨w0, made_inv _, by unfold PageOpen State.Up; decide +kernel⟩,
    ⟨w5, made_inv _, by unfold State.Up; decide +kernel⟩,
    ⟨w6, made_inv _, by unfold State.Up; decide +kernel⟩,
    ⟨w7, 3, made_inv _, by decide +kernel⟩⟩

end PowerOf

namespace Start

def ph (p : Phase) : Op := modI fun n => {n with phase := p}
def stp (n : Nat) : Op := setF 0 F.DEV_STAT.step n
def sen (f : Sentinel → Sentinel) : Op := modI fun n => {n with sen := f n.sen}
def enb : Op := setF 23 F.SEN_CTL.en 1
def late : Op := modI fun n => {n with devtime := 10^12}
def w0 : State := mp skip
def w3 : State := mp (ops [setF 23 fClkEn 1, setF 23 F.SEN_CTL.en 0])
def w5 : State := mp (ops [enb, setF 23 F.SEN_WARNCFG.trig 2, sen fun s => {s with sampled := true}, setF 23 F.SEN_DCCFG.dc_warn 5])
def w6 : State := mp (ops [enb, late, setF 23 F.SEN_WARNCFG.trig 1,
  sen fun s => {s with log := s.log.set 0 (some {kind := 2, active := true, extreme := 0, start := 0, dur := 0})}])
def w7 : State := mp (ops [enb, late, setF 23 F.SEN_WARNCFG.trig 0, setF 23 F.SEN_STAT.warn 1, setF 17 F.PWR_DEVSTAT.forbid 1])
def w8 : State := mp (ph .por)
def w9 : State := mp (stp 2)
def w10 : State := mp (ops [stp 2, setF 13 F.CLK_PLL.lock 1])
def w11 : State := mp (stp 5)
def w12 : State := mp (stp 7)
def w13 : State := mp (ops [stp 7, setB 14 (fOnOscf 0) false, modI fun n => {n with boot7 := (true, true)}])
def w14 : State := mp (modI fun n => {n with stw := {n.stw with refStop := true}})
def w15 : State := mp (ops [setF 15 F.CLK_OSCF.ready 0, modI fun n => {n with clkStopped := 6}])

theorem met_SentinelWarns :
    (∃ (s : State) (f : BitVec 17), s.Inv ∧ s.Up ∧ s.dev.bit 23 F.SEN_CTL.en = true ∧ 45000 ≤ f.toNat ∧ f.toNat ≤ 65000) ∧
    (∃ (s : State), s.Inv ∧ s.Up ∧ s.dev.bit 23 F.SEN_CTL.en = true) ∧
    (∃ (s : State), s.Inv ∧ s.Up ∧ s.dev.senTested = false ∧ s.dev.bit 23 F.SEN_STAT.warn = false ∧ s.dev.triggered = true) ∧
    (∃ (s : State), s.Inv ∧ s.Up ∧ s.dev.senTested = false ∧ s.dev.bit 23 F.SEN_STAT.warn = false ∧ s.dev.bit 23 F.SEN_CTL.en = true ∧
      s.dev.intLong = true ∧ s.dev.trigOn 0 = true) ∧
    (∃ (s : State), s.Inv ∧ s.Up ∧ s.dev.bit 23 F.SEN_STAT.warn = true ∧ s.dev.bit 23 F.SEN_CTL.en = true ∧ s.dev.triggered = false ∧
      s.dev.inn.sen.trigAt + 10000000 * s.dev.fld 23 F.SEN_WARNCFG.clear_time ≤ s.dev.now) ∧
    (∃ (s : State), s.Inv ∧ s.Up ∧ PageOpen s.dev 17 ∧ s.dev.bit 23 F.SEN_STAT.warn = false ∧ s.dev.pow.p3 = false) ∧
    (∃ (s : State), s.Inv ∧ s.Up ∧ PageOpen s.dev 17 ∧ s.dev.bit 23 F.SEN_STAT.warn = true) ∧
    (∃ (s : State), s.Inv ∧ s.Up ∧ PageOpen s.dev 23 ∧ s.dev.bit 23 F.SEN_CTL.en = false) ∧
    (∃ (s : State), s.Inv ∧ s.Up ∧ PageOpen s.dev 23 ∧ s.dev.bit 23 F.SEN_CTL.en = true) :=
  ⟨⟨w0, 50000, made_inv _, by unfold State.Up; decide +kernel⟩,
    ⟨w0, made_inv _, by unfold State.Up; decide +kernel⟩,
    ⟨w5, made_inv _, by unfold State.Up; decide +kernel⟩,
    ⟨w6, made_inv _, by unfold State.Up; decide +kernel⟩,
    ⟨w7, made_inv _, by unfold State.Up; decide +kernel⟩,
    ⟨w0, made_inv _, by unfold PageOpen State.Up; decide +kernel⟩,
    ⟨w7, made_inv _, by unfold PageOpen State.Up; decide +kernel⟩,
    ⟨w3, made_inv _, by unfold PageOpen State.Up; decide +kernel⟩,
    ⟨w0, made_inv _, by unfold PageOpen State.Up; decide +kernel⟩⟩

theorem met_StartUpSteps :
    (∃ (s : State), s.Inv ∧ s.dev.inn.phase = Phase.por ∧ s.dev.bit 15 F.CLK_OSCF.ready = true) ∧
    (∃ (s : State), s.Inv ∧ s.Up ∧ s.dev.step = 2 ∧ s.dev.bit 13 F.CLK_PLL.lock = true) ∧
    (∃ (s : State), s.Inv ∧ s.Up ∧ s.dev.step = 2) ∧
    (∃ (s : State), s.Inv ∧ s.Up ∧ s.dev.step = 5 ∧ (∀ (v : VaultId), (s.dev.vlt v).filling = false)) ∧
    (∃ (s : State), s.Inv ∧ s.Up ∧ s.dev.step = 7 ∧ s.dev.inn.boot7.fst = false ∧ s.dev.ldr.src = none) ∧
    (∃ (s : State), s.Inv ∧ s.Up ∧ s.dev.inn.stw.refStop = true) ∧
    (∃ (s : State), s.Inv ∧ s.Up ∧ s.dev.step = 7 ∧ s.dev.inn.boot7 = (true, true) ∧ s.dev.onOscf 0 = false) ∧
    (∃ (s : State), s.Inv ∧ s.Up ∧ s.dev.bit 17 F.PWR_SEQFAULT.valid = false) ∧
    (∃ (s : State), s.Inv ∧ s.Up ∧ s.dev.bit 15 F.CLK_OSCF.ready = false ∧ s.dev.inn.clkStopped ≠ 0) :=
  ⟨⟨w8, made_inv _, by decide +kernel⟩,
    ⟨w10, made_inv _, by unfold State.Up; decide +kernel⟩,
    ⟨w9, made_inv _, by unfold State.Up; decide +kernel⟩,
    ⟨w11, made_inv _, by unfold State.Up; decide +kernel⟩,
    ⟨w12, made_inv _, by unfold State.Up; decide +kernel⟩,
    ⟨w14, made_inv _, by unfold State.Up; decide +kernel⟩,
    ⟨w13, made_inv _, by unfold State.Up; decide +kernel⟩,
    ⟨w0, made_inv _, by unfold State.Up; decide +kernel⟩,
    ⟨w15, made_inv _, by unfold State.Up; decide +kernel⟩⟩

end Start

namespace StewardOf

def sw (f : StwS → StwS) : Op := modI fun n => {n with stw := f n.stw}
def clk : Op := forAll [1,2,3,4] fun p => setF p fClkEn 1
def att (a : Nat) : AttReq := {addr := a, who := 0x302, report := List.replicate 672 9}
def lcs (n : Nat) : Op := sw fun w => {w with fuseLcs := n, owner := [1,2,3]}
def svcR : Op := ops [setReg 4 R.STW_SVCSRC_LO 0x10000, setReg 4 R.STW_SVCDST_LO 0x20000, setReg 4 R.STW_SVCLEN 120, setBytes 0x10000 [1,2,3]]
def w0 : State := mp (both clk skip)
def w1 : State := mp (both clk (modI fun n => {n with session := some (2, 5), mono := 7}))
def w2 : State := mp (both clk (lcs 1))
def w5 : State := mp (both clk (ops [setF 1 F.STW_STAT.sec_version 3]))
def w6 : State := mp (both clk (sw fun w => {w with lastVer := w.lastVer.set 1 (some 1)}))
def w7 : State := mp (both clk (ops [setF 1 F.STW_WDT.en 1, setF 1 F.STW_WDT.period 800]))
def w10 : State := mp (both clk (sw fun w => {w with tok := [5], checking := true}))
def w13 : State := mp (both clk (sw fun w => {w with att := some (att 0x10000)}))
def w14 : State := mp (both clk (ops [setF 1 F.STW_SCRUBSTAT.stopped 1]))
def w17 : State := mp (both clk (sw fun w => {w with svc := some ⟨5,1,0,3⟩}))
def w19 : State := mp (both clk (both (lcs 1) svcR))
def w20 : State := mp (both clk (ops [lcs 2, svcR, setReg 4 (R.STW_SVCDST_LO+1) 1]))

theorem met_StewardAuthority_1 :
    (∃ (s : State) (t : Fin 4), s.Inv ∧ s.Up ∧ PageOpen s.dev 1 ∧ (¬(s.dev.lcs = 0 ∧ ((t : Nat) = 1 ∨ (t : Nat) = 3)))) ∧
    (∃ (s : State), s.Inv ∧ s.Up ∧ PageOpen s.dev 1 ∧ s.dev.lcs = 0) ∧
    (∃ (s : State), s.Inv ∧ s.Up ∧ PageOpen s.dev 1 ∧ s.dev.stw.rollStw < s.dev.fld 1 F.STW_STAT.sec_version) ∧
    (∃ (s : State) (k : Fin 16) (i : Fin 8) (v : Nat), s.Inv ∧ s.Up ∧ PageOpen s.dev 1 ∧ (k : Nat) = (i : Nat) + 2 ∧ s.dev.stw.lastVer[(i : Nat)] =
      some v ∧ s.dev.stw.rollMin[(i : Nat)] < v ∧ v < 65536) ∧
    (∃ (s : State), s.Inv ∧ s.Up ∧ PageOpen s.dev 1) ∧
    (∃ (s : State) (key : BitVec 16), s.Inv ∧ s.Up ∧ PageOpen s.dev 1 ∧ key ≠ 39998) ∧
    (∃ (s : State), s.Inv ∧ s.Up ∧ s.dev.bit 1 F.STW_WDT.en = true ∧ s.dev.stwWdtPaused = false ∧ s.dev.stw.preBitten = false ∧ BitVec.toNat
      (s.dev.reg 1 R.STW_WDTCNT) ≤ s.dev.fld 1 F.STW_WDT.period / 8) :=
  ⟨⟨w0, 0, made_inv _, by unfold PageOpen State.Up; decide +kernel⟩,
    ⟨w0, made_inv _, by unfold PageOpen State.Up; decide +kernel⟩,
    ⟨w5, made_inv _, by unfold PageOpen State.Up; decide +kernel⟩,
    ⟨w6, 3, 1, 1, made_inv _, by unfold PageOpen State.Up; decide +kernel⟩,
    ⟨w0, made_inv _, by unfold PageOpen State.Up; decide +kernel⟩,
    ⟨w0, 5, made_inv _, by unfold PageOpen State.Up; decide +kernel⟩,
    ⟨w7, made_inv _, by unfold State.Up; decide +kernel⟩⟩

theorem met_StewardAuthority_2 :
    (∃ (s : State), s.Inv ∧ s.Up ∧ s.dev.bit 1 F.STW_WDT.en = true ∧ s.dev.stwWdtPaused = false ∧ s.dev.reg 1 R.STW_WDTCNT = 0) ∧
    (∃ (s : State), s.Inv ∧ s.Up ∧ PageOpen s.dev 2) ∧
    (∃ (s : State), s.Inv ∧ s.Up ∧ PageOpen s.dev 2 ∧ s.dev.stw.checking = false) ∧
    (∃ (s : State) (k : Fin 16), s.Inv ∧ s.Up ∧ PageOpen s.dev 2 ∧ (k : Nat) < 12) ∧
    (∃ (s : State) (k : Fin 16), s.Inv ∧ PlainTier s.dev ∧ s.Up ∧ PageOpen s.dev 2 ∧ 12 ≤ (k : Nat) ∧ s.dev.reg64 2 R.STW_EXTADDR_LO + 32 ≤ 2 ^ 32
      ∧ TierOpen s.dev false (s.dev.reg64 2 R.STW_EXTADDR_LO) 32) ∧
    (∃ (s : State), s.Inv ∧ s.Up ∧ PageOpen s.dev 2 ∧ s.dev.stw.att.isSome = true) ∧
    (∃ (s : State), s.Inv ∧ PlainTier s.dev ∧ s.Up ∧ PageOpen s.dev 2 ∧ s.dev.stw.att = none ∧ s.dev.lcs ≠ 3 ∧ s.dev.attBuffer (s.dev.reg64 2
      R.STW_ATTADDR_LO) s.dev.reportLen = true ∧ TierOpen s.dev false (s.dev.reg64 2 R.STW_ATTADDR_LO) 32) :=
  ⟨⟨w7, made_inv _, by unfold State.Up; decide +kernel⟩,
    ⟨w0, made_inv _, by unfold PageOpen State.Up; decide +kernel⟩,
    ⟨w0, made_inv _, by unfold PageOpen State.Up; decide +kernel⟩,
    ⟨w0, 0, made_inv _, by unfold PageOpen State.Up; decide +kernel⟩,
    ⟨w0, 12, made_inv _, made_plain _ (by decide +kernel), by unfold PageOpen TierOpen State.Up; decide +kernel⟩,
    ⟨w13, made_inv _, by unfold PageOpen State.Up; decide +kernel⟩,
    ⟨w0, made_inv _, made_plain _ (by decide +kernel), by unfold PageOpen TierOpen State.Up; decide +kernel⟩⟩

theorem met_StewardAuthority_3 :
    (∃ (s : State), s.Inv ∧ s.Up ∧ s.dev.stw.checking = true) ∧
    (∃ (s : State) (x : Nat × Nat), s.Inv ∧ s.Up ∧ s.dev.inn.session = some x ∧ x.snd ≤ s.dev.inn.mono) ∧
    (∃ (s : State) (x : AttReq), s.Inv ∧ PlainTier s.dev ∧ s.Up ∧ s.dev.stw.att = some x ∧ x.who ≠ 256 ∧ s.dev.inReset 2 = false ∧ TierOpen s.dev
      true x.addr (x.report ++ if numAt x.report 6 1 ≠ 0 then fitBytes 2420 (Config.sigSign x.report) else []).length) ∧
    (∃ (s : State) (n : Bool) (so : Bool), s.Inv ∧ s.Up ∧ s.dev.bit 1 F.STW_SCRUBSTAT.dead = false ∧ s.dev.bit 1 F.STW_SCRUBSTAT.stopped = false ∧
      (n = true ∨ so = true)) ∧
    (∃ (s : State), s.Inv ∧ s.Up ∧ s.dev.bit 1 F.STW_SCRUBSTAT.dead = false ∧ s.dev.bit 1 F.STW_SCRUBSTAT.stopped = false) ∧
    (∃ (s : State), s.Inv ∧ s.Up ∧ s.dev.bit 1 F.STW_SCRUBSTAT.dead = false ∧ s.dev.bit 1 F.STW_SCRUBSTAT.stopped = true) :=
  ⟨⟨w10, made_inv _, by unfold State.Up; decide +kernel⟩,
    ⟨w1, (2, 5), made_inv _, by unfold State.Up; decide +kernel⟩,
    ⟨w13, att 65536, made_inv _, made_plain _ (by decide +kernel), by unfold TierOpen State.Up; decide +kernel⟩,
    ⟨w0, true, true, made_inv _, by unfold State.Up; decide +kernel⟩,
    ⟨w0, made_inv _, by unfold State.Up; decide +kernel⟩,
    ⟨w14, made_inv _, by unfold State.Up; decide +kernel⟩⟩

theorem met_SealingService :
    (∃ (s : State), s.Inv ∧ s.Up ∧ PageOpen s.dev 4 ∧ s.dev.stw.svc.isSome = true) ∧
    (∃ (s : State), s.Inv ∧ s.Up ∧ PageOpen s.dev 4 ∧ s.dev.stw.svc = none ∧ (s.dev.lcs = 0 ∨ s.dev.lcs = 3)) ∧
    (∃ (s : State), s.Inv ∧ s.Up ∧ PageOpen s.dev 4 ∧ s.dev.stw.svc = none ∧ (s.dev.lcs = 1 ∨ s.dev.lcs = 2) ∧ s.dev.secretRefused = true) ∧
    (∃ (s : State), s.Inv ∧ PlainTier s.dev ∧ s.Up ∧ PageOpen s.dev 4 ∧ s.dev.stw.svc = none ∧ (s.dev.lcs = 1 ∨ s.dev.lcs = 2) ∧ 1 ≤ s.dev.svcLen ∧
      s.dev.svcLen ≤ 4096 ∧ TierOpen s.dev false s.dev.svcSrc s.dev.svcLen ∧ TierOpen s.dev true s.dev.svcDst (s.dev.svcLen + 112)) ∧
    (∃ (s : State), s.Inv ∧ PlainTier s.dev ∧ s.Up ∧ PageOpen s.dev 4 ∧ s.dev.stw.svc = none ∧ (s.dev.lcs = 1 ∨ s.dev.lcs = 2) ∧ TierOpen s.dev
      true s.dev.svcDst 32) ∧
    (∃ (s : State), s.Inv ∧ PlainTier s.dev ∧ s.Up ∧ PageOpen s.dev 4 ∧ s.dev.stw.svc = none ∧ (s.dev.lcs = 1 ∨ s.dev.lcs = 2) ∧ 113 ≤ s.dev.svcLen
      ∧ s.dev.svcLen ≤ 4208 ∧ TierOpen s.dev false s.dev.svcSrc s.dev.svcLen ∧ TierOpen s.dev true s.dev.svcDst (s.dev.svcLen - 112)) ∧
    (∃ (s : State), s.Inv ∧ PlainTier s.dev ∧ s.Up ∧ PageOpen s.dev 4 ∧ s.dev.stw.svc = none ∧ (s.dev.lcs = 1 ∨ s.dev.lcs = 2) ∧ 1 ≤ s.dev.svcLen ∧
      s.dev.svcLen ≤ 2097152 ∧ TierOpen s.dev false s.dev.svcSrc s.dev.svcLen) ∧
    (∃ (s : State) (x : SvcReq), s.Inv ∧ s.Up ∧ s.dev.stw.svc = some x ∧ s.dev.inReset 4 = false) :=
  ⟨⟨w17, made_inv _, by unfold PageOpen State.Up; decide +kernel⟩,
    ⟨w0, made_inv _, by unfold PageOpen State.Up; decide +kernel⟩,
    ⟨w20, made_inv _, by unfold PageOpen State.Up; decide +kernel⟩,
    ⟨w19, made_inv _, made_plain _ (by decide +kernel), by unfold PageOpen TierOpen State.Up; decide +kernel⟩,
    ⟨w2, made_inv _, made_plain _ (by decide +kernel), by unfold PageOpen TierOpen State.Up; decide +kernel⟩,
    ⟨w19, made_inv _, made_plain _ (by decide +kernel), by unfold PageOpen TierOpen State.Up; decide +kernel⟩,
    ⟨w19, made_inv _, made_plain _ (by decide +kernel), by unfold PageOpen TierOpen State.Up; decide +kernel⟩,
    ⟨w17, { who := 5, op := 1, status := 0, out := 3 }, made_inv _, by unfold State.Up; decide +kernel⟩⟩

end StewardOf

namespace Port

def w0 : State := made skip
def w1 : State := made (modI fun n => {n with session := some (0, 10^15), dk := {n.dk with access := some {hi := 0, lo := 0x1000, write := none}}})
def w2 : State := made (modI fun n => {n with session := some (2, 10^15), dk := {n.dk with access := some {hi := 0, lo := 0x1000, write := some 7}}})
def w3 : State := made (ops [modDk fun k => {k with hold := true}])
def w4 : State := made (modDk fun k => {k with access := some {hi:=0, lo:=0x1000, write:=none}})
def w7 : State := made (modDk fun k => {k with result := some 9, last := 0x77})
def w8 : State := made (modI fun n => {n with phase := .p3})

theorem met_DebugPort :
    (∃ (s : State) (h : BitVec 16), s.Inv ∧ s.dev.inn.phase ∈ [Phase.up, Phase.p3, Phase.fault] ∧ headerOk h = false) ∧
    (∃ (s : State) (h : BitVec 16), s.Inv ∧ s.dev.inn.phase ∈ [Phase.up, Phase.p3, Phase.fault] ∧ headerOk h = true ∧ h.getLsbD 4 = false ∧ h.toNat
      / 32 % 8 ≠ 5) ∧
    (∃ (s : State) (h : BitVec 16) (w : Word) (crc : BitVec 8), s.Inv ∧ s.dev.inn.phase ∈ [Phase.up, Phase.p3, Phase.fault] ∧ headerOk h = true ∧
      h.getLsbD 4 = true ∧ crc.toNat ≠ crc8 w) ∧
    (∃ (s : State), s.Inv ∧ s.dev.inn.phase ∈ [Phase.up, Phase.p3, Phase.fault]) ∧
    (∃ (s : State), s.Inv ∧ s.dev.inn.phase ∈ [Phase.up, Phase.p3, Phase.fault] ∧ s.dev.inn.dk.hold = true) ∧
    (∃ (s : State), s.Inv ∧ s.dev.inn.phase ∈ [Phase.up, Phase.p3, Phase.fault] ∧ s.dev.inn.dk.hold = false ∧ s.dev.inn.dk.access.isSome = true) ∧
    (∃ (s : State) (w : Word), s.Inv ∧ s.dev.inn.phase ∈ [Phase.up, Phase.p3, Phase.fault] ∧ s.dev.inn.dk.hold = false ∧ s.dev.inn.dk.access = none
      ∧ s.dev.inn.dk.result = some w) ∧
    (∃ (s : State), s.Inv ∧ s.dev.inn.phase ∈ [Phase.up, Phase.p3, Phase.fault] ∧ s.dev.inn.dk.hold = false ∧ s.dev.inn.dk.access = none ∧
      s.dev.inn.dk.result = none) ∧
    (∃ (s : State), s.Inv ∧ s.dev.inn.phase ∈ [Phase.up, Phase.p3, Phase.fault] ∧ s.dev.inn.dk.hold = false ∧ s.dev.inn.dk.access = none) ∧
    (∃ (s : State), s.Inv ∧ s.dev.inn.phase ∈ [Phase.up, Phase.p3, Phase.fault] ∧ s.dev.inn.phase = Phase.p3) ∧
    (∃ (s : State) (x : DkAccess), s.Inv ∧ s.dev.inn.phase ∈ [Phase.up, Phase.p3, Phase.fault] ∧ s.dev.inn.dk.access = some x ∧ s.dev.dkGlobal x.hi
      = false ∧ s.dev.debugReach (x.hi % 65536 * 2 ^ 32 + x.lo) = false) ∧
    (∃ (s : State) (x : DkAccess), s.Inv ∧ PlainTier s.dev ∧ s.dev.inn.phase ∈ [Phase.up, Phase.p3, Phase.fault] ∧ s.dev.inn.dk.access = some x ∧
      s.dev.dkGlobal x.hi = false ∧ s.dev.inn.phase = Phase.up ∧ 2 ≤ s.dev.dbgLevel ∧ x.hi % 65536 = 0 ∧ x.lo % 4 = 0 ∧ x.hi % 65536 * 2 ^ 32 +
      x.lo < 2 ^ 32 ∧ x.write = none ∧ x.dropped = false ∧ s.dev.memWaits false (x.hi % 65536 * 2 ^ 32 + x.lo) = false ∧ s.dev.memGate 6 258 false
      (x.hi % 65536 * 2 ^ 32 + x.lo) = Status.ok) ∧
    (∃ (s : State) (x : DkAccess) (w : Word), s.Inv ∧ PlainTier s.dev ∧ s.dev.inn.phase ∈ [Phase.up, Phase.p3, Phase.fault] ∧ s.dev.inn.dk.access =
      some x ∧ s.dev.dkGlobal x.hi = false ∧ s.dev.inn.phase = Phase.up ∧ 2 ≤ s.dev.dbgLevel ∧ x.hi % 65536 = 0 ∧ x.lo % 4 = 0 ∧ x.hi % 65536 * 2 ^
      32 + x.lo < 2 ^ 32 ∧ x.write = some w ∧ s.dev.memWaits true (x.hi % 65536 * 2 ^ 32 + x.lo) = false ∧ s.dev.memGate 6 258 true (x.hi % 65536 *
      2 ^ 32 + x.lo) = Status.ok) :=
  ⟨⟨w0, 1, made_inv _, by decide +kernel⟩,
    ⟨w0, 32768 + 230, made_inv _, by decide +kernel⟩,
    ⟨w0, BitVec.ofNat 16 (22 + 4096 * (6 ^^^ 1)), 0, 0, made_inv _, by decide +kernel⟩,
    ⟨w0, made_inv _, by decide +kernel⟩,
    ⟨w3, made_inv _, by decide +kernel⟩,
    ⟨w1, made_inv _, by decide +kernel⟩,
    ⟨w7, 9, made_inv _, by decide +kernel⟩,
    ⟨w0, made_inv _, by decide +kernel⟩,
    ⟨w0, made_inv _, by decide +kernel⟩,
    ⟨w8, made_inv _, by decide +kernel⟩,
    ⟨w1, { hi := 0, lo := 4096, write := none }, made_inv _, by decide +kernel⟩,
    ⟨w4, { hi := 0, lo := 4096, write := none }, made_inv _, made_plain _ (by decide +kernel), by decide +kernel⟩,
    ⟨w2, { hi := 0, lo := 4096, write := some 7 }, 7, made_inv _, made_plain _ (by decide +kernel), by decide +kernel⟩⟩

theorem met_MalformedFramesHaveNoEffect :
    (∃ (s : State) (h : BitVec 16), s.Inv ∧ s.dev.inn.phase ∈ [Phase.up, Phase.p3, Phase.fault] ∧ (h.toNat % 16 ≠ 6 ∨ h.toNat / 256 % 16 ≠ 0 ∨
      h.toNat / 4096 ≠ h.toNat % 16 ^^^ h.toNat / 16 % 16 ^^^ h.toNat / 256 % 16)) ∧
    (∃ (s : State) (h : BitVec 16) (w : Word) (crc : BitVec 8), s.Inv ∧ s.dev.inn.phase ∈ [Phase.up, Phase.p3, Phase.fault] ∧ h.toNat % 16 = 6 ∧
      h.toNat / 256 % 16 = 0 ∧ h.toNat / 4096 = h.toNat % 16 ^^^ h.toNat / 16 % 16 ^^^ h.toNat / 256 % 16 ∧ h.toNat / 16 % 2 = 1 ∧ crc.toNat ≠ crc8
      w) ∧
    (∃ (s : State) (h : BitVec 16), s.Inv ∧ s.dev.inn.phase ∈ [Phase.up, Phase.p3, Phase.fault] ∧ h.toNat % 16 = 6 ∧ h.toNat / 256 % 16 = 0 ∧
      h.toNat / 4096 = h.toNat % 16 ^^^ h.toNat / 16 % 16 ^^^ h.toNat / 256 % 16 ∧ h.toNat / 16 % 16 = 14) :=
  ⟨⟨w0, 1, made_inv _, by decide +kernel⟩,
    ⟨w0, BitVec.ofNat 16 (22 + 4096 * (6 ^^^ 1)), 0, 0, made_inv _, by decide +kernel⟩,
    ⟨w0, 32768 + 230, made_inv _, by decide +kernel⟩⟩

end Port

namespace DebugOf

def r5 (o : Op) : State := made (both run5 o)
def lvl (n : Nat) : Op := modI fun i => {i with session := some (n, 10^15)}
def mon : Op := setF (engPg 5) F.ENG_STAT.state esMonitor
def selE (cls num : Nat) : Op := ops [setF 5 F.DBG_ENGSEL.engine 5, setF 5 F.DBG_ENGSEL.class cls, setF 5 F.DBG_ENGSEL.num num]
def snp : Snap := { region := 1, bram := false, base := 0x10000, swcnt := 0, time := 0 }
def lui : Op := setBytes (tcmKey 5 0x100) (Word.bytes (encodeKE32 (.lui 3 0x1234)))
def w0 : State := r5 (both (lvl 0) skip)
def w7 : State := r5 (both (lvl 0) (modI fun n => {n with snap := some snp}))
def w14 : State := r5 (both (lvl 1) skip)
def w15 : State := r5 (both (lvl 1) mon)
def w16 : State := r5 (both (lvl 1) (ops [mon, lui]))
def w17 : State := r5 (both (lvl 1) (ops [mon, selE 0 3]))
def w18 : State := r5 (both (lvl 1) (ops [mon, modE 5 fun n => {n with live := 0xFFFF}, setReg (engPg 5) R.ENG_IRQ 4,
  modE 5 fun n => {n with estat := 0x00040001}]))
def w19 : State := r5 (both (lvl 1) (setF 5 F.DBG_VTOUT.valid 1))
def w28 : State := r5 (both (lvl 2) skip)
def w35 : State := r5 (both (lvl 2) (modI fun n => {n with snap := some snp}))
def w37 : State := r5 (both (lvl 2) (setReg 5 R.DBG_SNAPADDR 0xFFFF))
def w39 : State := r5 (both (lvl 2) (modR 1 fun g => {g with confidential := true}))
def w40 : State := r5 (both (lvl 2) (ops [setRgnst 1 2 false]))
def w55 : State := r5 (ops [lvl 1, mon, selE 1 0])
def w68 : State := r5 (ops [lvl 1, mon, selE 2 0])
def w69 : State := r5 (ops [lvl 1, mon, selE 2 1])
def w70 : State := r5 (ops [lvl 1, mon, selE 2 2])
def w71 : State := r5 (ops [lvl 1, mon, selE 2 3])
def w72 : State := r5 (ops [lvl 1, mon, selE 2 4])
def w73 : State := r5 (ops [lvl 1, mon, selE 2 5])
def w74 : State := r5 (ops [lvl 1, mon, selE 2 6])
def w75 : State := r5 (ops [lvl 1, mon, selE 2 16])
def w76 : State := r5 (ops [lvl 1, mon, selE 2 17])
def w81 : State := r5 (ops [lvl 1, mon, selE 3 0])

theorem met_DebugControl_1 :
    (∃ (s : State) (e : EngineId), s.Inv ∧ s.Up ∧ 1 ≤ s.dev.dbgLevel ∧ s.dev.engState e = esRunning ∧ s.dev.rgnP (engRgn e) = 0) ∧
    (∃ (s : State) (e : EngineId), s.Inv ∧ s.Up ∧ 1 ≤ s.dev.dbgLevel ∧ s.dev.engState e ≠ esRunning) ∧
    (∃ (s : State) (e : EngineId), s.Inv ∧ s.Up ∧ 1 ≤ s.dev.dbgLevel ∧ s.dev.engState e = esMonitor ∧ s.dev.rgnP (engRgn e) = 0) ∧
    (∃ (s : State) (e : EngineId) (i : Nat), s.Inv ∧ s.Up ∧ 1 ≤ s.dev.dbgLevel ∧ s.dev.engState e = esMonitor ∧ s.dev.rgnP (engRgn e) = 0 ∧
      (s.dev.en e).liveRuns = false ∧ s.dev.liveLine e = some i) ∧
    (∃ (s : State) (e : EngineId) (rd : GReg) (v : BitVec 16), s.Inv ∧ s.Up ∧ 1 ≤ s.dev.dbgLevel ∧ s.dev.engState e = esMonitor ∧ s.dev.rgnP
      (engRgn e) = 0 ∧ (s.dev.en e).liveRuns = false ∧ (s.dev.en e).storeErr = none ∧ (s.dev.en e).nmi = false ∧ esIe.get (s.dev.en e).estat = 0 ∧
      BitVec.toNat (s.dev.en e).pc < 65536 ∧ ¬(0, BitVec.toNat (s.dev.en e).pc / 4) ∈ (s.dev.en e).tcmBad ∧ decodeKE32 (BitVec.ofNat 32 (s.dev.num
      (tcmKey e (BitVec.toNat (s.dev.en e).pc)) 4)) = some (K32.lui rd v)) ∧
    (∃ (s : State), s.Inv ∧ s.Up ∧ 1 ≤ s.dev.dbgLevel ∧ s.dev.engregOpen = true ∧ s.dev.fld 5 F.DBG_ENGSEL.class = 0 ∧ s.dev.fld 5 F.DBG_ENGSEL.num
      < 32) ∧
    (∃ (s : State), s.Inv ∧ s.Up ∧ 1 ≤ s.dev.dbgLevel ∧ s.dev.engregOpen = false) :=
  ⟨⟨w14, 5, made_inv _, by unfold State.Up; decide +kernel⟩,
    ⟨w15, 5, made_inv _, by unfold State.Up; decide +kernel⟩,
    ⟨w15, 5, made_inv _, by unfold State.Up; decide +kernel⟩,
    ⟨w18, 5, 2, made_inv _, by unfold State.Up; decide +kernel⟩,
    ⟨w16, 5, 3, 4660, made_inv _, by unfold State.Up; decide +kernel⟩,
    ⟨w17, made_inv _, by unfold State.Up; decide +kernel⟩,
    ⟨w14, made_inv _, by unfold State.Up; decide +kernel⟩⟩

theorem met_DebugControl_2 :
    (∃ (s : State), s.Inv ∧ s.Up ∧ 1 ≤ s.dev.dbgLevel) ∧
    (∃ (s : State), s.Inv ∧ s.Up ∧ 1 ≤ s.dev.dbgLevel ∧ 2 ≤ s.dev.dbgLevel ∧ s.dev.inn.snap.isSome = true) ∧
    (∃ (s : State) (r : RegionId), s.Inv ∧ s.Up ∧ 1 ≤ s.dev.dbgLevel ∧ 2 ≤ s.dev.dbgLevel ∧ s.dev.inn.snap = none ∧ (s.dev.rg r).test = false ∧
      (s.dev.rg r).confidential = true) ∧
    (∃ (s : State) (r : RegionId), s.Inv ∧ s.Up ∧ 1 ≤ s.dev.dbgLevel ∧ 2 ≤ s.dev.dbgLevel ∧ s.dev.inn.snap = none ∧ (s.dev.rg r).test = false ∧
      (s.dev.rg r).confidential = false ∧ s.dev.rgnP (r : Nat) = 2) ∧
    (∃ (s : State) (r : RegionId) (b : Bool), s.Inv ∧ s.Up ∧ 1 ≤ s.dev.dbgLevel ∧ 2 ≤ s.dev.dbgLevel ∧ s.dev.inn.snap = none ∧ (s.dev.rg r).test =
      false ∧ (s.dev.rg r).confidential = false ∧ s.dev.rgnP (r : Nat) ≠ 2 ∧ s.dev.snapPlace (BitVec.toNat (s.dev.reg 5 R.DBG_SNAPADDR) * 65536)
      (snapLen b) = false) ∧
    (∃ (s : State) (r : RegionId) (b : Bool), s.Inv ∧ s.Up ∧ 1 ≤ s.dev.dbgLevel ∧ 2 ≤ s.dev.dbgLevel ∧ s.dev.inn.snap = none ∧ (s.dev.rg r).test =
      false ∧ (s.dev.rg r).confidential = false ∧ s.dev.rgnP (r : Nat) ≠ 2 ∧ s.dev.snapPlace (BitVec.toNat (s.dev.reg 5 R.DBG_SNAPADDR) * 65536)
      (snapLen b) = true) ∧
    (∃ (s : State), s.Inv ∧ s.Up ∧ 1 ≤ s.dev.dbgLevel ∧ s.dev.bit 5 F.DBG_VTOUT.valid = true) :=
  ⟨⟨w14, made_inv _, by unfold State.Up; decide +kernel⟩,
    ⟨w35, made_inv _, by unfold State.Up; decide +kernel⟩,
    ⟨w39, 1, made_inv _, by unfold State.Up; decide +kernel⟩,
    ⟨w40, 1, made_inv _, by unfold State.Up; decide +kernel⟩,
    ⟨w37, 1, true, made_inv _, by unfold State.Up; decide +kernel⟩,
    ⟨w28, 1, false, made_inv _, by unfold State.Up; decide +kernel⟩,
    ⟨w19, made_inv _, by unfold State.Up; decide +kernel⟩⟩

theorem met_DebugControl_3 :
    (∃ (s : State) (who : Who), s.Inv ∧ s.Up ∧ 1 ≤ s.dev.dbgLevel ∧ s.dev.bit 5 F.DBG_VTOUT.valid = true ∧ who ≠ Who.debugger) ∧
    (∃ (s : State) (who : Who), s.Inv ∧ s.Up ∧ 1 ≤ s.dev.dbgLevel ∧ s.dev.bit 5 F.DBG_VTOUT.valid = false ∧ who ≠ Who.debugger) ∧
    (∃ (s : State), s.Inv ∧ s.Up ∧ 1 ≤ s.dev.dbgLevel ∧ s.dev.bit 5 F.DBG_VTIN.valid = false) ∧
    (∃ (s : State), s.Inv ∧ s.Up ∧ s.dev.dbgLevel = 0) ∧
    (∃ (s : State) (who : Who), s.Inv ∧ s.Up ∧ who ≠ Who.debugger) ∧
    (∃ (s : State) (x : Snap), s.Inv ∧ PlainTier s.dev ∧ s.Up ∧ s.dev.inn.snap = some x ∧ x.base + snapLen x.bram ≤ 2 ^ 32) ∧
    (∃ (s : State) (x : Snap), s.Inv ∧ s.Up ∧ s.dev.inn.snap = some x) :=
  ⟨⟨w19, Who.host, made_inv _, by unfold State.Up; decide +kernel⟩,
    ⟨w14, Who.host, made_inv _, by unfold State.Up; decide +kernel⟩,
    ⟨w14, made_inv _, by unfold State.Up; decide +kernel⟩,
    ⟨w0, made_inv _, by unfold State.Up; decide +kernel⟩,
    ⟨w0, Who.host, made_inv _, by unfold State.Up; decide +kernel⟩,
    ⟨w7, snp, made_inv _, made_plain _ (by decide +kernel), by unfold State.Up; decide +kernel⟩,
    ⟨w7, snp, made_inv _, by unfold State.Up; decide +kernel⟩⟩

theorem met_HaltedEngineRegisters :
    (∃ (s : State), s.Inv ∧ s.Up ∧ 1 ≤ s.dev.dbgLevel ∧ ¬(s.dev.engState s.dev.selEngine = esMonitor ∧ (s.dev.en s.dev.selEngine).liveRuns =
      false)) ∧
    (∃ (s : State) (x : Fin 32), s.Inv ∧ s.Up ∧ 1 ≤ s.dev.dbgLevel ∧ s.dev.engState s.dev.selEngine = esMonitor ∧ (s.dev.en
      s.dev.selEngine).liveRuns = false ∧ s.dev.fld 5 F.DBG_ENGSEL.num = (x : Nat) ∧ s.dev.fld 5 F.DBG_ENGSEL.class = 0) ∧
    (∃ (s : State) (x : Fin 32), s.Inv ∧ s.Up ∧ 1 ≤ s.dev.dbgLevel ∧ s.dev.engState s.dev.selEngine = esMonitor ∧ (s.dev.en
      s.dev.selEngine).liveRuns = false ∧ s.dev.fld 5 F.DBG_ENGSEL.num = (x : Nat) ∧ s.dev.fld 5 F.DBG_ENGSEL.class = 1) ∧
    (∃ (s : State), s.Inv ∧ s.Up ∧ 1 ≤ s.dev.dbgLevel ∧ s.dev.engState s.dev.selEngine = esMonitor ∧ (s.dev.en s.dev.selEngine).liveRuns = false ∧
      s.dev.fld 5 F.DBG_ENGSEL.class = 2 ∧ s.dev.fld 5 F.DBG_ENGSEL.num = 0) ∧
    (∃ (s : State), s.Inv ∧ s.Up ∧ 1 ≤ s.dev.dbgLevel ∧ s.dev.engState s.dev.selEngine = esMonitor ∧ (s.dev.en s.dev.selEngine).liveRuns = false ∧
      s.dev.fld 5 F.DBG_ENGSEL.class = 2 ∧ s.dev.fld 5 F.DBG_ENGSEL.num = 1) ∧
    (∃ (s : State), s.Inv ∧ s.Up ∧ 1 ≤ s.dev.dbgLevel ∧ s.dev.engState s.dev.selEngine = esMonitor ∧ (s.dev.en s.dev.selEngine).liveRuns = false ∧
      s.dev.fld 5 F.DBG_ENGSEL.class = 2 ∧ s.dev.fld 5 F.DBG_ENGSEL.num = 2) ∧
    (∃ (s : State), s.Inv ∧ s.Up ∧ 1 ≤ s.dev.dbgLevel ∧ s.dev.engState s.dev.selEngine = esMonitor ∧ (s.dev.en s.dev.selEngine).liveRuns = false ∧
      s.dev.fld 5 F.DBG_ENGSEL.class = 2 ∧ s.dev.fld 5 F.DBG_ENGSEL.num = 3) ∧
    (∃ (s : State), s.Inv ∧ s.Up ∧ 1 ≤ s.dev.dbgLevel ∧ s.dev.engState s.dev.selEngine = esMonitor ∧ (s.dev.en s.dev.selEngine).liveRuns = false ∧
      s.dev.fld 5 F.DBG_ENGSEL.class = 2 ∧ s.dev.fld 5 F.DBG_ENGSEL.num = 4) ∧
    (∃ (s : State), s.Inv ∧ s.Up ∧ 1 ≤ s.dev.dbgLevel ∧ s.dev.engState s.dev.selEngine = esMonitor ∧ (s.dev.en s.dev.selEngine).liveRuns = false ∧
      s.dev.fld 5 F.DBG_ENGSEL.class = 2 ∧ s.dev.fld 5 F.DBG_ENGSEL.num = 5) ∧
    (∃ (s : State), s.Inv ∧ s.Up ∧ 1 ≤ s.dev.dbgLevel ∧ s.dev.engState s.dev.selEngine = esMonitor ∧ (s.dev.en s.dev.selEngine).liveRuns = false ∧
      s.dev.fld 5 F.DBG_ENGSEL.class = 2 ∧ s.dev.fld 5 F.DBG_ENGSEL.num = 6) ∧
    (∃ (s : State) (x : Fin 16), s.Inv ∧ s.Up ∧ 1 ≤ s.dev.dbgLevel ∧ s.dev.engState s.dev.selEngine = esMonitor ∧ (s.dev.en
      s.dev.selEngine).liveRuns = false ∧ s.dev.fld 5 F.DBG_ENGSEL.class = 2 ∧ s.dev.fld 5 F.DBG_ENGSEL.num = 16 + 2 * (x : Nat)) ∧
    (∃ (s : State) (x : Fin 16), s.Inv ∧ s.Up ∧ 1 ≤ s.dev.dbgLevel ∧ s.dev.engState s.dev.selEngine = esMonitor ∧ (s.dev.en
      s.dev.selEngine).liveRuns = false ∧ s.dev.fld 5 F.DBG_ENGSEL.class = 2 ∧ s.dev.fld 5 F.DBG_ENGSEL.num = 17 + 2 * (x : Nat)) ∧
    (∃ (s : State), s.Inv ∧ s.Up ∧ 1 ≤ s.dev.dbgLevel ∧ s.dev.engState s.dev.selEngine = esMonitor ∧ (s.dev.en s.dev.selEngine).liveRuns = false ∧
      s.dev.fld 5 F.DBG_ENGSEL.class = 3) :=
  ⟨⟨w14, made_inv _, by unfold State.Up; decide +kernel⟩,
    ⟨w17, 3, made_inv _, by unfold State.Up; decide +kernel⟩,
    ⟨w55, 0, made_inv _, by unfold State.Up; decide +kernel⟩,
    ⟨w68, made_inv _, by unfold State.Up; decide +kernel⟩,
    ⟨w69, made_inv _, by unfold State.Up; decide +kernel⟩,
    ⟨w70, made_inv _, by unfold State.Up; decide +kernel⟩,
    ⟨w71, made_inv _, by unfold State.Up; decide +kernel⟩,
    ⟨w72, made_inv _, by unfold State.Up; decide +kernel⟩,
    ⟨w73, made_inv _, by unfold State.Up; decide +kernel⟩,
    ⟨w74, made_inv _, by unfold State.Up; decide +kernel⟩,
    ⟨w75, 0, made_inv _, by unfold State.Up; decide +kernel⟩,
    ⟨w76, 0, made_inv _, by unfold State.Up; decide +kernel⟩,
    ⟨w81, made_inv _, by unfold State.Up; decide +kernel⟩⟩

end DebugOf

namespace Test

def tr (code page : Nat) : TestRun := {code := code, page := page}
def slot (i : Fin 4) (t : TestRun) : Op := modI fun n => {n with tests := (Vector.replicate 4 {}).set i.val {run := some t}}
def w0 : State := mp (ops [forAll [6,7,23,36] fun p => setF p fClkEn 1, skip])
def w2 : State := mp (ops [forAll [6,7,23,36] fun p => setF p fClkEn 1, (ops [setF 6 F.ST_DESTROY.en 1,
  setF (extPg 0) F.EXT_STAT.state 3])])
def w3 : State := mp (ops [forAll [6,7,23,36] fun p => setF p fClkEn 1, run1])
def w5 : State := mp (ops [forAll [6,7,23,36] fun p => setF p fClkEn 1, (ops [setF 23 F.SEN_CTL.en 0])])
def w7 : State := mp (ops [forAll [6,7,23,36] fun p => setF p fClkEn 1, (ops [setF 6 F.ST_DESTROY.en 1, setRgnst 1 2 false])])
def w8 : State := mp (ops [forAll [6,7,23,36] fun p => setF p fClkEn 1, (ops [run1, slot 1 (tr 3 257)])])
def w9 : State := mp (ops [forAll [6,7,23,36] fun p => setF p fClkEn 1, (ops [slot 1 (tr 2 385), setF 385 F.VLT_STAT.test_active 1])])
def w11 : State := mp (ops [forAll [6,7,23,36] fun p => setF p fClkEn 1, (ops [run1, slot 1 {tr 3 257 with waiting := true},
  modR 1 fun g => {g with held := some {cls := .port, slot := 1}}])])
def w12 : State := mp (ops [forAll [6,7,23,36] fun p => setF p fClkEn 1, (ops [run1, slot 1 {tr 3 257 with waiting := true}])])

theorem met_TestsRun_1 :
    (∃ (s : State) (i : Fin 4) (v : VaultId), s.Inv ∧ s.Up ∧ PageOpen s.dev 6 ∧ s.dev.testRefusal 1 (vltPg v) = 0 ∧ s.dev.freeTest = some i) ∧
    (∃ (s : State) (i : Fin 4) (v : VaultId), s.Inv ∧ s.Up ∧ PageOpen s.dev 6 ∧ s.dev.testRefusal 2 (vltPg v) = 0 ∧ s.dev.freeTest = some i) ∧
    (∃ (s : State) (i : Fin 4) (v : VaultId), s.Inv ∧ s.Up ∧ PageOpen s.dev 6 ∧ s.dev.testRefusal 7 (vltPg v) = 0 ∧ s.dev.freeTest = some i) ∧
    (∃ (s : State) (i : Fin 4) (v : VaultId), s.Inv ∧ s.Up ∧ PageOpen s.dev 6 ∧ s.dev.testRefusal 1 (vltPg v) ≠ 0 ∧ s.dev.freeTest = some i) ∧
    (∃ (s : State) (i : Fin 4) (r : RegionId), s.Inv ∧ s.Up ∧ PageOpen s.dev 6 ∧ s.dev.testRefusal 3 (rgnPg r) = 0 ∧ s.dev.freeTest = some i) ∧
    (∃ (s : State) (i : Fin 4) (e : EngineId), s.Inv ∧ s.Up ∧ PageOpen s.dev 6 ∧ s.dev.testRefusal 4 (engPg e) = 0 ∧ s.dev.freeTest = some i) :=
  ⟨⟨w0, 0, 1, made_inv _, by unfold PageOpen State.Up; decide +kernel⟩,
    ⟨w0, 0, 1, made_inv _, by unfold PageOpen State.Up; decide +kernel⟩,
    ⟨w7, 0, 1, made_inv _, by unfold PageOpen State.Up; decide +kernel⟩,
    ⟨w9, 0, 1, made_inv _, by unfold PageOpen State.Up; decide +kernel⟩,
    ⟨w3, 0, 1, made_inv _, by unfold PageOpen State.Up; decide +kernel⟩,
    ⟨w0, 0, 5, made_inv _, by unfold PageOpen State.Up; decide +kernel⟩⟩

theorem met_TestsRun_2 :
    (∃ (s : State) (i : Fin 4), s.Inv ∧ s.Up ∧ PageOpen s.dev 6 ∧ s.dev.testRefusal 5 12 = 0 ∧ s.dev.freeTest = some i) ∧
    (∃ (s : State) (i : Fin 4) (c : ChanId), s.Inv ∧ s.Up ∧ PageOpen s.dev 6 ∧ s.dev.testRefusal 6 (extPg c) = 0 ∧ s.dev.freeTest = some i) ∧
    (∃ (s : State) (i : Fin 4) (l : LaneId), s.Inv ∧ s.Up ∧ PageOpen s.dev 6 ∧ s.dev.testRefusal 8 (lnPg l) = 0 ∧ s.dev.freeTest = some i) ∧
    (∃ (s : State) (i : Fin 4) (b : BankId), s.Inv ∧ s.Up ∧ PageOpen s.dev 6 ∧ s.dev.testRefusal 32 (ioPg b) = 0 ∧ s.dev.freeTest = some i) ∧
    (∃ (s : State) (i : Fin 4), s.Inv ∧ s.Up ∧ PageOpen s.dev 6 ∧ s.dev.testRefusal 33 23 = 0 ∧ s.dev.freeTest = some i) ∧
    (∃ (s : State) (v : VaultId), s.Inv ∧ s.Up ∧ (s.dev.testRuns.any fun x => x.code == 2 && x.page == vltPg v) = true ∧ s.dev.bit (vltPg v)
      F.VLT_STAT.test_active = true) :=
  ⟨⟨w0, 0, made_inv _, by unfold PageOpen State.Up; decide +kernel⟩,
    ⟨w2, 0, 0, made_inv _, by unfold PageOpen State.Up; decide +kernel⟩,
    ⟨w0, 0, 6, made_inv _, by unfold PageOpen State.Up; decide +kernel⟩,
    ⟨w0, 0, 1, made_inv _, by unfold PageOpen State.Up; decide +kernel⟩,
    ⟨w5, 0, made_inv _, by unfold PageOpen State.Up; decide +kernel⟩,
    ⟨w9, 1, made_inv _, by unfold State.Up; decide +kernel⟩⟩

theorem met_TestsRun_3 :
    (∃ (s : State) (r : RegionId) (i : Fin 4) (t : TestRun), s.Inv ∧ s.Up ∧ s.dev.inn.tests = (Vector.replicate 4 {}).set (i : Nat) { run := some t
      } ∧ t.waiting = true ∧ t.page = rgnPg r ∧ s.dev.quietRegion r = true) ∧
    (∃ (s : State) (r : RegionId) (i : Fin 4) (t : TestRun), s.Inv ∧ s.Up ∧ s.dev.inn.tests = (Vector.replicate 4 {}).set (i : Nat) { run := some t
      } ∧ t.waiting = true ∧ t.page = rgnPg r ∧ s.dev.quietRegion r = false) ∧
    (∃ (s : State) (i : Fin 4) (t : TestRun), s.Inv ∧ s.Up ∧ s.dev.inn.tests[(i : Nat)].run = some t) ∧
    (∃ (s : State) (i : Fin 4) (t : TestRun), s.Inv ∧ s.Up ∧ s.dev.inn.tests[(i : Nat)].run = some t ∧ t.code ≠ 3 ∧ t.waiting = false ∧ t.pauses =
      0) ∧
    (∃ (s : State) (i : Fin 4) (t : TestRun) (r : RegionId), s.Inv ∧ s.Up ∧ s.dev.inn.tests[(i : Nat)].run = some t ∧ t.code = 3 ∧ t.page = rgnPg r
      ∧ t.waiting = false ∧ t.pauses = 0 ∧ t.abandon = none ∧ s.dev.inn.expected = []) :=
  ⟨⟨w12, 1, 1, { tr 3 257 with waiting := true }, made_inv _, by unfold State.Up; decide +kernel⟩,
    ⟨w11, 1, 1, { tr 3 257 with waiting := true }, made_inv _, by unfold State.Up; decide +kernel⟩,
    ⟨w8, 1, tr 3 257, made_inv _, by unfold State.Up; decide +kernel⟩,
    ⟨w9, 1, tr 2 385, made_inv _, by unfold State.Up; decide +kernel⟩,
    ⟨w8, 1, tr 3 257, 1, made_inv _, by unfold State.Up; decide +kernel⟩⟩

end Test

namespace Scan

def w0 : State := mp (ops [setF 7 fClkEn 1, skip])
def w3 : State := mp (ops [setF 7 fClkEn 1, (modI fun n => {n with phase := .fault, scan := true})])

theorem met_ScanAndSignatures :
    (∃ (s : State), s.Inv ∧ s.Up ∧ PageOpen s.dev 7) ∧
    (∃ (s : State) (who : Who), s.Inv ∧ s.Up ∧ PageOpen s.dev 7 ∧ (who ≠ Who.debugger ∨ s.dev.dbgLevel ≠ 3)) ∧
    (∃ (s : State), s.Inv ∧ s.Up ∧ PageOpen s.dev 7 ∧ s.dev.dbgLevel = 3) ∧
    (∃ (s : State), s.Inv ∧ s.dev.inn.phase = Phase.fault ∧ s.dev.inn.scan = true) :=
  ⟨⟨w0, made_inv _, by unfold PageOpen State.Up; decide +kernel⟩,
    ⟨w0, Who.host, made_inv _, by unfold PageOpen State.Up; decide +kernel⟩,
    ⟨w0, made_inv _, by unfold PageOpen State.Up; decide +kernel⟩,
    ⟨w3, made_inv _, by decide +kernel⟩⟩

end Scan

/-! ### The statements about the queue, about every step, and about words -/

theorem met_StepRunsTheFront : ∃ (c : Instr) (rest : List Instr) (s : State), s.pending = c :: rest :=
  ⟨.stopSwitchCapture, [], { State.reset with pending := [.stopSwitchCapture] }, rfl⟩

theorem met_IdleStepIsACycle :
    (∃ (s : State), s.Inv ∧ s.pending = [] ∧ s.dev.inn.phase ∈ [Phase.up, Phase.p3] ∧ (∀ r, s.dev.running r = false) ∧
      (∀ e, (s.dev.en e).sbuf = []) ∧ s.dev.inn.hold = 0 ∧
      s.dev.inn.clkStopped = 0 ∧ s.dev.bit 1 F.STW_WDT.en = false ∧ (∀ p, s.dev.lnkState p = psDown → s.dev.bit (lnkPg p) F.LNK_CTL.en = false)) ∧
    (∃ (s : State), s.Inv ∧ s.pending = [] ∧ s.dev.inn.phase ∉ [Phase.up, Phase.p3]) :=
  ⟨⟨made (modI fun n => { n with phase := .up }), made_inv _, rfl, by decide +kernel⟩,
    ⟨made (modI fun n => { n with phase := .off }), made_inv _, rfl, by decide +kernel⟩⟩

theorem met_EveryStepKeepsInv : ∃ s t : State, s.Inv ∧ step s = .next t := ⟨made skip, _, made_inv _, rfl⟩

theorem met_KE32WordsReadBack : ∃ i j : K32, i.encodable = true ∧ j.encodable = true ∧ encodeKE32 i = encodeKE32 j :=
  ⟨.lui 3 0x1234, .lui 3 0x1234, by decide, by decide, rfl⟩

/-! ### The elements of the fabric -/

/-- A configuration in which element 1 is a split table that a constant resets, element 2 one whose clock is enabled, and every other
element a full table. -/
def zero : Net := .const false
def off2 : FfCfg := { data := .sum, secondary := false, priv := false, setBySr := false, rst := none }
def element (split sr ce : Bool) : ElCfg :=
  { split := split, ins := [], x := zero, carry := .const true, ce := .const ce, sr := .const sr, q0 := off2, q1 := off2 }
def portOf (writes : Bool) : BramPortCfg :=
  { secondary := false, en := zero, writes := writes, we := zero, addr := [], din := [], mode := .readFirst }
def fabric1 : FabCfg where
  el k := if k = 1 then element true true false else element false false (k == 2)
  seg _ _ := zero
  dedicated _ := zero
  shared _ := { en0 := false, src0 := zero, en1 := false, src1 := zero }
  border _ := none
  bram _ := { k := 2, ecc := false, a := portOf true, b := portOf false }
  arith _ := { a := [], b := [], c := [], useC := false, cascade := false, split := true, saturate := true, stages := 0, shared := false
               secondary := false, ce := zero, rst := none }
  pin _ := { oe := zero, out := zero, out2 := zero, ddr := false, secondary := false }
  enable := .const true
def env1 : FabEnv where
  cfg := fabric1
  depth := 4
  table _ := 0x1234
  slot := 0
  g := {}
  border _ := false
  ctl _ := false
  port _ := false

def act1 (w : Option BramWrite) : PortAct := { on := true, addr := 3, write := w }

theorem met_FabricElements :
    (env1.depth ∈ [2, 4, 8] ∧ (env1.cfg.el 1).split = true ∧ env1.depth ≠ 8 ∧ ((env1.cfg.el 0).split = false ∨ env1.depth = 8)) ∧
    (ffExists env1.depth 3 = true ∧ (env1.cfg.ffCfg 3).secondary = false ∧ env1.v (env1.cfg.el 1).sr = true ∧
      env1.v (env1.cfg.el 2).sr = false ∧ env1.v (env1.cfg.el 2).ce = true ∧ (env1.cfg.ffCfg 4).data = .sum ∧
      env1.v (env1.cfg.el 0).sr = false ∧ env1.v (env1.cfg.el 0).ce = false) ∧
    (∃ w : BramWrite, w.k ≤ 8 ∧ w.row + w.k ≤ 8192) ∧
    ((env1.cfg.bram 5).k ∈ [1, 2, 4] ∧ (env1.cfg.bram 5).ecc = false ∧ (act1 none).on = true ∧ (act1 none).write = none) ∧
    (∃ v w : BramWrite, (act1 (some v)).write = some v ∧ (act1 (some w)).write = some w ∧ v.bram = w.bram ∧ v.row = w.row ∧ v.k = w.k) := by
  refine ⟨by decide, ⟨by decide, rfl, ?_, ?_, ?_, rfl, ?_, ?_⟩, ⟨⟨5, 0, 8188, 4, 7⟩, by decide, by decide⟩, by decide, ⟨5, 0, 4, 4, 7⟩, ⟨5, 1, 4, 4, 9⟩,
    rfl, rfl, rfl, rfl, rfl⟩ <;> simp [FabEnv.v, FabEnv.val, env1, fabric1, element]

/-- A full 5-input table at depth 4 answers its bit 0 where every input is 0, and a split one its bits 0 and 16 (R62). -/
theorem test_tables : tableOut 4 0 1 false (fun _ => false) false = true ∧ tableOut 4 0 0x10000 true (fun _ => false) true = true ∧
    tableOut 4 0 0x10000 true (fun _ => false) false = false := by decide +kernel

/-- A lane that saturates stays at 32767; one that wraps goes on (R74). -/
theorem test_lanes : laneAdd true 32767 1 = 32767 ∧ laneAdd false 32767 1 = 32768 := by decide +kernel

/-! ### Terms that the well-formedness checks refuse -/

/-- A frame that fits. -/
def okFrame : Frame := { ftype := 1 }
def okReq : FabReq := { kind := .read, cls := 0, tag := 0, dev := 0, addr := 0, be := 0, word := 0, data := [] }

theorem test_wf_registerWrite : (Instr.registerWrite .host 0 [1, 2, 3] []).wf = false ∧ (Instr.registerWrite .host 0 [] []).wf = false ∧
    (Instr.registerWrite .host 0 [1, 2] []).wf = true := by decide +kernel
theorem test_wf_bar0Access : (Instr.bar0Access 0 0 true none []).wf = false ∧ (Instr.bar0Access 0 4097 true none []).wf = false ∧
    (Instr.bar0Access 0 4 true (some (List.replicate 1025 0)) []).wf = false := by decide +kernel
theorem test_wf_bar2Access : (Instr.bar2Access 0 4097 none).wf = false ∧
    (Instr.bar2Access 0 4 (some (List.replicate 4097 none))).wf = false := by decide +kernel
theorem test_wf_riserContention : (Instr.riserContention 0 31).wf = false ∧ (Instr.riserContention 0 46112).wf = false ∧
    (Instr.riserContention 0 32).wf = true := by decide +kernel
theorem test_wf_fetchReadUncorr : (Instr.fetchReadUncorr 0 0x4000000).wf = false := by decide +kernel
theorem test_wf_vpRequest : (Instr.vpRequest 0 0 false 0 (2 ^ 64) []).wf = false ∧
    (Instr.vpRequest 0 0 false 0 0 (List.replicate 65 0)).wf = false := by decide +kernel
theorem test_wf_nqRequest : (Instr.nqRequest 0 { okReq with dev := 16384 }).wf = false ∧
    (Instr.nqRequest 0 { okReq with addr := 2 ^ 48 }).wf = false ∧ (Instr.nqRequest 0 { okReq with be := 2 ^ 64 }).wf = false ∧
    (Instr.nqRequest 0 { okReq with data := List.replicate 65 0 }).wf = false ∧ (Instr.nqRequest 0 okReq).wf = true := by decide +kernel
theorem test_wf_ntResponse : (Instr.ntResponse 0 0 false (List.replicate 65 0)).wf = false := by decide +kernel
theorem test_wf_frame :
    (Frame.wf { okFrame with ftype := 16 } || Frame.wf { okFrame with cls := 4 } || Frame.wf { okFrame with etag := 4096 } ||
      Frame.wf { okFrame with hops := 8 } || Frame.wf { okFrame with ports := 2 ^ 28 } || Frame.wf { okFrame with dst := 16384 } ||
      Frame.wf { okFrame with src := 16384 } || Frame.wf { okFrame with kind := 16 } || Frame.wf { okFrame with addr := 2 ^ 48 } ||
      Frame.wf { okFrame with status := 16 } || Frame.wf { okFrame with init := 1024 } || Frame.wf { okFrame with be := 2 ^ 64 } ||
      Frame.wf { okFrame with data := [0] } || Frame.wf { okFrame with data := List.replicate 320 0 }) = false ∧
    Frame.wf okFrame = true := by decide +kernel
theorem test_wf_frames : (Instr.reqFrame 0 { okFrame with cls := 4 } none (.good 0)).wf = false ∧
    (Instr.rspFrame 0 okFrame (some { seq := 4096, nak := false }) (.good 0)).wf = false ∧
    (Instr.eventFrame 0 okFrame none (.good 4096)).wf = false ∧ (Instr.frameTransit 0 okFrame none (.good 4095)).wf = true ∧
    (Instr.keyFrame 0 (List.replicate 257 0) none .crc).wf = false ∧ (Instr.linkFrame 0 { seq := 4096, nak := true }).wf = false ∧
    (Instr.timeFrame 0 (some (2 ^ 68, 0))).wf = false := by decide +kernel
theorem test_wf_lengths : (Instr.mbDone 0 0 [0, 0, 0, 0, 0]).wf = false ∧ (Instr.pmbusDone 0 [0, 0, 0, 0, 0]).wf = false ∧
    (Instr.ethClientTxBeat 0 (List.replicate 33 0) true true 0 none).wf = false ∧
    (Instr.writeLogFull 0 (List.replicate 65 ⟨0, 0, 0, 1, 0⟩)).wf = false := by decide +kernel
theorem test_wf_fabric : (Instr.writeLogFull 0 [⟨0, 0, 2, 4, 0⟩]).wf = false ∧ (Instr.writeLogFull 0 [⟨0, 0, 4, 4, 0⟩]).wf = true ∧
    (Instr.fetchDone 0 { cycles := 0, fixed := [(0x4000000, 0)] }).wf = false ∧
    (Instr.scrubCodewordCheck 0 0 0 [1, 1] true).wf = false := by decide +kernel
theorem test_wf_ethRxFrame : (Instr.ethRxFrame 0 (List.replicate 16385 0) true).wf = false := by
  simp only [Instr.wf, List.length_replicate]; decide

/-! ### KE32 words, written out field by field from the formats of R221 -/

/-- Format A: `sub g4, g5, g6`. -/
theorem test_word_sub : decodeKE32 0b000000_00100_00101_00110_00000000001 = some (.alu .sub 4 5 6) := by decide +kernel
/-- Format A, floating point: `fcsgn f1, f2, f3`. -/
theorem test_word_fcsgn : decodeKE32 0b000001_00001_00010_00011_00000001000 = some (.fp2 .fcsgn 1 2 3) := by decide +kernel
/-- Format I: `xori g1, g2, 0x8001`; `sari g1, g2, 31` with kind 2 in imm [6:5]; kind 3 is illegal (R223). -/
theorem test_word_immediates : decodeKE32 0b001011_00001_00010_1000000000000001 = some (.imm .xori 1 2 0x8001) ∧
    decodeKE32 0b001110_00001_00010_000000000_10_11111 = some (.shift .sari 1 2 31) ∧
    decodeKE32 0b001110_00001_00010_000000000_11_00000 = none := by decide +kernel
/-- Format M: `lhu g7, -2(g8)`; a store names its source in [25:21]. -/
theorem test_word_memory : decodeKE32 0b010011_00111_01000_1111111111111110 = some (.load .lhu 7 8 0xFFFE) ∧
    decodeKE32 0b011001_00111_01000_0000000000000010 = some (.store .sh 7 8 2) := by decide +kernel
/-- `lr.w` has funct11 0 and an unused rs2 field, which must be zero. -/
theorem test_word_lr : decodeKE32 0b011100_00001_00010_00000_00000000000 = some (.lrw 1 2) ∧
    decodeKE32 0b011100_00001_00010_00001_00000000000 = none := by decide +kernel
/-- Formats B and J: `bgeu g1, g2, -1` words; `j -1`. -/
theorem test_word_branches : decodeKE32 0b100101_00001_00010_1111111111111111 = some (.branch .bgeu 1 2 0xFFFF) ∧
    decodeKE32 0b101001_11111111111111111111111111 = some (.j 0x3FFFFFF) := by decide +kernel
/-- A major opcode that the map does not list is an illegal instruction. -/
theorem test_word_unlisted : decodeKE32 0b111111_00000_00000_0000000000000000 = none := by decide +kernel

/-! ### Single steps, with the results the spec gives -/

/-- What a property of the part is after a command; false where the command does not answer a next state. -/
def after (c : Instr) (s : State) (p : Device → Bool) : Bool :=
  match exec c s with
  | .next t => p t.dev
  | _ => false

/-- Engine 5 runs with these values in g1, g2 and f1, f2. -/
def with2 (a b : Word) : State :=
  made (ops [run5, setG 5 1 a, setG 5 2 b, modE 5 fun n => { n with fr := (n.fr.set 1 a).set 2 b }])
def g3 (v : Word) (d : Device) : Bool := d.g 5 3 == v
def f3 (v : Word) (d : Device) : Bool := (d.en 5).fr[3] == v

/-- Sums wrap modulo 2^32 (R221). -/
theorem test_add_wraps : after (.add 5 3 1 2) (with2 0xFFFFFFFF 1) (g3 0) = true := by decide +kernel
/-- −1 × −1 has high words 0 signed and 0xFFFFFFFE unsigned (R221). -/
theorem test_mul_high : after (.mulhs 5 3 1 2) (with2 0xFFFFFFFF 0xFFFFFFFF) (g3 0) = true ∧
    after (.mulhu 5 3 1 2) (with2 0xFFFFFFFF 0xFFFFFFFF) (g3 0xFFFFFFFE) = true := by decide +kernel
/-- Division by zero saturates by the sign of the dividend; the remainder is then 0 (R222). -/
theorem test_div_zero : after (.div 5 3 1 2) (with2 7 0) (g3 0x7FFFFFFF) = true ∧
    after (.div 5 3 1 2) (with2 0xFFFFFFF9 0) (g3 0x80000000) = true ∧ after (.rem 5 3 1 2) (with2 7 0) (g3 0) = true := by decide +kernel
/-- −7 / 2 rounds toward zero, and the remainder has the sign of the dividend (R221). -/
theorem test_div_rounds : after (.div 5 3 1 2) (with2 0xFFFFFFF9 2) (g3 0xFFFFFFFD) = true ∧
    after (.rem 5 3 1 2) (with2 0xFFFFFFF9 2) (g3 0xFFFFFFFF) = true := by decide +kernel
/-- `andi` zero-extends; `ltiu` sign-extends and then compares unsigned (R223). -/
theorem test_immediates_extend : after (.andi 5 3 1 0xFFFF) (with2 0xFFFFFFFF 0) (g3 0x0000FFFF) = true ∧
    after (.ltiu 5 3 1 0xFFFF) (with2 0xFFFFFFFE 0) (g3 1) = true := by decide +kernel
/-- A shift takes rs2 bits [4:0] (R221). -/
theorem test_sar_amount : after (.sar 5 3 1 2) (with2 0x80000000 0x21) (g3 0xC0000000) = true := by decide +kernel
/-- 1 + 2^-24 rounds to even; ∞ × 0 gives the default NaN of R224. -/
theorem test_float_values : after (.fadd 5 3 1 2) (with2 0x3F800000 0x33800000) (f3 0x3F800000) = true ∧
    after (.fmul 5 3 1 2) (with2 0x7F800000 0) (f3 0x7FE00000) = true := by decide +kernel
/-- −0 is below +0; a conversion of −1 to unsigned saturates to 0; 0x7F800001 is a signalling NaN, class 9 (R224). -/
theorem test_float_corners : after (.fmin 5 3 1 2) (with2 0 0x80000000) (f3 0x80000000) = true ∧
    after (.ftou 5 3 1) (with2 0xBF800000 0) (g3 0) = true ∧ after (.fkind 5 3 1) (with2 0x7F800001 0) (g3 9) = true := by decide +kernel
/-- `fsqrt` of 2 is 0x3FB504F3; 1 / 3 is 0x3EAAAAAB (IEEE 754 binary32, to nearest). -/
theorem test_float_roots : after (.fsqrt 5 3 1) (with2 0x40000000 0) (f3 0x3FB504F3) = true ∧
    after (.fdiv 5 3 1 2) (with2 0x3F800000 0x40400000) (f3 0x3EAAAAAB) = true := by decide +kernel
/-- A backward branch continues at its own address + 4 × offset16 (R228). -/
theorem test_branch_back : after (.beq 5 1 2 0xFFFF) (with2 4 4) (fun d => (d.en 5).pc == 0xFC) = true := by decide +kernel
/-- `jalr` reads rs1 before it writes rd (R228). -/
theorem test_jalr_same : after (.jalr 5 1 1 8) (with2 0x200 0) (fun d => (d.en 5).pc == 0x208 && d.g 5 1 == 0x104) = true := by decide +kernel
/-- A write of g0 is discarded (R219). -/
theorem test_g0 : after (.lui 5 0 0x1234) (with2 0 0) (fun d => d.g 5 0 == 0 && (d.en 5).pc == 0x104) = true := by decide +kernel
/-- The key pair of R41: the first write begins, the second by the same initiator opens. -/
theorem test_unlock : (match exec (.pgLockWrite .host 5 0xA5C3) (mp skip) with
    | .next t => !(t.dev.unlockedFor 5 .host) && after (.pgLockWrite .host 5 0x5A3C) t (fun d => d.unlockedFor 5 .host) &&
        after (.pgLockWrite .steward 5 0x5A3C) t (fun d => !(d.unlockedFor 5 .host) && !(d.unlockedFor 5 .steward))
    | _ => false) = true := by decide +kernel
/-- A command completes on the part after reset, and a step takes it off the queue. -/
theorem test_step_takes : (match step { State.reset with pending := [.stopSwitchCapture] } with
    | .next t => t.pending == []
    | _ => false) = true := by decide +kernel

end Sys2Proof.Tests
end

section
/-!
PROOFS. Debug (20_debug.md): the frames that have no effect and the read of DK_LAST (R450), and DBG_ENGREG (R462). Both rest on one
lemma for each branch of `execDebugFrame`, `Device.engreg` and `engregWrite`.
-/

namespace Sys2Proof.Machine

/-! ### Commands of the debug port in the phases in which they act -/

section
variable {c : Instr} {s : State} {o : Op} {P : Device → Prop}

theorem completes_of_next (he : exec c s = .next { s with dev := o.run s.dev }) (hP : P (o.run s.dev)) : Completes c s P :=
  ⟨_, he, rfl, hP⟩

/-- A command of the debug port has its effect in each of the phases of R457. -/
theorem completes_of_dkGo (hph : s.dev.inn.phase ∈ [.up, .p3, .fault]) (he : exec c s = dkGo s o) (hP : P (o.run s.dev)) :
    Completes c s P :=
  completes_of_next (he.trans (goIn_up (List.contains_iff_mem.2 hph) o)) hP

/-- A write of the debug page at D1 or higher has its effect while the part is up. -/
theorem completes_of_debuggerWrite (hup : s.Up) (hl : 1 ≤ s.dev.dbgLevel) (he : exec c s = go s (debuggerWrite o))
    (hP : P (o.run s.dev)) : Completes c s P := by
  have hphase : s.dev.inn.phase = .up := hup
  have hact : (debuggerWrite o).run s.dev = o.run s.dev := whenD_true (by simp [Device.inP3, hphase, hl])
  exact completes_of_next (he.trans (go_up hphase _)) (hact ▸ hP)

end

/-! ### Frames (R449, R450) -/

theorem exec_debugFrame (h : BitVec 16) (w : Word) (crc : BitVec 8) (s : State) :
    exec (.debugFrame h w crc) s = execDebugFrame h w crc s := rfl

theorem headerOk_iff (h : BitVec 16) : headerOk h = true ↔ h.toNat % 16 = 6 ∧ h.toNat / 256 % 16 = 0 ∧
    h.toNat / 4096 = (h.toNat % 16) ^^^ (h.toNat / 16 % 16) ^^^ (h.toNat / 256 % 16) := by
  simp [headerOk, and_assoc]

/-- Bit 4 of a header tells a write from a read. -/
theorem header_write_iff (h : BitVec 16) : h.getLsbD 4 = true ↔ h.toNat / 16 % 2 = 1 := by
  rw [← BitVec.testBit_toNat, Nat.testBit_eq_decide_div_mod_eq, decide_eq_true_iff]

section
variable {h : BitVec 16} {w : Word} {crc : BitVec 8} {s : State}

theorem execDebugFrame_malformed (hh : headerOk h = false) : execDebugFrame h w crc s = dkGo s skip := by
  simp [execDebugFrame, hh]

theorem execDebugFrame_badCrc (hh : headerOk h = true) (hw : h.getLsbD 4 = true) (hc : crc.toNat ≠ crc8 w) :
    execDebugFrame h w crc s = dkGo s (both (modDk fun k => { k with wcrc := true, hold := true }) answerError) := by
  simp [execDebugFrame, hh, hw, hc]

theorem execDebugFrame_readReg (hh : headerOk h = true) (hr : h.getLsbD 4 = false) (hsel : h.toNat / 32 % 8 ≠ 5) :
    execDebugFrame h w crc s = dkGo s (withD fun d => answerRead (d.dkReg (h.toNat / 32 % 8))) := by
  simp only [execDebugFrame, hh, hr, hsel, Bool.not_true, Bool.false_eq_true, if_false]

end

/-- Settles O8: each of the three kinds of frame is one branch of `execDebugFrame`. -/
theorem malformedFramesHaveNoEffect : Obligations.MalformedFramesHaveNoEffect := by
  unfold Obligations.MalformedFramesHaveNoEffect
  intro s _ hph h w crc
  refine ⟨fun hbad => ?malformed, fun hsync hzero hcheck => ⟨fun hwrite hcrc => ?badCrc, fun hlast => ?readLast⟩⟩
  case malformed =>
    have hh : headerOk h = false := by
      rw [Bool.eq_false_iff, ne_eq, headerOk_iff]
      rintro ⟨hsync, hzero, hcheck⟩
      exact hbad.elim (· hsync) fun hrest => hrest.elim (· hzero) (· hcheck)
    exact completes_of_dkGo hph (execDebugFrame_malformed hh) rfl
  all_goals have hh : headerOk h = true := (headerOk_iff h).2 ⟨hsync, hzero, hcheck⟩
  case badCrc =>
    exact completes_of_dkGo hph (execDebugFrame_badCrc hh ((header_write_iff h).2 hwrite) hcrc) ⟨rfl, rfl, rfl, rfl⟩
  case readLast =>
    have hread : h.getLsbD 4 = false := by
      rw [Bool.eq_false_iff, ne_eq, header_write_iff]
      omega
    have hsel : h.toNat / 32 % 8 = 7 := by omega
    refine completes_of_dkGo hph (execDebugFrame_readReg hh hread (by omega)) ?_
    rw [hsel]
    exact ⟨rfl, rfl, rfl, rfl⟩

/-! ### The register that DBG_ENGREG selects (R462) -/

theorem engregOpen_iff (d : Device) :
    d.engregOpen = true ↔ d.engState d.selEngine = esMonitor ∧ (d.en d.selEngine).liveRuns = false := by
  simp [Device.engregOpen]

theorem greg_val (x : GReg) : greg x.val = x := Fin.ofNat_val_eq_self x

theorem cregOf_winA (x : Fin 16) : cregOf (16 + 2 * x.val) = some (.winA x) := by
  revert x; decide

theorem cregOf_winB (x : Fin 16) : cregOf (17 + 2 * x.val) = some (.winB x) := by
  revert x; decide

/-- The control registers that DBG_ENGREG does not write: the windows, written only under R200, and the read-only ones. -/
def shutToDebugger : CReg → Bool
  | .winA _ | .winB _ | .ecause | .eaddr => true
  | _ => false

section
variable {d : Device} {x : GReg} {c : CReg} {w : Word}

/-! What DBG_ENGREG shows, by the class of DBG_ENGSEL. -/

theorem engreg_of_general (hc : d.fld 5 F.DBG_ENGSEL.class = 0) (hn : d.fld 5 F.DBG_ENGSEL.num = x.val) :
    d.engreg = d.g d.selEngine x := by
  simp [Device.engreg, hc, hn, greg_val]

theorem engreg_of_float (hc : d.fld 5 F.DBG_ENGSEL.class = 1) (hn : d.fld 5 F.DBG_ENGSEL.num = x.val) :
    d.engreg = (d.en d.selEngine).fr[x.val] := by
  simp [Device.engreg, hc, hn, greg_val, Device.f]

theorem engreg_of_control (hc : d.fld 5 F.DBG_ENGSEL.class = 2) (hn : cregOf (d.fld 5 F.DBG_ENGSEL.num) = some c) :
    d.engreg = (d.en d.selEngine).cr c := by
  simp [Device.engreg, hc, hn]

theorem engreg_of_haltAddress (hc : d.fld 5 F.DBG_ENGSEL.class = 3) : d.engreg = (d.en d.selEngine).pc := by
  simp [Device.engreg, hc]

/-! What a write of DBG_ENGREG does. -/

theorem engregWrite_of_not_open (ho : d.engregOpen = false) : (engregWrite w).run d = denied.run d := by
  simp [engregWrite, ho]

theorem engregWrite_of_general (ho : d.engregOpen = true) (hc : d.fld 5 F.DBG_ENGSEL.class = 0)
    (hn : d.fld 5 F.DBG_ENGSEL.num = x.val) : (engregWrite w).run d = (setG d.selEngine x w).run d := by
  simp [engregWrite, ho, hc, hn, greg_val]

theorem engregWrite_of_float (ho : d.engregOpen = true) (hc : d.fld 5 F.DBG_ENGSEL.class = 1)
    (hn : d.fld 5 F.DBG_ENGSEL.num = x.val) : (engregWrite w).run d = (setFr d.selEngine x w).run d := by
  simp [engregWrite, ho, hc, hn, greg_val]

theorem engregWrite_of_control (ho : d.engregOpen = true) (hc : d.fld 5 F.DBG_ENGSEL.class = 2)
    (hn : cregOf (d.fld 5 F.DBG_ENGSEL.num) = some c) : (engregWrite w).run d =
      if shutToDebugger c then denied.run d else (modE d.selEngine fun n => n.setCr c w).run d := by
  cases c <;> simp [engregWrite, ho, hc, hn, shutToDebugger]

theorem engregWrite_of_haltAddress (ho : d.engregOpen = true) (hc : d.fld 5 F.DBG_ENGSEL.class = 3) :
    (engregWrite w).run d = (modE d.selEngine fun n => { n with pc := w &&& 0xFFFFFFFC }).run d := by
  simp [engregWrite, ho, hc]

end

/-! ### ENGREG_ACCESS -/

/-- A part that differs from `s` in one answer of the debug port. -/
def AnsweredOnly (s : State) (nums : List Nat) (d : Device) : Prop :=
  d.inn = { s.dev.inn with out := .debug nums :: s.dev.inn.out } ∧ d.regs = s.dev.regs ∧ d.mem = s.dev.mem ∧ d.gpr = s.dev.gpr

theorem denied_fits : F.DBG_STAT.denied.fits 5 := Fld.fits_of (k := .dbg) rfl (by decide) rfl

theorem denied_bit {d : Device} (hI : d.Inv) : (denied.run d).bit 5 F.DBG_STAT.denied = true := by
  unfold Device.bit denied
  rw [fld_setF_same hI denied_fits]
  rfl

theorem denied_onlyRegs (s : State) : OnlyRegs s 5 [F.DBG_STAT.denied.off] (denied.run s.dev) := by
  refine ⟨fun q w hw hne => reg_setF_ne fun hkey => ?_, rfl, rfl⟩
  obtain ⟨hq, hoff⟩ := (regKey_inj (by decide) hw).1 hkey
  exact hne.elim (fun h => h hq.symm) fun h => h (by simp [hoff])

section
variable {s : State} (hup : s.Up) (hl : 1 ≤ s.dev.dbgLevel)
include hup hl

theorem engregRead_answers (ho : s.dev.engregOpen = true) :
    Completes (.engregAccess none) s (AnsweredOnly s [s.dev.engreg.toNat]) := by
  refine completes_of_debuggerWrite hup hl rfl ?_
  rw [withD_run, if_pos ho]
  exact ⟨rfl, rfl, rfl, rfl⟩

theorem engregRead_denied (hI : s.Inv) (ho : s.dev.engregOpen = false) : Completes (.engregAccess none) s fun d =>
    d.bit 5 F.DBG_STAT.denied = true ∧ d.inn = { s.dev.inn with out := .debug [0] :: s.dev.inn.out } ∧
      OnlyRegs s 5 [F.DBG_STAT.denied.off] d := by
  refine completes_of_debuggerWrite hup hl rfl ?_
  rw [withD_run, if_neg (by simp [ho])]
  exact ⟨denied_bit hI, rfl, denied_onlyRegs s⟩

theorem engregWrite_completes {w : Word} {o : Op} {P : Device → Prop} (hw : (engregWrite w).run s.dev = o.run s.dev)
    (hP : P (o.run s.dev)) : Completes (.engregAccess (some w)) s P :=
  completes_of_debuggerWrite hup hl rfl (hw ▸ hP)

theorem engregWrite_refused {w : Word} (hI : s.Inv) (hw : (engregWrite w).run s.dev = denied.run s.dev) :
    Completes (.engregAccess (some w)) s fun d =>
      d.bit 5 F.DBG_STAT.denied = true ∧ d.inn = s.dev.inn ∧ OnlyRegs s 5 [F.DBG_STAT.denied.off] d :=
  engregWrite_completes hup hl hw ⟨denied_bit hI, rfl, denied_onlyRegs s⟩

theorem engregWrite_wroteE {w : Word} {e : EngineId} {f : Engine → Engine}
    (hw : (engregWrite w).run s.dev = (modE e f).run s.dev) :
    Completes (.engregAccess (some w)) s (WroteE s e (f (s.dev.en e))) :=
  engregWrite_completes hup hl hw ⟨rfl, rfl, rfl, rfl⟩

theorem engregWrite_wroteG {w : Word} {e : EngineId} {x : GReg} (hI : s.Inv)
    (hw : (engregWrite w).run s.dev = (setG e x w).run s.dev) : Completes (.engregAccess (some w)) s fun d =>
      d.g e x = (if x = 0 then 0 else w) ∧ (∀ y q, y ≠ e ∨ q ≠ x → d.g y q = s.dev.g y q) ∧ d.regs = s.dev.regs ∧
        d.mem = s.dev.mem ∧ d.inn = s.dev.inn :=
  engregWrite_completes hup hl hw
    ⟨g_setG_same hI e x w, fun _ _ hne => g_setG_ne (hne.imp Ne.symm Ne.symm), setG_regs .., setG_mem .., setG_inn ..⟩

/-- A control register that the debugger may write shows its value and takes the write. -/
theorem engreg_control_writable (ho : s.dev.engregOpen = true) (hc : s.dev.fld 5 F.DBG_ENGSEL.class = 2) {c : CReg}
    (hn : cregOf (s.dev.fld 5 F.DBG_ENGSEL.num) = some c) (hs : shutToDebugger c = false) :
    Completes (.engregAccess none) s (AnsweredOnly s [((s.dev.en s.dev.selEngine).cr c).toNat]) ∧
      ∀ w, Completes (.engregAccess (some w)) s (WroteE s s.dev.selEngine ((s.dev.en s.dev.selEngine).setCr c w)) := by
  refine ⟨engreg_of_control hc hn ▸ engregRead_answers hup hl ho, fun w => engregWrite_wroteE hup hl (f := fun n => n.setCr c w) ?_⟩
  rw [engregWrite_of_control ho hc hn, hs, if_neg Bool.false_ne_true]

/-- Any other shows its value and refuses the write. -/
theorem engreg_control_shut (hI : s.Inv) (ho : s.dev.engregOpen = true) (hc : s.dev.fld 5 F.DBG_ENGSEL.class = 2) {c : CReg}
    (hn : cregOf (s.dev.fld 5 F.DBG_ENGSEL.num) = some c) (hs : shutToDebugger c = true) :
    Completes (.engregAccess none) s (AnsweredOnly s [((s.dev.en s.dev.selEngine).cr c).toNat]) ∧
      ∀ w, Completes (.engregAccess (some w)) s fun d =>
        d.bit 5 F.DBG_STAT.denied = true ∧ d.inn = s.dev.inn ∧ OnlyRegs s 5 [F.DBG_STAT.denied.off] d := by
  refine ⟨engreg_of_control hc hn ▸ engregRead_answers hup hl ho, fun w => engregWrite_refused hup hl hI ?_⟩
  rw [engregWrite_of_control ho hc hn, hs, if_pos rfl]

end

/-- Settles O9: where DBG_ENGREG does not act it is denied; where it acts, by the class of DBG_ENGSEL. -/
theorem haltedEngineRegisters : Obligations.HaltedEngineRegisters := by
  unfold Obligations.HaltedEngineRegisters
  intro s hI hup hl
  refine ⟨fun hacts => ?denied, fun hacts => ?acts⟩
  case denied =>
    have ho : s.dev.engregOpen = false := by rwa [Bool.eq_false_iff, ne_eq, engregOpen_iff]
    exact ⟨fun w => engregWrite_refused hup hl hI (engregWrite_of_not_open ho), engregRead_denied hup hl hI ho⟩
  case acts =>
    have ho : s.dev.engregOpen = true := (engregOpen_iff _).2 hacts
    have hread := engregRead_answers hup hl ho
    refine ⟨fun x hn => ⟨fun hc => ?general, fun hc => ?float⟩, fun hc => ?control, fun hc => ?haltAddress⟩
    case general =>
      exact ⟨engreg_of_general hc hn ▸ hread, fun w => engregWrite_wroteG hup hl hI (engregWrite_of_general ho hc hn)⟩
    case float =>
      exact ⟨engreg_of_float hc hn ▸ hread, fun w => engregWrite_wroteE hup hl (engregWrite_of_float ho hc hn)⟩
    case control =>
      have writable {c : CReg} {n : Nat} (hc' : cregOf n = some c) (hs : shutToDebugger c = false)
          (hn : s.dev.fld 5 F.DBG_ENGSEL.num = n) := engreg_control_writable hup hl ho hc (hn ▸ hc') hs
      have shut {c : CReg} {n : Nat} (hc' : cregOf n = some c) (hs : shutToDebugger c = true)
          (hn : s.dev.fld 5 F.DBG_ENGSEL.num = n) := engreg_control_shut hup hl hI ho hc (hn ▸ hc') hs
      exact ⟨writable (c := .estat) rfl rfl, shut (c := .ecause) rfl rfl, writable (c := .epc) rfl rfl,
        shut (c := .eaddr) rfl rfl, writable (c := .evbase) rfl rfl, writable (c := .ctxid) rfl rfl,
        writable (c := .fstat) rfl rfl, fun x => shut (cregOf_winA x) rfl, fun x => shut (cregOf_winB x) rfl⟩
    case haltAddress =>
      exact ⟨engreg_of_haltAddress hc ▸ hread, fun w => engregWrite_wroteE hup hl (engregWrite_of_haltAddress ho hc)⟩

end Sys2Proof.Machine
end
